-- ==== Sys2Proof/Word.lean ====
section
/-! DEFINITION. The word types of the Flovon 9400 and their names in the manual (00 R7, R23; 03 R60; 04 R86, R91, R92). -/

namespace Sys2Proof

/-- A byte of memory (00 R7). -/
abbrev Byte := BitVec 8
/-- A 32-bit word: one vector lane, one FP32 value, one instruction word. -/
abbrev W32 := BitVec 32
/-- A scalar register, a control register or an address (04 R86). -/
abbrev Word := BitVec 64
/-- A timestamp: c0 in the highest 32 bits, c3 in the lowest (01 R23). -/
abbrev Time := BitVec 128
/-- A vector register: lane i in bits [32i+31:32i] (04 R91). -/
abbrev Vec := BitVec 1024
/-- A scalar or vector register specifier (11 R238). -/
abbrev Spec := BitVec 5
/-- A predicate register specifier (11 R238). -/
abbrev PSpec := BitVec 3

/-- The time called "never" (01 R23). -/
abbrev Time.never : Time := BitVec.allOnes 128

end Sys2Proof
end

