-- ==== Sys2Proof/Config.lean ====
section
/-! DEFINITION. What is fixed for the device (sizes and periods the rules state) and the free values of the model:
constants without a body, for values the manual leaves open. -/

namespace Sys2Proof.Config

/-- Scalar ring entries (04 R87). -/
abbrev ringSize : Nat := 64
/-- Bytes of one slot's register stack (05 R107). -/
abbrev stackBytes : Nat := 0x2000
/-- Ready-ring entries of a quad (02 R49). -/
abbrev readyRing : Nat := 256
/-- Mailbox entries (06 R128). -/
abbrev boxEntries : Nat := 8
/-- Send-buffer messages of a slot (06 R128). -/
abbrev sendEntries : Nat := 4
/-- Delta-buffer entries of a core (08 R170). -/
abbrev deltaEntries : Nat := 32
/-- Arith cycles an entry of the delta buffer may wait (08 R171). -/
abbrev flushAge : Nat := 128
/-- Arith cycles before a refused message is offered again (06 R135). -/
abbrev reofferAge : Nat := 64
/-- Arith cycles between two offers of a fault packet (06 R141). -/
abbrev packetPeriod : Nat := 256
/-- Arith cycles between two levelling decisions (02 R52). -/
abbrev levelPeriod : Nat := 4096
/-- Arith cycles between two decisions of a stage governor (02 R57). -/
abbrev governPeriod : Nat := 1024
/-- Fabric cycles of an arith cycle (00 R3), in each of which a dispatcher deals one chunk (02 R44). -/
abbrev dealsPerCycle : Nat := 2
/-- Cycles a ready ordinary slot waits before rule 1 of 02 R59 serves it. -/
abbrev starveLimit : Nat := 12
/-- Supervisor packet queue entries (06 R141). -/
abbrev packetQueue : Nat := 4096
/-- Dead-letter queue entries (06 R140). -/
abbrev deadLetters : Nat := 1024
/-- Store-buffer entries of a quad (05 R112). -/
abbrev storeEntries : Nat := 64
/-- Commands in a quad array's queue (15 R315). -/
abbrev arrayQueue : Nat := 8
/-- Active group records of a die (07 R160). -/
abbrev groupRecords : Nat := 4096
/-- Requests in a silt engine's queue, and commands in one NVMe queue pair (06 R146, R145). -/
abbrev siltQueue : Nat := 256
/-- TLB entries of a quad and of a die (05 R120). -/
abbrev tlbQuad : Nat := 2048
abbrev tlbDie : Nat := 32768
/-- On-chip entries of a tilth unit (08 R174). -/
abbrev tilthOnChip : Nat := 16384
/-- Atomics outstanding to one package, and results kept for one package (08 R181). -/
abbrev linkWindow : Nat := 256
/-- Combining entries of a router (07 R156). -/
abbrev combEntries : Nat := 32
/-- Variables of a crossing unit (07 R164). -/
abbrev crossVars : Nat := 1024
/-- Partitions of a package (01 R11). -/
abbrev partitions : Nat := 16
/-- Rounds of a fixed-point iteration over at most 256 locations and 1,024 edges (01 R30). -/
abbrev frontierRounds : Nat := 258

/-- Device reset values of the context defaults (21 R374). -/
abbrev dround : Word := 0
abbrev db8fmt : Word := 0x0C
abbrev dcheck : Word := 0
abbrev dwlimit : Word := 16777216
abbrev dseed : Word := 0

/-- Free value (log 6): whether the image of these bytes carries a valid signature (21 R380). -/
opaque imageVerifies : Nat → Bool
/-- Free value (log 6): the version a verified image names; the manual gives the header no offsets (21 R380). -/
opaque imageVersion : Nat → Word
/-- Free value (log 6): the digest of a firmware image (21 R380, R381). -/
opaque imageDigest : Nat → BitVec 256
/-- Free value (log 6): word i of an attestation report, which the manual gives no layout; by what it is made of: its number, the
nonce, the version, the firmware's digest, the fenced quads (21 R381). -/
opaque attestWord : List Word → Nat → Word
/-- Free value (log 6): the scale-up link that carries the traffic to a package while all links work, of which the manual says only
that the destination chooses it (21 R379). -/
opaque linkOf : Nat → Nat
/-- Free value (log 6): the quads whose boot self-test fails, by die (10 R228). -/
opaque selfTestFails : Nat → Word

/-- Free value (log 6): the payload of a clip notice, of which the manual says only that it is the clipped box: its origin
and its extents (07 R168). -/
opaque clipPayload : List Int → List Nat → Vec

/-- Free value (log 6): the source field of the n-th message that a router combines (07 R155). -/
opaque combinedSrc : Nat → Word

/-- Free value (log 6): the element of its group that a kept weight stands for, where its 4-bit index is not below M; by
index and M (15 R317). -/
opaque sparseIndex : Nat → Nat → Nat

/-- Free value (log 6): the PRP data pointer of a command, of which the manual says only that it is one; by request and first
block (06 R145). -/
opaque dataPointer : Nat → Nat → BitVec 128

/-- Free value (log 6): the fallout-buffer entry of a levelling shipment, of which the manual gives no layout; by shipment (06 R148). -/
opaque shipEntry : Nat → BitVec 1536

/-- Free value (log 6): what a delta-buffer entry holds where the sum of its changes is no signed 32-bit number; by the sum (08
R170). -/
opaque deltaSum : Int → BitVec 32

end Sys2Proof.Config
end

