-- ==== Sys2Proof/Syntax.lean ====
section
/-! DEFINITION. The instructions: one constructor per row of the opcode table (11 R240, R235), encoded instructions
first, then the events, which carry the coordinates and the outside inputs of the step they name. -/

namespace Sys2Proof

/-- Stall count, negation and guard of a 32-bit word (11 R234). -/
structure Ctl where
  w : BitVec 2
  n : Bool
  g : PSpec
deriving DecidableEq, Repr

/-- Memory ordering of an access or fence (11 R238). -/
inductive Ord where
  | plain | acq | rel | acqrel
deriving DecidableEq, Repr

/-- A scope (00 R5). -/
inductive Scope where
  | core | quad | die | pkg | pod | sys
deriving DecidableEq, Repr

/-- Operation of an atomic (13 R289; 11 R240). -/
inductive Aop where
  | add | and | or | xor | min | max | minu | maxu | swap | cas | fadd | fmax
deriving DecidableEq, Repr

/-- Condition of pcmp (12 R257). -/
inductive PCond where
  | eq | ne | lt | ge | ltu | geu | tst
deriving DecidableEq, Repr

/-- Condition of vcmpf (11 R240). -/
inductive FCond where
  | eq | ne | lt | le | gt | ge | uno | ord
deriving DecidableEq, Repr

/-- Condition of vcmpi (11 R240). -/
inductive ICond where
  | eq | ne | lt | le | gt | ge | ltu | geu
deriving DecidableEq, Repr

/-- Element size of a gather or scatter (11 R240). -/
inductive XSize where
  | w32 | w16 | w8
deriving DecidableEq, Repr

/-- Kind of a memory access (10 R213). -/
inductive Access where
  | read | write | fetch | atomic
deriving DecidableEq, Repr

/-- Who reaches the device control space: the host, or the supervisor core of a die (21 R374). -/
inductive Agent where
  | host | sup (pd : Nat)
deriving DecidableEq, Repr

/-- A slot by context, relative die, relative core and slot number (01 R12). Core 256 is the supervisor core, whose
context is 0 and whose die number is physical. -/
structure SlotRef where
  ctx : Nat
  die : Nat
  core : Nat
  slot : Nat
deriving DecidableEq, Repr

/-- A core by context, relative die and relative core. -/
structure CoreRef where
  ctx : Nat
  die : Nat
  core : Nat
deriving DecidableEq, Repr

/-- A quad by context, relative die and relative quad. -/
structure QuadRef where
  ctx : Nat
  die : Nat
  quad : Nat
deriving DecidableEq, Repr

/-- The instructions and the events of the opcode table. -/
inductive Instr where
  /-- R252. Writes the 64-bit wrapped sum of two scalar registers to rd. -/
  | add (c : Ctl) (d a b : Spec)
  /-- R252. Writes the 64-bit wrapped difference of two scalar registers to rd. -/
  | sub (c : Ctl) (d a b : Spec)
  /-- R252. Writes the bitwise AND of two scalar registers to rd. -/
  | and (c : Ctl) (d a b : Spec)
  /-- R252. Writes the bitwise OR of two scalar registers to rd. -/
  | or (c : Ctl) (d a b : Spec)
  /-- R252. Writes the bitwise XOR of two scalar registers to rd. -/
  | xor (c : Ctl) (d a b : Spec)
  /-- R252. Writes a AND NOT b to rd. -/
  | andn (c : Ctl) (d a b : Spec)
  /-- R252. Shifts a left by b[5:0] with zeros in. -/
  | shl (c : Ctl) (d a b : Spec)
  /-- R252. Shifts a right by b[5:0] with zeros in. -/
  | shr (c : Ctl) (d a b : Spec)
  /-- R252. Shifts a right by b[5:0] with copies of bit 63 in. -/
  | sra (c : Ctl) (d a b : Spec)
  /-- R252. Writes the low 64 bits of the product, latency 2. -/
  | mul (c : Ctl) (d a b : Spec)
  /-- R252. Writes the high 64 bits of the signed 128-bit product. -/
  | mulh (c : Ctl) (d a b : Spec)
  /-- R252. Writes the high 64 bits of the unsigned 128-bit product. -/
  | mulhu (c : Ctl) (d a b : Spec)
  /-- R252. Writes the lesser of a and b as i64. -/
  | min (c : Ctl) (d a b : Spec)
  /-- R252. Writes the greater of a and b as i64. -/
  | max (c : Ctl) (d a b : Spec)
  /-- R252. Writes the lesser of a and b as n64. -/
  | minu (c : Ctl) (d a b : Spec)
  /-- R252. Writes the greater of a and b as n64. -/
  | maxu (c : Ctl) (d a b : Spec)
  /-- R253. Signed 64-bit division truncating toward zero, with variable latency. -/
  | div (c : Ctl) (d a b : Spec)
  /-- R253. Unsigned 64-bit division, with variable latency. -/
  | divu (c : Ctl) (d a b : Spec)
  /-- R253. Signed remainder with the sign of the dividend. -/
  | rem (c : Ctl) (d a b : Spec)
  /-- R253. Unsigned 64-bit remainder. -/
  | remu (c : Ctl) (d a b : Spec)
  /-- R254. Counts leading zero bits of a. -/
  | clz (c : Ctl) (d a : Spec)
  /-- R254. Counts trailing zero bits of a. -/
  | ctz (c : Ctl) (d a : Spec)
  /-- R254. Counts one bits of a. -/
  | popc (c : Ctl) (d a : Spec)
  /-- R254. Reverses the bit order of a. -/
  | brev (c : Ctl) (d a : Spec)
  /-- R254. Sign-extends the low 8 bits of a. -/
  | sext8 (c : Ctl) (d a : Spec)
  /-- R254. Sign-extends the low 16 bits of a. -/
  | sext16 (c : Ctl) (d a : Spec)
  /-- R254. Sign-extends the low 32 bits of a. -/
  | sext32 (c : Ctl) (d a : Spec)
  /-- R254. Zero-extends the low 32 bits of a. -/
  | zext32 (c : Ctl) (d a : Spec)
  /-- R254. Reverses the byte order of a. -/
  | bswap (c : Ctl) (d a : Spec)
  /-- R254. Rotates a left by b[5:0]. -/
  | rol (c : Ctl) (d a b : Spec)
  /-- R254. Adds and sign-extends the low 32 bits of the sum. -/
  | addw (c : Ctl) (d a b : Spec)
  /-- R255. Adds a sign-extended 9-bit immediate. -/
  | addi (c : Ctl) (d a : Spec) (i : BitVec 9)
  /-- R255. ANDs with a sign-extended 9-bit immediate. -/
  | andi (c : Ctl) (d a : Spec) (i : BitVec 9)
  /-- R255. ORs with a sign-extended 9-bit immediate. -/
  | ori (c : Ctl) (d a : Spec) (i : BitVec 9)
  /-- R255. XORs with a sign-extended 9-bit immediate. -/
  | xori (c : Ctl) (d a : Spec) (i : BitVec 9)
  /-- R255. Shifts left by an immediate amount 0 to 63. -/
  | shli (c : Ctl) (d a : Spec) (s : BitVec 6)
  /-- R255. Shifts right logically by an immediate amount. -/
  | shri (c : Ctl) (d a : Spec) (s : BitVec 6)
  /-- R255. Shifts right arithmetically by an immediate amount. -/
  | srai (c : Ctl) (d a : Spec) (s : BitVec 6)
  /-- R256. Loads a sign-extended 14-bit constant. -/
  | li (c : Ctl) (d : Spec) (i : BitVec 14)
  /-- R257. Shifts rd left by 14 and ORs in a 14-bit constant. -/
  | lis (c : Ctl) (d : Spec) (i : BitVec 14)
  /-- R258. Forms pc plus twice a signed 14-bit immediate. -/
  | adpc (c : Ctl) (d : Spec) (i : BitVec 14)
  /-- R259. Compares two scalars and writes the condition and its complement to all bits of two predicates. -/
  | pcmp (c : Ctl) (p e : PSpec) (a b : Spec) (f : PCond)
  /-- R260. ANDs two predicates into pd in enabled lanes. -/
  | pand (c : Ctl) (p q r : PSpec)
  /-- R260. ORs two predicates into pd in enabled lanes. -/
  | por (c : Ctl) (p q r : PSpec)
  /-- R260. XORs two predicates into pd in enabled lanes. -/
  | pxor (c : Ctl) (p q r : PSpec)
  /-- R260. Writes pa AND NOT pb into pd in enabled lanes. -/
  | pandn (c : Ctl) (p q r : PSpec)
  /-- R260. Writes NOT pa into pd in enabled lanes. -/
  | pnot (c : Ctl) (p q : PSpec)
  /-- R260. Writes bits of a scalar into pd in enabled lanes. -/
  | pset (c : Ctl) (p : PSpec) (a : Spec)
  /-- R261. Writes a predicate zero-extended into scalar ra. -/
  | pget (c : Ctl) (q : PSpec) (a : Spec)
  /-- R261. Counts the set bits of pa AND pb into scalar ra. -/
  | pcnt (c : Ctl) (q r : PSpec) (a : Spec)
  /-- R261. Writes the least set bit index of pa AND pb, or 32, into scalar ra. -/
  | pfirst (c : Ctl) (q r : PSpec) (a : Spec)
  /-- R312. Compares FP32 lanes and writes the condition and complement into two predicates. -/
  | vcmpf (c : Ctl) (p e : PSpec) (a b : Spec) (f : FCond)
  /-- R312. Compares integer lanes and writes the condition and complement into two predicates. -/
  | vcmpi (c : Ctl) (p e : PSpec) (a b : Spec) (f : ICond)
  /-- R263. Branches relative to the pc by a signed 19-bit halfword offset. -/
  | br (c : Ctl) (o : BitVec 19)
  /-- R264. Spills as needed, raises the call depth, writes the callee's w15 and jumps relative. -/
  | call (c : Ctl) (o : BitVec 19)
  /-- R265. Jumps to the address in a register. -/
  | jr (c : Ctl) (a : Spec)
  /-- R265. Calls the address in a register, read before the window moves. -/
  | callr (c : Ctl) (a : Spec)
  /-- R266. Returns to the callee's w15, lowering the depth and filling as needed. -/
  | ret (c : Ctl)
  /-- R267. Ends the task with a pkg release, retires its count and frees the slot. -/
  | endTask (c : Ctl)
  /-- R268. Raises fault.brk and freezes the slot for the supervisor. -/
  | brk (c : Ctl)
  /-- R270. Sleeps until the slot's wake flag is set, as a bounded wait, then clears it. -/
  | park (c : Ctl) (a : Spec)
  /-- R271. Holds later issue until earlier aperture accesses and fixed-latency writes have landed. -/
  | rsync (c : Ctl)
  /-- R272. Repeats the following body n times, advancing vector specifiers by the stride each pass. -/
  | rep (c : Ctl) (a : Spec) (l s : BitVec 4)
  /-- R277. Loads 1 to 8 bytes zero-extended, optionally acquiring and post-incrementing. -/
  | ld (c : Ctl) (d a : Spec) (o : Ord) (s : Scope) (z : BitVec 2) (t : Bool)
  /-- R277. Stores 1 to 8 bytes, optionally releasing and post-incrementing. -/
  | st (c : Ctl) (d a : Spec) (o : Ord) (s : Scope) (z : BitVec 2) (t : Bool)
  /-- R278. Plain load at a register plus a scaled 7-bit offset. -/
  | ldo (c : Ctl) (d a : Spec) (z : BitVec 2) (f : BitVec 7)
  /-- R278. Plain store at a register plus a scaled 7-bit offset. -/
  | sto (c : Ctl) (d a : Spec) (z : BitVec 2) (f : BitVec 7)
  /-- R279. Loads enabled lanes of a vector register from 128, 64, 32 or a broadcast 4 bytes. -/
  | vld (c : Ctl) (d a : Spec) (o : Ord) (s : Scope) (z : BitVec 2) (t : Bool)
  /-- R279. Stores enabled lanes of a vector register. -/
  | vst (c : Ctl) (d a : Spec) (o : Ord) (s : Scope) (z : BitVec 2) (t : Bool)
  /-- R280. Gathers 32-, 16- or 8-bit elements at indexed addresses into enabled lanes. -/
  | vldx (c : Ctl) (d a b : Spec) (e : XSize)
  /-- R280. Scatters 32-, 16- or 8-bit elements of enabled lanes to indexed addresses. -/
  | vstx (c : Ctl) (d a b : Spec) (e : XSize)
  /-- R281. Waits at the home until one or two words are full, reads them and optionally empties them. -/
  | ldf (c : Ctl) (d a : Spec) (o : Ord) (s : Scope) (z : BitVec 1) (t : Bool)
  /-- R282. Sets a word's full-empty bit to full. -/
  | fset (c : Ctl) (a : Spec)
  /-- R282. Sets a word's full-empty bit to empty. -/
  | fclr (c : Ctl) (a : Spec)
  /-- R282. Stores a word and sets its bit full in one step at the home. -/
  | stf (c : Ctl) (a b : Spec)
  /-- R282. Returns 1 if a word is full, else 0. -/
  | fprobe (c : Ctl) (d a : Spec)
  /-- R283. Performs an atomic read-modify-write on a 32-bit word at its home and returns the old value. -/
  | amo (c : Ctl) (d a : Spec) (f : Aop) (o : Ord) (s : Scope)
  /-- R284. Memory fence ordering earlier and later accesses at a scope. -/
  | fence (c : Ctl) (o : Ord) (s : Scope)
  /-- R284. Engine fence ordering accesses against engine-releasing instructions and seen engine writes. -/
  | fenceE (c : Ctl) (o : Ord) (s : Scope)
  /-- R284. Instruction-stream fence making later fetches see earlier stores. -/
  | fenceI (c : Ctl) (s : Scope)
  /-- R284. Translation fence performing page-table stores before later walks. -/
  | fenceT (c : Ctl) (o : Ord) (s : Scope)
  /-- R298. Adds integer lanes modulo 2^32. -/
  | vaddI32 (c : Ctl) (d a b : Spec)
  /-- R298. Subtracts integer lanes modulo 2^32. -/
  | vsubI32 (c : Ctl) (d a b : Spec)
  /-- R298. Writes the low 32 bits of lane products. -/
  | vmulI32 (c : Ctl) (d a b : Spec)
  /-- R298. Writes the high 32 bits of signed lane products. -/
  | vmulhI32 (c : Ctl) (d a b : Spec)
  /-- R298. ANDs lanes bitwise. -/
  | vand (c : Ctl) (d a b : Spec)
  /-- R298. ORs lanes bitwise. -/
  | vor (c : Ctl) (d a b : Spec)
  /-- R298. XORs lanes bitwise. -/
  | vxor (c : Ctl) (d a b : Spec)
  /-- R298. Writes a AND NOT b in each lane. -/
  | vandn (c : Ctl) (d a b : Spec)
  /-- R298. Shifts lanes left by b[4:0]. -/
  | vshl (c : Ctl) (d a b : Spec)
  /-- R298. Shifts lanes right logically by b[4:0]. -/
  | vshr (c : Ctl) (d a b : Spec)
  /-- R298. Shifts lanes right arithmetically by b[4:0]. -/
  | vsra (c : Ctl) (d a b : Spec)
  /-- R298. Lane minimum as i32. -/
  | vminI32 (c : Ctl) (d a b : Spec)
  /-- R298. Lane maximum as i32. -/
  | vmaxI32 (c : Ctl) (d a b : Spec)
  /-- R298. Lane minimum as n32. -/
  | vminN32 (c : Ctl) (d a b : Spec)
  /-- R298. Lane maximum as n32. -/
  | vmaxN32 (c : Ctl) (d a b : Spec)
  /-- R298. Lane absolute value as i32. -/
  | vabsI32 (c : Ctl) (d a : Spec)
  /-- R299. Adds FP32 lanes rounded by c.round. -/
  | vaddF32 (c : Ctl) (d a b : Spec)
  /-- R299. Subtracts FP32 lanes rounded by c.round. -/
  | vsubF32 (c : Ctl) (d a b : Spec)
  /-- R299. Multiplies FP32 lanes rounded by c.round. -/
  | vmulF32 (c : Ctl) (d a b : Spec)
  /-- R300. FP32 lane minimum with −0 below +0 and NaN propagating canonically. -/
  | vminF32 (c : Ctl) (d a b : Spec)
  /-- R300. FP32 lane maximum with −0 below +0 and NaN propagating canonically. -/
  | vmaxF32 (c : Ctl) (d a b : Spec)
  /-- R303. Clears the sign bit of each lane. -/
  | vabsF32 (c : Ctl) (d a : Spec)
  /-- R303. Flips the sign bit of each lane. -/
  | vnegF32 (c : Ctl) (d a : Spec)
  /-- R301. Correctly rounded FP32 square root per lane. -/
  | vsqrtF32 (c : Ctl) (d a : Spec)
  /-- R301. Correctly rounded FP32 reciprocal per lane. -/
  | vrcpF32 (c : Ctl) (d a : Spec)
  /-- R301. Correctly rounded FP32 reciprocal square root per lane. -/
  | vrsqF32 (c : Ctl) (d a : Spec)
  /-- R301. Correctly rounded 2^a per lane. -/
  | vexp2F32 (c : Ctl) (d a : Spec)
  /-- R301. Correctly rounded log2 per lane. -/
  | vlog2F32 (c : Ctl) (d a : Spec)
  /-- R302. Rounds each lane toward −∞ to an integral FP32 value. -/
  | vfloorF32 (c : Ctl) (d a : Spec)
  /-- R302. Rounds each lane toward +∞ to an integral FP32 value. -/
  | vceilF32 (c : Ctl) (d a : Spec)
  /-- R302. Rounds each lane to an integral FP32 value by c.round. -/
  | vrintF32 (c : Ctl) (d a : Spec)
  /-- R303. Combines the magnitude of a with the sign of b per lane. -/
  | vcopysignF32 (c : Ctl) (d a b : Spec)
  /-- R304. Fused a×b+c per FP32 lane with one rounding. -/
  | vfmaF32 (c : Ctl) (d a b : Spec)
  /-- R304. Fused a×b−c per FP32 lane with one rounding. -/
  | vfmsF32 (c : Ctl) (d a b : Spec)
  /-- R304. Fused c−a×b per FP32 lane with one rounding. -/
  | vfnmaF32 (c : Ctl) (d a b : Spec)
  /-- R305. Fused multiply-add on each FP16 half. -/
  | vfmaF16x2 (c : Ctl) (d a b : Spec)
  /-- R305. Fused multiply-add on each BF16 half. -/
  | vfmaBf16x2 (c : Ctl) (d a b : Spec)
  /-- R306. Adds the two FP16 half products to an FP32 accumulator with one rounding. -/
  | vdot2F16 (c : Ctl) (d a b : Spec)
  /-- R306. Adds the two BF16 half products to an FP32 accumulator with one rounding. -/
  | vdot2Bf16 (c : Ctl) (d a b : Spec)
  /-- R306. Adds four signed byte products to a wrapping 32-bit accumulator. -/
  | vdot4I8 (c : Ctl) (d a b : Spec)
  /-- R306. Adds four unsigned byte products to a wrapping 32-bit accumulator. -/
  | vdot4N8 (c : Ctl) (d a b : Spec)
  /-- R307. Adds FP16 halves independently. -/
  | vaddF16x2 (c : Ctl) (d a b : Spec)
  /-- R307. Subtracts FP16 halves independently. -/
  | vsubF16x2 (c : Ctl) (d a b : Spec)
  /-- R307. Multiplies FP16 halves independently. -/
  | vmulF16x2 (c : Ctl) (d a b : Spec)
  /-- R307. Maximum of FP16 halves. -/
  | vmaxF16x2 (c : Ctl) (d a b : Spec)
  /-- R307. Minimum of FP16 halves. -/
  | vminF16x2 (c : Ctl) (d a b : Spec)
  /-- R307. Adds BF16 halves independently. -/
  | vaddBf16x2 (c : Ctl) (d a b : Spec)
  /-- R307. Subtracts BF16 halves independently. -/
  | vsubBf16x2 (c : Ctl) (d a b : Spec)
  /-- R307. Multiplies BF16 halves independently. -/
  | vmulBf16x2 (c : Ctl) (d a b : Spec)
  /-- R307. Maximum of BF16 halves. -/
  | vmaxBf16x2 (c : Ctl) (d a b : Spec)
  /-- R307. Minimum of BF16 halves. -/
  | vminBf16x2 (c : Ctl) (d a b : Spec)
  /-- R308. Converts i32 lanes to FP32. -/
  | vcvtF32I32 (c : Ctl) (d a : Spec)
  /-- R308. Converts FP32 lanes to saturated i32. -/
  | vcvtI32F32 (c : Ctl) (d a : Spec)
  /-- R308. Converts n32 lanes to FP32. -/
  | vcvtF32N32 (c : Ctl) (d a : Spec)
  /-- R308. Converts FP32 lanes to saturated n32. -/
  | vcvtN32F32 (c : Ctl) (d a : Spec)
  /-- R308. Packs two FP32 lanes into FP16 halves. -/
  | vpackF16x2 (c : Ctl) (d a b : Spec)
  /-- R308. Packs two FP32 lanes into BF16 halves. -/
  | vpackBf16x2 (c : Ctl) (d a b : Spec)
  /-- R308. Decodes FP16 half k to FP32. -/
  | vcvtF32F16 (c : Ctl) (d a : Spec) (k : BitVec 5)
  /-- R308. Decodes BF16 half k to FP32. -/
  | vcvtF32Bf16 (c : Ctl) (d a : Spec) (k : BitVec 5)
  /-- R308. Converts FP32 lanes to binary8 into byte k, keeping other bytes. -/
  | vcvtB8F32 (c : Ctl) (d a : Spec) (k : BitVec 5)
  /-- R308. Decodes binary8 byte k to FP32. -/
  | vcvtF32B8 (c : Ctl) (d a : Spec) (k : BitVec 5)
  /-- R308. Converts FP32 lanes to E5M3 into byte k, keeping other bytes. -/
  | vcvtE5m3F32 (c : Ctl) (d a : Spec) (k : BitVec 5)
  /-- R308. Decodes E5M3 byte k to FP32. -/
  | vcvtF32E5m3 (c : Ctl) (d a : Spec) (k : BitVec 5)
  /-- R309. Copies enabled lanes of vb to vd. -/
  | vmov (c : Ctl) (d b : Spec)
  /-- R309. Broadcasts the low 32 bits of a scalar to enabled lanes. -/
  | vbcast (c : Ctl) (d a : Spec)
  /-- R309. Inserts a scalar into lane k. -/
  | vins (c : Ctl) (d a b : Spec)
  /-- R309. Extracts lane k into a scalar. -/
  | vext (c : Ctl) (d a b : Spec)
  /-- R309. Permutes lanes of va by indices in vb. -/
  | vshuf (c : Ctl) (d a b : Spec)
  /-- R309. Rotates lanes of va by a scalar amount. -/
  | vrot (c : Ctl) (d a b : Spec)
  /-- R309. Interleaves the low 16 lanes of va and vb. -/
  | vzlo (c : Ctl) (d a b : Spec)
  /-- R309. Interleaves the high 16 lanes of va and vb. -/
  | vzhi (c : Ctl) (d a b : Spec)
  /-- R309. Writes each lane's index into it. -/
  | viota (c : Ctl) (d : Spec)
  /-- R310. Writes the wrapped sum of enabled integer lanes to a scalar. -/
  | vsumI32 (c : Ctl) (d a : Spec)
  /-- R80. Writes the fixed pairwise-tree FP32 sum of enabled lanes to a scalar. -/
  | vsumF32 (c : Ctl) (d a : Spec)
  /-- R310. Writes the greatest enabled FP32 lane to a scalar. -/
  | vmaxrF32 (c : Ctl) (d a : Spec)
  /-- R310. Writes the least enabled FP32 lane to a scalar. -/
  | vminrF32 (c : Ctl) (d a : Spec)
  /-- R310. Writes the greatest enabled i32 lane to a scalar. -/
  | vmaxrI32 (c : Ctl) (d a : Spec)
  /-- R310. Writes the least enabled i32 lane to a scalar. -/
  | vminrI32 (c : Ctl) (d a : Spec)
  /-- R311. Writes the lowest index of the greatest enabled FP32 lane. -/
  | vargmaxF32 (c : Ctl) (d a : Spec)
  /-- R310. Writes the OR of enabled lanes to a scalar. -/
  | vorr (c : Ctl) (d a : Spec)
  /-- R316. Writes one matrix control register of the slot's shadow set. -/
  | mset (c : Ctl) (a : Spec) (i : BitVec 9)
  /-- R317. Queues a load of the shadow weight bank from waddr. -/
  | wld (c : Ctl) (a : Spec)
  /-- R317. Queues an exchange of the active and shadow weight banks. -/
  | wswap (c : Ctl) (a : Spec)
  /-- R318. Queues a stream of M rows of X through the array into an accumulator tile. -/
  | xstr (c : Ctl) (a : Spec)
  /-- R319. Waits for the slot's earlier array commands to complete, reports skips and failures, and acquires at die. -/
  | mwait (c : Ctl) (a : Spec)
  /-- R320. Queues a configuration of an accumulator tile's shape, zeroing it unless kept. -/
  | tcfg (c : Ctl) (d a b : Spec)
  /-- R320. Queues the zeroing of an accumulator tile. -/
  | tzero (c : Ctl) (a b : Spec)
  /-- R320. Queues conversion and write of a tile to a vault. -/
  | tout (c : Ctl) (a : Spec)
  /-- R321. Sends an array command with a capability to any quad of the partition and waits for its reply. -/
  | msend (c : Ctl) (d a b : Spec)
  /-- R322. Starts the array's power ramp or token request ahead of streams. -/
  | mburst (c : Ctl) (a : Spec)
  /-- R323. Returns the array's status word. -/
  | mstat (c : Ctl) (d : Spec)
  /-- R285. Releases, adds the count along an edge and places one message in the send buffer. -/
  | send (c : Ctl) (d a b : Spec)
  /-- R286. Sends one message to a multicast group, adding the group's reach in counts. -/
  | mcast (c : Ctl) (d a b : Spec)
  /-- R287. Takes the oldest ready mailbox entry, acquires and retires its count. -/
  | recv (c : Ctl) (d a b : Spec)
  /-- R287. Returns the address of the oldest ready entry and the ready count without freeing it. -/
  | mprobe (c : Ctl) (d a b : Spec)
  /-- R288. Sets a core mailbox's mode and handler entry. -/
  | hdlr (c : Ctl) (a b : Spec)
  /-- R289. Places a hold count at a reachable location and time. -/
  | fhold (c : Ctl) (a b : Spec)
  /-- R289. Removes a hold count and waits for the root to accept the batch. -/
  | fdrop (c : Ctl) (a b : Spec)
  /-- R290. Waits until the die frontier copy at a location passes a time, then acquires at pkg. -/
  | fwait (c : Ctl) (d a b : Spec)
  /-- R291. Reads the die copy of a location's frontier into a register pair. -/
  | fread (c : Ctl) (d a : Spec)
  /-- R292. Arrives at a barrier with a release and waits for its phase to complete. -/
  | bar (c : Ctl) (s : Scope) (a b : Spec)
  /-- R292. Arrives at a barrier without waiting. -/
  | barn (c : Ctl) (s : Scope) (a b : Spec)
  /-- R292. Waits for the phase of the slot's earlier arrival to complete. -/
  | barw (c : Ctl) (s : Scope) (a b : Spec)
  /-- R294. Acquires the next sequence number and slot of a stage ring. -/
  | racq (c : Ctl) (d a b : Spec)
  /-- R294. Publishes an acquired ring entry with a release, optionally closing the ring. -/
  | rpub (c : Ctl) (cl : Bool) (a b : Spec)
  /-- R294. Takes the next published ring entry in sequence order with an acquire. -/
  | rtake (c : Ctl) (d a b : Spec)
  /-- R294. Marks a taken entry done and commits done entries in order. -/
  | rrel (c : Ctl) (a b : Spec)
  /-- R294. Returns ring counters or the closed flag. -/
  | rstat (c : Ctl) (d a : Spec) (k : BitVec 5)
  /-- R329. Validates a job card, adds its counts, flushes and appends it to its job queue. -/
  | jpost (c : Ctl) (a b : Spec)
  /-- R330. Creates a sample group record and G−1 sibling tasks with their counts. -/
  | gfork (c : Ctl) (d a b : Spec)
  /-- R331. Releases at die and posts the sibling's reward. -/
  | grwd (c : Ctl) (a : Spec)
  /-- R331. Waits until the group record closes, returns status and advantage and acquires. -/
  | gjoin (c : Ctl) (d a : Spec)
  /-- R331. Cancels a sibling of the group, ending it and retiring its count. -/
  | gcancel (c : Ctl) (a : Spec)
  /-- R331. Returns the group status or one of its masks. -/
  | gstat (c : Ctl) (d a : Spec)
  /-- R332. Adds to the stage counter of the oldest incomplete schedule on a copy channel. -/
  | cadv (c : Ctl) (a b : Spec)
  /-- R332. Returns a channel's stage counter, running entry and watermark. -/
  | cwm (c : Ctl) (d a : Spec)
  /-- R332. Waits until a schedule entry of a channel completes. -/
  | cwait (c : Ctl) (a b : Spec)
  /-- R332. Returns a channel's schedule progress status. -/
  | cstat (c : Ctl) (d a : Spec)
  /-- R333. Queues a storage read or a page prefetch with a completion word. -/
  | sread (c : Ctl) (a b : Spec)
  /-- R333. Queues a storage write from a buffer with a completion word. -/
  | swrite (c : Ctl) (a b : Spec)
  /-- R333. Queues a drive flush with a completion word. -/
  | sflush (c : Ctl) (a b : Spec)
  /-- R334. Returns a drive's service state and queued request count. -/
  | sstat (c : Ctl) (d a : Spec)
  /-- R325. Defines a crossing-unit variable from a 32-byte entry and schedules its crossing. -/
  | qdef (c : Ctl) (a b : Spec)
  /-- R326. Changes a variable's slope at the task time and reschedules it. -/
  | qslope (c : Ctl) (a b : Spec)
  /-- R327. Reads q, x and tlast of any variable of the partition. -/
  | qread (c : Ctl) (d a : Spec)
  /-- R326. Changes a variable's quantum, clears storm and NaN flags, and reschedules it. -/
  | qquant (c : Ctl) (a b : Spec)
  /-- R328. Places a hold for a consistent sample of SNAP variables at a tick. -/
  | qsnap (c : Ctl) (d a b : Spec)
  /-- R327. Reads a local variable's flags, counter and tnext. -/
  | qstat (c : Ctl) (d a : Spec)
  /-- R335. Reads a control register into a scalar. -/
  | mfc (c : Ctl) (d : Spec) (i : BitVec 9)
  /-- R335. Writes a scalar to a RW control register. -/
  | mtc (c : Ctl) (d : Spec) (i : BitVec 9)
  /-- R336. Starts invalidation of translations over a range for an ASID. -/
  | tlbinv (c : Ctl) (a b : Spec)
  /-- R336. Waits until the slot's earlier tlbinv are acknowledged. -/
  | tlbsync (c : Ctl) (a : Spec)
  /-- R337. Sets the watchdog budget c.wdog. -/
  | wdog (c : Ctl) (a : Spec)
  /-- R337. Stops halt groups containing this core, with the issuing slot. -/
  | dstop (c : Ctl) (a : Spec)
  /-- R235. 16-bit form of vadd.f32 with va = vd. -/
  | vaddF32_16 (b d : Spec)
  /-- R235. 16-bit form of vsub.f32 with va = vd. -/
  | vsubF32_16 (b d : Spec)
  /-- R235. 16-bit form of vmul.f32 with va = vd. -/
  | vmulF32_16 (b d : Spec)
  /-- R235. 16-bit form of vmax.f32 with va = vd. -/
  | vmaxF32_16 (b d : Spec)
  /-- R235. 16-bit form of vmin.f32 with va = vd. -/
  | vminF32_16 (b d : Spec)
  /-- R235. 16-bit form of vadd.i32 with va = vd. -/
  | vaddI32_16 (b d : Spec)
  /-- R235. 16-bit form of vsub.i32 with va = vd. -/
  | vsubI32_16 (b d : Spec)
  /-- R235. 16-bit form of vand with va = vd. -/
  | vand16 (b d : Spec)
  /-- R235. 16-bit form of vor with va = vd. -/
  | vor16 (b d : Spec)
  /-- R235. 16-bit form of vxor with va = vd. -/
  | vxor16 (b d : Spec)
  /-- R235. 16-bit form of vmov copying vb to vd. -/
  | vmov16 (b d : Spec)
  /-- R235. 16-bit form of vadd.f16x2 with va = vd. -/
  | vaddF16x2_16 (b d : Spec)
  /-- R235. 16-bit form of vmul.f16x2 with va = vd. -/
  | vmulF16x2_16 (b d : Spec)
  /-- R235. 16-bit form of vadd.bf16x2 with va = vd. -/
  | vaddBf16x2_16 (b d : Spec)
  /-- R235. 16-bit form of vmul.bf16x2 with va = vd. -/
  | vmulBf16x2_16 (b d : Spec)
  /-- R235. 16-bit form of vshl with va = vd. -/
  | vshl16 (b d : Spec)
  /-- R18. A free slot takes the first runnable ready-ring entry and the binder initialises the task. -/
  | bindTask (r : SlotRef)
  /-- R19. Zeroing of the slot's task-local partition proceeds line by line and completes 64 arith cycles after bind. -/
  | taskLocalZeroing (r : SlotRef)
  /-- R22. An eligible message in a handler or settle mailbox starts a handler task in a free slot. -/
  | handlerBind (r : SlotRef)
  /-- R56. A pipeline core with no bound stage task binds one at its stage's entry. -/
  | stageBind (r : SlotRef)
  /-- R44. A dispatcher chooses an eligible queue and deals one chunk of the head card to a quad ready ring. -/
  | dealChunk (pd : Nat)
  /-- R50. A task on a quad's requeue list enters the ring head as an entry frees. -/
  | requeueListEntry (q : QuadRef)
  /-- R34. Once the root accepts their counts, the new siblings enter the head of the quad ready ring. -/
  | gforkSiblingsEnter (q : QuadRef)
  /-- R52. Every 4,096 arith cycles a quad compares depths and may ship unbound records to a neighbour. -/
  | neighbourLevelling (cx d : Nat)
  /-- R54. A shipment of records arrives at the receiver, which places them at its tail or bounces them. -/
  | levellingShipment (cx i : Nat)
  /-- R54. The receiver's acknowledgement reaches the sender, which frees the reserved entries. -/
  | shipmentAcknowledge (cx i : Nat)
  /-- R54. A bounced shipment returns its records to the sender's reserved entries. -/
  | shipmentBounce (cx i : Nat)
  /-- R57. Every 1,024 arith cycles the stage governor may move one core between pipeline stages. -/
  | stageGovernor (q : QuadRef)
  /-- R172. A buffered message is injected into the mesh once its count's batch has been accepted. -/
  | messageInjection (r : SlotRef) (i : Nat)
  /-- R132. A message reaching its destination core is dead-lettered, spilled, placed in a mailbox or refused. -/
  | messageDelivery (cx i : Nat)
  /-- R135. A refused message is offered again 64 arith cycles after its refusal. -/
  | refusedMessageReoffer (r : SlotRef) (i : Nat)
  /-- R155. A router applies its group entry to an arriving multicast message: forward, combine or drop zeros. -/
  | routerGroupMessage (cx i : Nat)
  /-- R171. The oldest delta-buffer entry reaching 128 arith cycles forces a flush. -/
  | deltaFlushAge (k : CoreRef)
  /-- R174. A die tilth unit accepts a batch of count changes and forwards it to the root. -/
  | tilthBatchAccept (cx d : Nat)
  /-- R175. The root applies a batch whole and recomputes the frontiers. -/
  | rootBatchApply (cx : Nat)
  /-- R176. A changed F or F′ arrives at the die copies and wakes waiters, gates, settle mailboxes and parked slots. -/
  | frontierBroadcast (cx d : Nat)
  /-- R96. A variable-latency result lands in its register and clears the busy bit. -/
  | resultLanding (r : SlotRef) (i : Nat)
  /-- R231. The condition of a bounded wait comes to hold and the waiting instruction completes. -/
  | waitSatisfied (r : SlotRef)
  /-- R231. A bounded wait's limit runs out and the instruction raises fault.wait. -/
  | waitExpiry (r : SlotRef)
  /-- R102. c.wdog passes from 1 to 0 and the slot raises fault.watchdog. -/
  | watchdogExpiry (r : SlotRef)
  /-- R141. A packet that met a full supervisor queue is offered again every 256 arith cycles. -/
  | faultPacketReoffer (pd : Nat) (w : Option SlotRef)
  /-- R119. A translation walk completes with a fill, a fault, a transit wait or storage service. -/
  | pageWalk (r : SlotRef) (va : Word) (x : Access)
  /-- R146. A silt engine submits the next request, fault service first, to the drive's NVMe queue. -/
  | siltSubmission (pd e : Nat)
  /-- R145. A drive completion entry is matched by its command identifier. -/
  | nvmeCompletion (pd cid st : Nat)
  /-- R121. An invalidation is acknowledged once every access under the old translation has reached its home. -/
  | tlbinvAcknowledge (r : SlotRef)
  /-- R178. A schedule entry whose stage is reached and whose predecessors are done starts on its channel. -/
  | copyEntryRelease (cx d ch : Nat)
  /-- R179. Engine writes become visible and the channel's watermark advances over filled bytes. -/
  | copyLineWritten (cx d ch : Nat)
  /-- R179. A schedule entry completes and its channel moves to the next entry or schedule. -/
  | copyEntryComplete (cx d ch : Nat)
  /-- R315. The next array command starts once earlier ones complete, or is skipped on a state check. -/
  | arrayCommandStart (q : QuadRef)
  /-- R315. An array command completes with its writes visible, and the pending descriptor becomes active. -/
  | arrayCommandComplete (q : QuadRef)
  /-- R159. An msend command arrives at the target quad, which checks its capability and accepts or refuses it. -/
  | msendCommandArrival (cx i : Nat)
  /-- R321. The target's acceptance or refusal reply reaches the issuing slot. -/
  | msendReply (cx i : Nat)
  /-- R322. An array idle 64 cycles after its last stream ramps down. -/
  | arrayRampDown (q : QuadRef)
  /-- R382. A power token moves one hop round the die's quads per fabric cycle. -/
  | tokenPass (pd : Nat)
  /-- R324. When F(Lx) reaches h the crossing unit fires every variable scheduled at h in ascending v. -/
  | crossingFiring (k : CoreRef)
  /-- R328. When the frontier reaches a qsnap hold, every SNAP variable writes x(T) and the hold drops. -/
  | qsnapSample (cx i : Nat)
  /-- R163. A group record's remaining deadline reaches zero and unposted siblings are cancelled. -/
  | groupDeadline (cx d g : Nat)
  /-- R163. A running cancelled sibling ends at its next instruction boundary, retiring its count without release. -/
  | cancelledSiblingEnd (r : SlotRef)
  /-- R293. The last arrival of a barrier phase completes it, flipping the parity and releasing waiters. -/
  | barrierCompletion (cx : Nat) (s : Scope) (u id : Nat)
  /-- R181. A remote atomic arrives and is executed, replayed from the window or discarded by sequence number. -/
  | scaleupAtomicRequest (p sq : Nat) (f : Aop) (key : Nat) (a b : W32)
  /-- R181. The result of a remote atomic returns to the issuing package. -/
  | scaleupAtomicReply (p sq : Nat) (v : W32)
  /-- R181. A request without result after 16 µs is retransmitted, or after the eighth attempt fault.wait is raised. -/
  | scaleupRetransmit (p sq : Nat)
  /-- R379. A scale-up link fails and its traffic moves to the next working link. -/
  | linkFailure (l : Nat)
  /-- R221. A write to pswctl places, supersedes, queues or refuses a switch request. -/
  | gangSwitchRequest (p : Nat) (t v : Word)
  /-- R222. At time T the partition stops, engines stop, buffers flush and messages fall out. -/
  | gangSwitchStart (p : Nat)
  /-- R223. Once stores are performed at pod scope, the outgoing context image is saved. -/
  | gangSwitchSave (p : Nat)
  /-- R222. The incoming image is loaded or memories zeroed, tilth reloaded and slots resumed. -/
  | gangSwitchRestore (p : Nat)
  /-- R226. A halt group is stopped and its member slots stop at instruction boundaries. -/
  | haltStopCommand (pd g : Nat)
  /-- R227. A halt group is released, its members resume and spilled messages are delivered. -/
  | haltRelease (pd g : Nat)
  /-- R217. The supervisor resumes a frozen slot at pc. -/
  | dctlResume (pd k sl : Nat)
  /-- R217. The supervisor restarts a frozen slot at npc. -/
  | dctlRestart (pd k sl : Nat)
  /-- R217. The supervisor kills a frozen or halted task. -/
  | dctlKill (pd k sl : Nat)
  /-- R123. The supervisor requeues a task held by a storage fault. -/
  | swcmdRequeue (pd : Nat) (a : Word)
  /-- R123. The supervisor kills a task held by a storage fault. -/
  | swcmdKill (pd : Nat) (a : Word)
  /-- R11. A pcmd form creates partition p from pshape or reports a refusal. -/
  | partitionForm (p : Nat)
  /-- R11. A pcmd dissolve removes partition p unless a context is resident. -/
  | partitionDissolve (p : Nat)
  /-- R374. A cxcmd creates the selected context or refuses it. -/
  | contextCreate (cx : Nat)
  /-- R374. A cxcmd destroys the selected context unless it is resident. -/
  | contextDestroy (cx : Nat)
  /-- R153. A cxcmd checks and loads the context's location graph and places its start holds. -/
  | graphLoad (cx : Nat)
  /-- R154. A write to rtent installs or refuses a router group entry. -/
  | routerEntryWrite (pd k g : Nat) (v : W32)
  /-- R158. A write to capent1 installs or refuses a capability entry. -/
  | capabilityEntryWrite (pd q e : Nat) (lo hi : Word)
  /-- R139. The supervisor marks a taken ring entry discarded so commit can pass it. -/
  | ringEntryDiscard (cx : Nat) (a sq : Word)
  /-- R140. A write to dlhead consumes dead letters or is ignored if out of range. -/
  | deadLetterHeadWrite (pd k : Nat) (v : W32)
  /-- R375. A write to hqcfg configures and enables a host job queue or leaves it disabled. -/
  | hostQueueConfig (q : Nat) (v : Word)
  /-- R376. The host writes hqtail to announce new card entries. -/
  | hostQueueDoorbell (q : Nat) (v : W32)
  /-- R376. The device reads and validates the card at the host queue head and appends or refuses it. -/
  | hostQueueEntry (q : Nat)
  /-- R378. A host access through the HBM window is performed at sys scope. -/
  | hostHbmAccess (wr : Bool) (off : Nat) (v : Word)
  /-- R380. A bload write in recovery verifies and loads the staging image. -/
  | firmwareLoad
  /-- R381. An areq write starts building a signed attestation report. -/
  | attestationRequest
  /-- R381. The attestation report is complete and adone reads 1. -/
  | attestationReady
  /-- R382. A pwrcfg write sets power limit and matrix power mode, or is refused. -/
  | powerConfigWrite (v : Word)
  /-- R374. A write to a control-space or debug-window register with no behaviour of its own stores the value. -/
  | registerWrite (ag : Agent) (off : Nat) (v : Word)
  /-- R380. Reset returns state to reset values and the boot ROM verifies the firmware image. -/
  | deviceReset
  /-- R219. An uncorrectable error marks its granule poisoned at its home. -/
  | uncorrectableError (key : Nat)
  /-- R219. A corrected error increments the die's corrected-error count. -/
  | correctedError (pd q : Nat)
  /-- R228. Firmware switches out the partition, dissolves it and fences a failing quad. -/
  | quadFence (pd q : Nat)
  /-- R383. Junction above 95 °C or power above cap sets thr and withholds tokens. -/
  | thermalThrottle (tj pw : Nat)
  /-- R383. At 110 °C trip is set and every partition is switched to no context. -/
  | thermalTrip
  /-- R112. A store-buffer entry drains and the store reaches its line's home, taking its place in the line's coherence order. -/
  | storeReachesHome (q : QuadRef) (i : Nat)
  /-- R215. The supervisor restarts or abandons a copy channel that stopped on a report, through the device control space. -/
  | copyChannelRestart (cx d ch : Nat) (ab : Bool)
  /-- R377. The host writes chead in hqctl, freeing completion-ring entries so that completions waiting in the device are written in order. -/
  | hostCompletionHeadWrite (q : Nat) (v : W32)
  /-- R141. A write to sqhead consumes supervisor packets, and is ignored when it would break the index rules. -/
  | supervisorQueueHeadWrite (pd : Nat) (v : W32)
  /-- R147. The driver appends frames and writes a free-frame queue's tail, which re-arms its low-mark notice once the count rises above the mark. -/
  | freeFrameTailWrite (pd k : Nat) (v : W32)
  /-- R45. The driver assigns a job queue to a context with its tickets, which sets its stride and zeroes its pass. -/
  | jobQueueAssign (pd q : Nat) (v bs : Word)
  /-- R126. The zeroing engine finishes clearing an HBM or CXL frame assigned to a new context, and the assignment completes. -/
  | frameZeroingComplete (tier a len : Nat)
  /-- R322. The hold time H set by mburst runs out with no stream, so the array's ramp or its power token is released. -/
  | burstHoldExpiry (q : QuadRef)
  /-- R379. A scale-up flit fails its CRC and the link replays it, raising fault.wait cause 12 after 8 failed replays. -/
  | linkLevelReplay (l : Nat)
  /-- R383. Junction temperature falls back below 95 °C and power below cap, so thr clears and tokens are no longer withheld. -/
  | thermalThrottleEnd (tj pw : Nat)
deriving DecidableEq, Repr

end Sys2Proof
end

