-- ==== Sys2Proof/WellFormed.lean ====
section
/-! DEFINITION. Which instructions the encoding allows: the patterns of 11 R239 and R250 that raise fault.illegal cause
2 or 3 under any guard, and the ranges of the coordinates an event names (01 R11, R12). -/

namespace Sys2Proof

/-- Coordinates of a slot lie in their ranges. -/
def SlotRef.ok (r : SlotRef) : Bool :=
  decide (r.ctx < 65536) && decide (r.die < 4) && decide (r.core ≤ 256) && decide (r.slot < 4)

/-- Coordinates of a core lie in their ranges. -/
def CoreRef.ok (k : CoreRef) : Bool := decide (k.ctx < 65536) && decide (k.die < 4) && decide (k.core ≤ 256)

/-- Coordinates of a quad lie in their ranges. -/
def QuadRef.ok (q : QuadRef) : Bool := decide (q.ctx < 65536) && decide (q.die < 4) && decide (q.quad < 64)

/-- Orderings of ld, vld and ldf (11 R239). -/
def ordLoad (o : Ord) (s : Scope) : Option Nat :=
  match o, s with
  | .plain, .core => none
  | .acq, _ => none
  | _, _ => some 2

/-- Orderings of st and vst (11 R239). -/
def ordStore (o : Ord) (s : Scope) : Option Nat :=
  match o, s with
  | .plain, .core => none
  | .rel, _ => none
  | _, _ => some 2

/-- Orderings of fence kinds 0, 1 and 3 (11 R239). -/
def ordFence (o : Ord) : Option Nat := if o = .plain then some 2 else none

/-- A barrier names a scope that has a barrier network (00 R5, 13 R292). -/
def barScope (s : Scope) : Option Nat := if s = .sys then some 2 else none

/-- A number up to a limit (11 R237, R250). -/
def upTo (n m : Nat) : Option Nat := if n ≤ m then none else some 3

/-- A cas takes its operands from a pair (11 R250). -/
def casPair (f : Aop) (d : Spec) : Option Nat := if f = .cas ∧ d = 31 then some 3 else none

/-- rstat: k is 0 or 1 and the result is a pair (11 R237, R250). -/
def rstatOk (d : Spec) (k : BitVec 5) : Option Nat := if k.toNat ≤ 1 ∧ d.toNat ≤ 30 then none else some 3

/-- The fault.illegal cause 2 or 3 that the fields of an instruction raise (11 R239, R250). -/
def Instr.encFault (i : Instr) : Option Nat :=
  match i with
  | .add .. => none
  | .sub .. => none
  | .and .. => none
  | .or .. => none
  | .xor .. => none
  | .andn .. => none
  | .shl .. => none
  | .shr .. => none
  | .sra .. => none
  | .mul .. => none
  | .mulh .. => none
  | .mulhu .. => none
  | .min .. => none
  | .max .. => none
  | .minu .. => none
  | .maxu .. => none
  | .div .. => none
  | .divu .. => none
  | .rem .. => none
  | .remu .. => none
  | .clz .. => none
  | .ctz .. => none
  | .popc .. => none
  | .brev .. => none
  | .sext8 .. => none
  | .sext16 .. => none
  | .sext32 .. => none
  | .zext32 .. => none
  | .bswap .. => none
  | .rol .. => none
  | .addw .. => none
  | .addi .. => none
  | .andi .. => none
  | .ori .. => none
  | .xori .. => none
  | .shli .. => none
  | .shri .. => none
  | .srai .. => none
  | .li .. => none
  | .lis .. => none
  | .adpc .. => none
  | .pcmp .. => none
  | .pand .. => none
  | .por .. => none
  | .pxor .. => none
  | .pandn .. => none
  | .pnot .. => none
  | .pset .. => none
  | .pget .. => none
  | .pcnt .. => none
  | .pfirst .. => none
  | .vcmpf .. => none
  | .vcmpi .. => none
  | .br .. => none
  | .call .. => none
  | .jr .. => none
  | .callr .. => none
  | .ret .. => none
  | .endTask .. => none
  | .brk .. => none
  | .park .. => none
  | .rsync .. => none
  | .rep .. => none
  | .ld _ _ _ o s _ _ => ordLoad o s
  | .st _ _ _ o s _ _ => ordStore o s
  | .ldo .. => none
  | .sto .. => none
  | .vld _ _ _ o s _ _ => ordLoad o s
  | .vst _ _ _ o s _ _ => ordStore o s
  | .vldx .. => none
  | .vstx .. => none
  | .ldf _ _ _ o s _ _ => ordLoad o s
  | .fset .. => none
  | .fclr .. => none
  | .stf .. => none
  | .fprobe .. => none
  | .amo _ d _ f _ _ => casPair f d
  | .fence _ o _ => ordFence o
  | .fenceE _ o _ => ordFence o
  | .fenceI .. => none
  | .fenceT _ o _ => ordFence o
  | .vaddI32 .. => none
  | .vsubI32 .. => none
  | .vmulI32 .. => none
  | .vmulhI32 .. => none
  | .vand .. => none
  | .vor .. => none
  | .vxor .. => none
  | .vandn .. => none
  | .vshl .. => none
  | .vshr .. => none
  | .vsra .. => none
  | .vminI32 .. => none
  | .vmaxI32 .. => none
  | .vminN32 .. => none
  | .vmaxN32 .. => none
  | .vabsI32 .. => none
  | .vaddF32 .. => none
  | .vsubF32 .. => none
  | .vmulF32 .. => none
  | .vminF32 .. => none
  | .vmaxF32 .. => none
  | .vabsF32 .. => none
  | .vnegF32 .. => none
  | .vsqrtF32 .. => none
  | .vrcpF32 .. => none
  | .vrsqF32 .. => none
  | .vexp2F32 .. => none
  | .vlog2F32 .. => none
  | .vfloorF32 .. => none
  | .vceilF32 .. => none
  | .vrintF32 .. => none
  | .vcopysignF32 .. => none
  | .vfmaF32 .. => none
  | .vfmsF32 .. => none
  | .vfnmaF32 .. => none
  | .vfmaF16x2 .. => none
  | .vfmaBf16x2 .. => none
  | .vdot2F16 .. => none
  | .vdot2Bf16 .. => none
  | .vdot4I8 .. => none
  | .vdot4N8 .. => none
  | .vaddF16x2 .. => none
  | .vsubF16x2 .. => none
  | .vmulF16x2 .. => none
  | .vmaxF16x2 .. => none
  | .vminF16x2 .. => none
  | .vaddBf16x2 .. => none
  | .vsubBf16x2 .. => none
  | .vmulBf16x2 .. => none
  | .vmaxBf16x2 .. => none
  | .vminBf16x2 .. => none
  | .vcvtF32I32 .. => none
  | .vcvtI32F32 .. => none
  | .vcvtF32N32 .. => none
  | .vcvtN32F32 .. => none
  | .vpackF16x2 .. => none
  | .vpackBf16x2 .. => none
  | .vcvtF32F16 _ _ _ k => upTo k.toNat 1
  | .vcvtF32Bf16 _ _ _ k => upTo k.toNat 1
  | .vcvtB8F32 _ _ _ k => upTo k.toNat 3
  | .vcvtF32B8 _ _ _ k => upTo k.toNat 3
  | .vcvtE5m3F32 _ _ _ k => upTo k.toNat 3
  | .vcvtF32E5m3 _ _ _ k => upTo k.toNat 3
  | .vmov .. => none
  | .vbcast .. => none
  | .vins .. => none
  | .vext .. => none
  | .vshuf .. => none
  | .vrot .. => none
  | .vzlo .. => none
  | .vzhi .. => none
  | .viota .. => none
  | .vsumI32 .. => none
  | .vsumF32 .. => none
  | .vmaxrF32 .. => none
  | .vminrF32 .. => none
  | .vmaxrI32 .. => none
  | .vminrI32 .. => none
  | .vargmaxF32 .. => none
  | .vorr .. => none
  | .mset _ _ i => upTo i.toNat 31
  | .wld .. => none
  | .wswap .. => none
  | .xstr .. => none
  | .mwait .. => none
  | .tcfg .. => none
  | .tzero .. => none
  | .tout .. => none
  | .msend _ _ a _ => upTo a.toNat 30
  | .mburst .. => none
  | .mstat .. => none
  | .send .. => none
  | .mcast .. => none
  | .recv .. => none
  | .mprobe .. => none
  | .hdlr .. => none
  | .fhold _ _ b => upTo b.toNat 30
  | .fdrop _ _ b => upTo b.toNat 30
  | .fwait _ _ _ b => upTo b.toNat 30
  | .fread _ d _ => upTo d.toNat 30
  | .bar _ s _ _ => barScope s
  | .barn _ s _ _ => barScope s
  | .barw _ s _ _ => barScope s
  | .racq _ d _ _ => upTo d.toNat 30
  | .rpub .. => none
  | .rtake _ d _ _ => upTo d.toNat 30
  | .rrel .. => none
  | .rstat _ d _ k => rstatOk d k
  | .jpost .. => none
  | .gfork .. => none
  | .grwd .. => none
  | .gjoin .. => none
  | .gcancel .. => none
  | .gstat .. => none
  | .cadv .. => none
  | .cwm .. => none
  | .cwait .. => none
  | .cstat .. => none
  | .sread .. => none
  | .swrite .. => none
  | .sflush .. => none
  | .sstat .. => none
  | .qdef .. => none
  | .qslope .. => none
  | .qread _ d _ => upTo d.toNat 30
  | .qquant .. => none
  | .qsnap .. => none
  | .qstat _ d _ => upTo d.toNat 30
  | .mfc .. => none
  | .mtc .. => none
  | .tlbinv .. => none
  | .tlbsync .. => none
  | .wdog .. => none
  | .dstop .. => none
  | .vaddF32_16 .. => none
  | .vsubF32_16 .. => none
  | .vmulF32_16 .. => none
  | .vmaxF32_16 .. => none
  | .vminF32_16 .. => none
  | .vaddI32_16 .. => none
  | .vsubI32_16 .. => none
  | .vand16 .. => none
  | .vor16 .. => none
  | .vxor16 .. => none
  | .vmov16 .. => none
  | .vaddF16x2_16 .. => none
  | .vmulF16x2_16 .. => none
  | .vaddBf16x2_16 .. => none
  | .vmulBf16x2_16 .. => none
  | .vshl16 .. => none
  | .bindTask .. => none
  | .taskLocalZeroing .. => none
  | .handlerBind .. => none
  | .stageBind .. => none
  | .dealChunk .. => none
  | .requeueListEntry .. => none
  | .gforkSiblingsEnter .. => none
  | .neighbourLevelling .. => none
  | .levellingShipment .. => none
  | .shipmentAcknowledge .. => none
  | .shipmentBounce .. => none
  | .stageGovernor .. => none
  | .messageInjection .. => none
  | .messageDelivery .. => none
  | .refusedMessageReoffer .. => none
  | .routerGroupMessage .. => none
  | .deltaFlushAge .. => none
  | .tilthBatchAccept .. => none
  | .rootBatchApply .. => none
  | .frontierBroadcast .. => none
  | .resultLanding .. => none
  | .waitSatisfied .. => none
  | .waitExpiry .. => none
  | .watchdogExpiry .. => none
  | .faultPacketReoffer .. => none
  | .pageWalk .. => none
  | .siltSubmission .. => none
  | .nvmeCompletion .. => none
  | .tlbinvAcknowledge .. => none
  | .copyEntryRelease .. => none
  | .copyLineWritten .. => none
  | .copyEntryComplete .. => none
  | .arrayCommandStart .. => none
  | .arrayCommandComplete .. => none
  | .msendCommandArrival .. => none
  | .msendReply .. => none
  | .arrayRampDown .. => none
  | .tokenPass .. => none
  | .crossingFiring .. => none
  | .qsnapSample .. => none
  | .groupDeadline .. => none
  | .cancelledSiblingEnd .. => none
  | .barrierCompletion .. => none
  | .scaleupAtomicRequest .. => none
  | .scaleupAtomicReply .. => none
  | .scaleupRetransmit .. => none
  | .linkFailure .. => none
  | .gangSwitchRequest .. => none
  | .gangSwitchStart .. => none
  | .gangSwitchSave .. => none
  | .gangSwitchRestore .. => none
  | .haltStopCommand .. => none
  | .haltRelease .. => none
  | .dctlResume .. => none
  | .dctlRestart .. => none
  | .dctlKill .. => none
  | .swcmdRequeue .. => none
  | .swcmdKill .. => none
  | .partitionForm .. => none
  | .partitionDissolve .. => none
  | .contextCreate .. => none
  | .contextDestroy .. => none
  | .graphLoad .. => none
  | .routerEntryWrite .. => none
  | .capabilityEntryWrite .. => none
  | .ringEntryDiscard .. => none
  | .deadLetterHeadWrite .. => none
  | .hostQueueConfig .. => none
  | .hostQueueDoorbell .. => none
  | .hostQueueEntry .. => none
  | .hostHbmAccess .. => none
  | .firmwareLoad .. => none
  | .attestationRequest .. => none
  | .attestationReady .. => none
  | .powerConfigWrite .. => none
  | .registerWrite .. => none
  | .deviceReset .. => none
  | .uncorrectableError .. => none
  | .correctedError .. => none
  | .quadFence .. => none
  | .thermalThrottle .. => none
  | .thermalTrip .. => none
  | .storeReachesHome .. => none
  | .copyChannelRestart .. => none
  | .hostCompletionHeadWrite .. => none
  | .supervisorQueueHeadWrite .. => none
  | .freeFrameTailWrite .. => none
  | .jobQueueAssign .. => none
  | .frameZeroingComplete .. => none
  | .burstHoldExpiry .. => none
  | .linkLevelReplay .. => none
  | .thermalThrottleEnd .. => none

/-- The coordinates of an event lie in their ranges; an encoded instruction names none. -/
def Instr.inRange (i : Instr) : Bool :=
  match i with
  | .add .. => true
  | .sub .. => true
  | .and .. => true
  | .or .. => true
  | .xor .. => true
  | .andn .. => true
  | .shl .. => true
  | .shr .. => true
  | .sra .. => true
  | .mul .. => true
  | .mulh .. => true
  | .mulhu .. => true
  | .min .. => true
  | .max .. => true
  | .minu .. => true
  | .maxu .. => true
  | .div .. => true
  | .divu .. => true
  | .rem .. => true
  | .remu .. => true
  | .clz .. => true
  | .ctz .. => true
  | .popc .. => true
  | .brev .. => true
  | .sext8 .. => true
  | .sext16 .. => true
  | .sext32 .. => true
  | .zext32 .. => true
  | .bswap .. => true
  | .rol .. => true
  | .addw .. => true
  | .addi .. => true
  | .andi .. => true
  | .ori .. => true
  | .xori .. => true
  | .shli .. => true
  | .shri .. => true
  | .srai .. => true
  | .li .. => true
  | .lis .. => true
  | .adpc .. => true
  | .pcmp .. => true
  | .pand .. => true
  | .por .. => true
  | .pxor .. => true
  | .pandn .. => true
  | .pnot .. => true
  | .pset .. => true
  | .pget .. => true
  | .pcnt .. => true
  | .pfirst .. => true
  | .vcmpf .. => true
  | .vcmpi .. => true
  | .br .. => true
  | .call .. => true
  | .jr .. => true
  | .callr .. => true
  | .ret .. => true
  | .endTask .. => true
  | .brk .. => true
  | .park .. => true
  | .rsync .. => true
  | .rep .. => true
  | .ld .. => true
  | .st .. => true
  | .ldo .. => true
  | .sto .. => true
  | .vld .. => true
  | .vst .. => true
  | .vldx .. => true
  | .vstx .. => true
  | .ldf .. => true
  | .fset .. => true
  | .fclr .. => true
  | .stf .. => true
  | .fprobe .. => true
  | .amo .. => true
  | .fence .. => true
  | .fenceE .. => true
  | .fenceI .. => true
  | .fenceT .. => true
  | .vaddI32 .. => true
  | .vsubI32 .. => true
  | .vmulI32 .. => true
  | .vmulhI32 .. => true
  | .vand .. => true
  | .vor .. => true
  | .vxor .. => true
  | .vandn .. => true
  | .vshl .. => true
  | .vshr .. => true
  | .vsra .. => true
  | .vminI32 .. => true
  | .vmaxI32 .. => true
  | .vminN32 .. => true
  | .vmaxN32 .. => true
  | .vabsI32 .. => true
  | .vaddF32 .. => true
  | .vsubF32 .. => true
  | .vmulF32 .. => true
  | .vminF32 .. => true
  | .vmaxF32 .. => true
  | .vabsF32 .. => true
  | .vnegF32 .. => true
  | .vsqrtF32 .. => true
  | .vrcpF32 .. => true
  | .vrsqF32 .. => true
  | .vexp2F32 .. => true
  | .vlog2F32 .. => true
  | .vfloorF32 .. => true
  | .vceilF32 .. => true
  | .vrintF32 .. => true
  | .vcopysignF32 .. => true
  | .vfmaF32 .. => true
  | .vfmsF32 .. => true
  | .vfnmaF32 .. => true
  | .vfmaF16x2 .. => true
  | .vfmaBf16x2 .. => true
  | .vdot2F16 .. => true
  | .vdot2Bf16 .. => true
  | .vdot4I8 .. => true
  | .vdot4N8 .. => true
  | .vaddF16x2 .. => true
  | .vsubF16x2 .. => true
  | .vmulF16x2 .. => true
  | .vmaxF16x2 .. => true
  | .vminF16x2 .. => true
  | .vaddBf16x2 .. => true
  | .vsubBf16x2 .. => true
  | .vmulBf16x2 .. => true
  | .vmaxBf16x2 .. => true
  | .vminBf16x2 .. => true
  | .vcvtF32I32 .. => true
  | .vcvtI32F32 .. => true
  | .vcvtF32N32 .. => true
  | .vcvtN32F32 .. => true
  | .vpackF16x2 .. => true
  | .vpackBf16x2 .. => true
  | .vcvtF32F16 .. => true
  | .vcvtF32Bf16 .. => true
  | .vcvtB8F32 .. => true
  | .vcvtF32B8 .. => true
  | .vcvtE5m3F32 .. => true
  | .vcvtF32E5m3 .. => true
  | .vmov .. => true
  | .vbcast .. => true
  | .vins .. => true
  | .vext .. => true
  | .vshuf .. => true
  | .vrot .. => true
  | .vzlo .. => true
  | .vzhi .. => true
  | .viota .. => true
  | .vsumI32 .. => true
  | .vsumF32 .. => true
  | .vmaxrF32 .. => true
  | .vminrF32 .. => true
  | .vmaxrI32 .. => true
  | .vminrI32 .. => true
  | .vargmaxF32 .. => true
  | .vorr .. => true
  | .mset .. => true
  | .wld .. => true
  | .wswap .. => true
  | .xstr .. => true
  | .mwait .. => true
  | .tcfg .. => true
  | .tzero .. => true
  | .tout .. => true
  | .msend .. => true
  | .mburst .. => true
  | .mstat .. => true
  | .send .. => true
  | .mcast .. => true
  | .recv .. => true
  | .mprobe .. => true
  | .hdlr .. => true
  | .fhold .. => true
  | .fdrop .. => true
  | .fwait .. => true
  | .fread .. => true
  | .bar .. => true
  | .barn .. => true
  | .barw .. => true
  | .racq .. => true
  | .rpub .. => true
  | .rtake .. => true
  | .rrel .. => true
  | .rstat .. => true
  | .jpost .. => true
  | .gfork .. => true
  | .grwd .. => true
  | .gjoin .. => true
  | .gcancel .. => true
  | .gstat .. => true
  | .cadv .. => true
  | .cwm .. => true
  | .cwait .. => true
  | .cstat .. => true
  | .sread .. => true
  | .swrite .. => true
  | .sflush .. => true
  | .sstat .. => true
  | .qdef .. => true
  | .qslope .. => true
  | .qread .. => true
  | .qquant .. => true
  | .qsnap .. => true
  | .qstat .. => true
  | .mfc .. => true
  | .mtc .. => true
  | .tlbinv .. => true
  | .tlbsync .. => true
  | .wdog .. => true
  | .dstop .. => true
  | .vaddF32_16 .. => true
  | .vsubF32_16 .. => true
  | .vmulF32_16 .. => true
  | .vmaxF32_16 .. => true
  | .vminF32_16 .. => true
  | .vaddI32_16 .. => true
  | .vsubI32_16 .. => true
  | .vand16 .. => true
  | .vor16 .. => true
  | .vxor16 .. => true
  | .vmov16 .. => true
  | .vaddF16x2_16 .. => true
  | .vmulF16x2_16 .. => true
  | .vaddBf16x2_16 .. => true
  | .vmulBf16x2_16 .. => true
  | .vshl16 .. => true
  | .bindTask r => r.ok
  | .taskLocalZeroing r => r.ok
  | .handlerBind r => r.ok
  | .stageBind r => r.ok
  | .dealChunk pd => decide (pd < 4)
  | .requeueListEntry q => q.ok
  | .gforkSiblingsEnter q => q.ok
  | .neighbourLevelling cx d => decide (cx < 65536) && decide (d < 4)
  | .levellingShipment cx _ => decide (cx < 65536)
  | .shipmentAcknowledge cx _ => decide (cx < 65536)
  | .shipmentBounce cx _ => decide (cx < 65536)
  | .stageGovernor q => q.ok
  | .messageInjection r _ => r.ok
  | .messageDelivery cx _ => decide (cx < 65536)
  | .refusedMessageReoffer r _ => r.ok
  | .routerGroupMessage cx _ => decide (cx < 65536)
  | .deltaFlushAge k => k.ok
  | .tilthBatchAccept cx d => decide (cx < 65536) && decide (d < 4)
  | .rootBatchApply cx => decide (cx < 65536)
  | .frontierBroadcast cx d => decide (cx < 65536) && decide (d < 4)
  | .resultLanding r _ => r.ok
  | .waitSatisfied r => r.ok
  | .waitExpiry r => r.ok
  | .watchdogExpiry r => r.ok
  | .faultPacketReoffer pd w => decide (pd < 4) && w.all SlotRef.ok
  | .pageWalk r _ _ => r.ok
  | .siltSubmission pd e => decide (pd < 4) && decide (e < 4)
  | .nvmeCompletion pd cid _ => decide (pd < 4) && decide (cid < 65536)
  | .tlbinvAcknowledge r => r.ok
  | .copyEntryRelease cx d ch => decide (cx < 65536) && decide (d < 4) && decide (ch < 128)
  | .copyLineWritten cx d ch => decide (cx < 65536) && decide (d < 4) && decide (ch < 128)
  | .copyEntryComplete cx d ch => decide (cx < 65536) && decide (d < 4) && decide (ch < 128)
  | .arrayCommandStart q => q.ok
  | .arrayCommandComplete q => q.ok
  | .msendCommandArrival cx _ => decide (cx < 65536)
  | .msendReply cx _ => decide (cx < 65536)
  | .arrayRampDown q => q.ok
  | .tokenPass pd => decide (pd < 4)
  | .crossingFiring k => k.ok
  | .qsnapSample cx _ => decide (cx < 65536)
  | .groupDeadline cx d g => decide (cx < 65536) && decide (d < 4) && decide (g < 4096)
  | .cancelledSiblingEnd r => r.ok
  | .barrierCompletion cx _ _ _ => decide (cx < 65536)
  | .scaleupAtomicRequest p _ _ _ _ _ => decide (p < 512)
  | .scaleupAtomicReply p _ _ => decide (p < 512)
  | .scaleupRetransmit p _ => decide (p < 512)
  | .linkFailure l => decide (l < 32)
  | .gangSwitchRequest p _ _ => decide (p < 16)
  | .gangSwitchStart p => decide (p < 16)
  | .gangSwitchSave p => decide (p < 16)
  | .gangSwitchRestore p => decide (p < 16)
  | .haltStopCommand pd g => decide (pd < 4) && decide (g < 16)
  | .haltRelease pd g => decide (pd < 4) && decide (g < 16)
  | .dctlResume pd k sl => decide (pd < 4) && decide (k < 256) && decide (sl < 4)
  | .dctlRestart pd k sl => decide (pd < 4) && decide (k < 256) && decide (sl < 4)
  | .dctlKill pd k sl => decide (pd < 4) && decide (k < 256) && decide (sl < 4)
  | .swcmdRequeue pd _ => decide (pd < 4)
  | .swcmdKill pd _ => decide (pd < 4)
  | .partitionForm p => decide (p < 16)
  | .partitionDissolve p => decide (p < 16)
  | .contextCreate cx => decide (cx < 65536)
  | .contextDestroy cx => decide (cx < 65536)
  | .graphLoad cx => decide (cx < 65536)
  | .routerEntryWrite pd k g _ => decide (pd < 4) && decide (k < 256) && decide (g < 1024)
  | .capabilityEntryWrite pd q e _ _ => decide (pd < 4) && decide (q < 64) && decide (e < 64)
  | .ringEntryDiscard cx _ _ => decide (cx < 65536)
  | .deadLetterHeadWrite pd k _ => decide (pd < 4) && decide (k < 256)
  | .hostQueueConfig q _ => decide (q < 256)
  | .hostQueueDoorbell q _ => decide (q < 256)
  | .hostQueueEntry q => decide (q < 256)
  | .hostHbmAccess _ off _ => decide (off < 33554432)
  | .firmwareLoad => true
  | .attestationRequest => true
  | .attestationReady => true
  | .powerConfigWrite _ => true
  | .registerWrite _ _ _ => true
  | .deviceReset => true
  | .uncorrectableError _ => true
  | .correctedError pd q => decide (pd < 4) && decide (q < 64)
  | .quadFence pd q => decide (pd < 4) && decide (q < 64)
  | .thermalThrottle _ _ => true
  | .thermalTrip => true
  | .storeReachesHome q _ => q.ok
  | .copyChannelRestart cx d ch _ => decide (cx < 65536) && decide (d < 4) && decide (ch < 128)
  | .hostCompletionHeadWrite q _ => decide (q < 256)
  | .supervisorQueueHeadWrite pd _ => decide (pd < 4)
  | .freeFrameTailWrite pd k _ => decide (pd < 4) && decide (k < 3)
  | .jobQueueAssign pd q _ _ => decide (pd < 4) && decide (q < 256)
  | .frameZeroingComplete _ _ _ => true
  | .burstHoldExpiry q => q.ok
  | .linkLevelReplay l => decide (l < 32)
  | .thermalThrottleEnd _ _ => true

/-- A well-formed instruction. -/
def Instr.wf (i : Instr) : Bool := i.encFault.isNone && i.inRange

end Sys2Proof
end

