-- ==== Sys2Proof/Decode.lean ====
section
/-! DEFINITION. The decoder and the encoder of instruction words (11 R233 to R241, R250). -/

namespace Sys2Proof

/-- Why bytes are no instruction: fault.illegal with its cause, a reserved field that is not zero (fault.rsvfield cause
1), or too few bytes. -/
inductive DecErr where
  | illegal (cause : Nat)
  | rsvField
  | short
deriving DecidableEq, Repr

/-- A decoded word with the answer to: is every reserved field zero? -/
abbrev Raw := Except DecErr (Instr × Bool)

/-- Code of an ordering (11 R238). -/
def Ord.bits (o : Ord) : BitVec 2 :=
  match o with
  | .plain => 0
  | .acq => 1
  | .rel => 2
  | .acqrel => 3

/-- The ordering of a code. -/
def Ord.ofBits (x : BitVec 2) : Ord :=
  match x.toNat with
  | 0 => .plain
  | 1 => .acq
  | 2 => .rel
  | _ => .acqrel

/-- Code of a scope (00 R5). -/
def Scope.bits (s : Scope) : BitVec 3 :=
  match s with
  | .core => 0
  | .quad => 1
  | .die => 2
  | .pkg => 3
  | .pod => 4
  | .sys => 5

/-- The scope of a code; 6 and 7 name none. -/
def Scope.ofBits (x : BitVec 3) : Option Scope :=
  match x.toNat with
  | 0 => some .core
  | 1 => some .quad
  | 2 => some .die
  | 3 => some .pkg
  | 4 => some .pod
  | 5 => some .sys
  | _ => none

/-- Code of an atomic operation (11 R240). -/
def Aop.bits (f : Aop) : BitVec 4 :=
  match f with
  | .add => 0
  | .and => 1
  | .or => 2
  | .xor => 3
  | .min => 4
  | .max => 5
  | .minu => 6
  | .maxu => 7
  | .swap => 8
  | .cas => 9
  | .fadd => 10
  | .fmax => 11

/-- The atomic operation of a code; 12 to 15 are reserved. -/
def Aop.ofBits (x : BitVec 4) : Option Aop :=
  match x.toNat with
  | 0 => some .add
  | 1 => some .and
  | 2 => some .or
  | 3 => some .xor
  | 4 => some .min
  | 5 => some .max
  | 6 => some .minu
  | 7 => some .maxu
  | 8 => some .swap
  | 9 => some .cas
  | 10 => some .fadd
  | 11 => some .fmax
  | _ => none

/-- Code of a pcmp condition. -/
def PCond.bits (f : PCond) : BitVec 3 :=
  match f with
  | .eq => 0
  | .ne => 1
  | .lt => 2
  | .ge => 3
  | .ltu => 4
  | .geu => 5
  | .tst => 6

/-- The pcmp condition of a code; 7 is reserved. -/
def PCond.ofBits (x : BitVec 3) : Option PCond :=
  match x.toNat with
  | 0 => some .eq
  | 1 => some .ne
  | 2 => some .lt
  | 3 => some .ge
  | 4 => some .ltu
  | 5 => some .geu
  | 6 => some .tst
  | _ => none

/-- Code of a vcmpf condition. -/
def FCond.bits (f : FCond) : BitVec 3 :=
  match f with
  | .eq => 0
  | .ne => 1
  | .lt => 2
  | .le => 3
  | .gt => 4
  | .ge => 5
  | .uno => 6
  | .ord => 7

/-- The vcmpf condition of a code. -/
def FCond.ofBits (x : BitVec 3) : FCond :=
  match x.toNat with
  | 0 => .eq
  | 1 => .ne
  | 2 => .lt
  | 3 => .le
  | 4 => .gt
  | 5 => .ge
  | 6 => .uno
  | _ => .ord

/-- Code of a vcmpi condition. -/
def ICond.bits (f : ICond) : BitVec 3 :=
  match f with
  | .eq => 0
  | .ne => 1
  | .lt => 2
  | .le => 3
  | .gt => 4
  | .ge => 5
  | .ltu => 6
  | .geu => 7

/-- The vcmpi condition of a code. -/
def ICond.ofBits (x : BitVec 3) : ICond :=
  match x.toNat with
  | 0 => .eq
  | 1 => .ne
  | 2 => .lt
  | 3 => .le
  | 4 => .gt
  | 5 => .ge
  | 6 => .ltu
  | _ => .geu

/-- Code of a gather or scatter size. -/
def XSize.bits (e : XSize) : BitVec 4 :=
  match e with
  | .w32 => 0
  | .w16 => 1
  | .w8 => 2

/-- The gather or scatter size of a code; 3 to 15 are reserved. -/
def XSize.ofBits (x : BitVec 4) : Option XSize :=
  match x.toNat with
  | 0 => some .w32
  | 1 => some .w16
  | 2 => some .w8
  | _ => none

/-- Major opcode, bits [12:7] (11 R234). -/
def fMajor (w : W32) : BitVec 6 := w.extractLsb' 7 6
/-- Stall count, negation and guard, bits [6:1] (11 R234). -/
def ctlOf (w : W32) : Ctl := ⟨w.extractLsb' 5 2, w.getLsbD 4, w.extractLsb' 1 3⟩
/-- Layout R, I, U, M, O and A: rd, bits [31:27] (11 R236). -/
def fRd (w : W32) : Spec := w.extractLsb' 27 5
/-- ra, bits [26:22]. -/
def fRa (w : W32) : Spec := w.extractLsb' 22 5
/-- rb, bits [21:17]. -/
def fRb (w : W32) : Spec := w.extractLsb' 17 5
/-- fn, bits [16:13]. -/
def fFn (w : W32) : BitVec 4 := w.extractLsb' 13 4
/-- imm9, bits [21:13]. -/
def fImm9 (w : W32) : BitVec 9 := w.extractLsb' 13 9
/-- imm14, bits [26:13]. -/
def fImm14 (w : W32) : BitVec 14 := w.extractLsb' 13 14
/-- Layout P and PL: pd, bits [31:29]. -/
def fPd (w : W32) : PSpec := w.extractLsb' 29 3
/-- pe of P, pa of PL, bits [28:26]. -/
def fPe (w : W32) : PSpec := w.extractLsb' 26 3
/-- ra of P, bits [25:21]. -/
def fPra (w : W32) : Spec := w.extractLsb' 21 5
/-- rb of P, bits [20:16]. -/
def fPrb (w : W32) : Spec := w.extractLsb' 16 5
/-- cc of P, bits [15:13]. -/
def fCc (w : W32) : BitVec 3 := w.extractLsb' 13 3

/-- Major 0x00 (11 R240): the function codes of alu. -/
def decAlu (c : Ctl) (d a b : Spec) (fn : Nat) : Raw :=
  match fn with
  | 0 => .ok (.add c d a b, true)
  | 1 => .ok (.sub c d a b, true)
  | 2 => .ok (.and c d a b, true)
  | 3 => .ok (.or c d a b, true)
  | 4 => .ok (.xor c d a b, true)
  | 5 => .ok (.andn c d a b, true)
  | 6 => .ok (.shl c d a b, true)
  | 7 => .ok (.shr c d a b, true)
  | 8 => .ok (.sra c d a b, true)
  | 9 => .ok (.mul c d a b, true)
  | 10 => .ok (.mulh c d a b, true)
  | 11 => .ok (.mulhu c d a b, true)
  | 12 => .ok (.min c d a b, true)
  | 13 => .ok (.max c d a b, true)
  | 14 => .ok (.minu c d a b, true)
  | _ => .ok (.maxu c d a b, true)

/-- Major 0x01 (11 R240): the function codes of alu2. -/
def decAlu2 (c : Ctl) (d a b : Spec) (fn : Nat) : Raw :=
  match fn with
  | 0 => .ok (.div c d a b, true)
  | 1 => .ok (.divu c d a b, true)
  | 2 => .ok (.rem c d a b, true)
  | 3 => .ok (.remu c d a b, true)
  | 4 => .ok (.clz c d a, b == 0)
  | 5 => .ok (.ctz c d a, b == 0)
  | 6 => .ok (.popc c d a, b == 0)
  | 7 => .ok (.brev c d a, b == 0)
  | 8 => .ok (.sext8 c d a, b == 0)
  | 9 => .ok (.sext16 c d a, b == 0)
  | 10 => .ok (.sext32 c d a, b == 0)
  | 11 => .ok (.zext32 c d a, b == 0)
  | 12 => .ok (.bswap c d a, b == 0)
  | 13 => .ok (.rol c d a b, true)
  | 14 => .ok (.addw c d a b, true)
  | _ => .error (.illegal 1)

/-- Major 0x12 (11 R240): the function codes of ctl. -/
def decCtl (c : Ctl) (d a b : Spec) (fn : Nat) : Raw :=
  match fn with
  | 0 => .ok (.jr c a, d == 0 && b == 0)
  | 1 => .ok (.callr c a, d == 0 && b == 0)
  | 2 => .ok (.ret c, d == 0 && a == 0 && b == 0)
  | 3 => .ok (.endTask c, d == 0 && a == 0 && b == 0)
  | 4 => .ok (.brk c, d == 0 && a == 0 && b == 0)
  | 5 => .ok (.park c a, d == 0 && b == 0)
  | 6 => .ok (.rsync c, d == 0 && a == 0 && b == 0)
  | _ => .error (.illegal 1)

/-- Major 0x1D (11 R240): the function codes of feop. -/
def decFeop (c : Ctl) (d a b : Spec) (fn : Nat) : Raw :=
  match fn with
  | 0 => .ok (.fset c a, d == 0 && b == 0)
  | 1 => .ok (.fclr c a, d == 0 && b == 0)
  | 2 => .ok (.stf c a b, d == 0)
  | 3 => .ok (.fprobe c d a, b == 0)
  | _ => .error (.illegal 1)

/-- Major 0x20 (11 R240): the function codes of valu. -/
def decValu (c : Ctl) (d a b : Spec) (fn : Nat) : Raw :=
  match fn with
  | 0 => .ok (.vaddI32 c d a b, true)
  | 1 => .ok (.vsubI32 c d a b, true)
  | 2 => .ok (.vmulI32 c d a b, true)
  | 3 => .ok (.vmulhI32 c d a b, true)
  | 4 => .ok (.vand c d a b, true)
  | 5 => .ok (.vor c d a b, true)
  | 6 => .ok (.vxor c d a b, true)
  | 7 => .ok (.vandn c d a b, true)
  | 8 => .ok (.vshl c d a b, true)
  | 9 => .ok (.vshr c d a b, true)
  | 10 => .ok (.vsra c d a b, true)
  | 11 => .ok (.vminI32 c d a b, true)
  | 12 => .ok (.vmaxI32 c d a b, true)
  | 13 => .ok (.vminN32 c d a b, true)
  | 14 => .ok (.vmaxN32 c d a b, true)
  | _ => .ok (.vabsI32 c d a, b == 0)

/-- Major 0x21 (11 R240): the function codes of vfp. -/
def decVfp (c : Ctl) (d a b : Spec) (fn : Nat) : Raw :=
  match fn with
  | 0 => .ok (.vaddF32 c d a b, true)
  | 1 => .ok (.vsubF32 c d a b, true)
  | 2 => .ok (.vmulF32 c d a b, true)
  | 3 => .ok (.vminF32 c d a b, true)
  | 4 => .ok (.vmaxF32 c d a b, true)
  | 5 => .ok (.vabsF32 c d a, b == 0)
  | 6 => .ok (.vnegF32 c d a, b == 0)
  | 7 => .ok (.vsqrtF32 c d a, b == 0)
  | 8 => .ok (.vrcpF32 c d a, b == 0)
  | 9 => .ok (.vrsqF32 c d a, b == 0)
  | 10 => .ok (.vexp2F32 c d a, b == 0)
  | 11 => .ok (.vlog2F32 c d a, b == 0)
  | 12 => .ok (.vfloorF32 c d a, b == 0)
  | 13 => .ok (.vceilF32 c d a, b == 0)
  | 14 => .ok (.vrintF32 c d a, b == 0)
  | _ => .ok (.vcopysignF32 c d a b, true)

/-- Major 0x22 (11 R240): the function codes of vfma. -/
def decVfma (c : Ctl) (d a b : Spec) (fn : Nat) : Raw :=
  match fn with
  | 0 => .ok (.vfmaF32 c d a b, true)
  | 1 => .ok (.vfmsF32 c d a b, true)
  | 2 => .ok (.vfnmaF32 c d a b, true)
  | 3 => .ok (.vfmaF16x2 c d a b, true)
  | 4 => .ok (.vfmaBf16x2 c d a b, true)
  | 5 => .ok (.vdot2F16 c d a b, true)
  | 6 => .ok (.vdot2Bf16 c d a b, true)
  | 7 => .ok (.vdot4I8 c d a b, true)
  | 8 => .ok (.vdot4N8 c d a b, true)
  | _ => .error (.illegal 1)

/-- Major 0x23 (11 R240): the function codes of vhalf. -/
def decVhalf (c : Ctl) (d a b : Spec) (fn : Nat) : Raw :=
  match fn with
  | 0 => .ok (.vaddF16x2 c d a b, true)
  | 1 => .ok (.vsubF16x2 c d a b, true)
  | 2 => .ok (.vmulF16x2 c d a b, true)
  | 3 => .ok (.vmaxF16x2 c d a b, true)
  | 4 => .ok (.vminF16x2 c d a b, true)
  | 5 => .ok (.vaddBf16x2 c d a b, true)
  | 6 => .ok (.vsubBf16x2 c d a b, true)
  | 7 => .ok (.vmulBf16x2 c d a b, true)
  | 8 => .ok (.vmaxBf16x2 c d a b, true)
  | 9 => .ok (.vminBf16x2 c d a b, true)
  | _ => .error (.illegal 1)

/-- Major 0x24 (11 R240): the function codes of vcvt. -/
def decVcvt (c : Ctl) (d a b : Spec) (fn : Nat) : Raw :=
  match fn with
  | 0 => .ok (.vcvtF32I32 c d a, b == 0)
  | 1 => .ok (.vcvtI32F32 c d a, b == 0)
  | 2 => .ok (.vcvtF32N32 c d a, b == 0)
  | 3 => .ok (.vcvtN32F32 c d a, b == 0)
  | 4 => .ok (.vpackF16x2 c d a b, true)
  | 5 => .ok (.vpackBf16x2 c d a b, true)
  | 6 => .ok (.vcvtF32F16 c d a b, true)
  | 7 => .ok (.vcvtF32Bf16 c d a b, true)
  | 8 => .ok (.vcvtB8F32 c d a b, true)
  | 9 => .ok (.vcvtF32B8 c d a b, true)
  | 10 => .ok (.vcvtE5m3F32 c d a b, true)
  | 11 => .ok (.vcvtF32E5m3 c d a b, true)
  | _ => .error (.illegal 1)

/-- Major 0x25 (11 R240): the function codes of vperm. -/
def decVperm (c : Ctl) (d a b : Spec) (fn : Nat) : Raw :=
  match fn with
  | 0 => .ok (.vmov c d b, a == 0)
  | 1 => .ok (.vbcast c d a, b == 0)
  | 2 => .ok (.vins c d a b, true)
  | 3 => .ok (.vext c d a b, true)
  | 4 => .ok (.vshuf c d a b, true)
  | 5 => .ok (.vrot c d a b, true)
  | 6 => .ok (.vzlo c d a b, true)
  | 7 => .ok (.vzhi c d a b, true)
  | 8 => .ok (.viota c d, a == 0 && b == 0)
  | _ => .error (.illegal 1)

/-- Major 0x26 (11 R240): the function codes of vred. -/
def decVred (c : Ctl) (d a b : Spec) (fn : Nat) : Raw :=
  match fn with
  | 0 => .ok (.vsumI32 c d a, b == 0)
  | 1 => .ok (.vsumF32 c d a, b == 0)
  | 2 => .ok (.vmaxrF32 c d a, b == 0)
  | 3 => .ok (.vminrF32 c d a, b == 0)
  | 4 => .ok (.vmaxrI32 c d a, b == 0)
  | 5 => .ok (.vminrI32 c d a, b == 0)
  | 6 => .ok (.vargmaxF32 c d a, b == 0)
  | 7 => .ok (.vorr c d a, b == 0)
  | _ => .error (.illegal 1)

/-- Major 0x29 (11 R240): the function codes of mtx. -/
def decMtx (c : Ctl) (d a b : Spec) (fn : Nat) : Raw :=
  match fn with
  | 0 => .ok (.wld c a, d == 0 && b == 0)
  | 1 => .ok (.wswap c a, d == 0 && b == 0)
  | 2 => .ok (.xstr c a, d == 0 && b == 0)
  | 3 => .ok (.mwait c a, d == 0 && b == 0)
  | 4 => .ok (.tcfg c d a b, true)
  | 5 => .ok (.tzero c a b, d == 0)
  | 6 => .ok (.tout c a, d == 0 && b == 0)
  | 7 => .ok (.msend c d a b, true)
  | 8 => .ok (.mburst c a, d == 0 && b == 0)
  | 9 => .ok (.mstat c d, a == 0 && b == 0)
  | _ => .error (.illegal 1)

/-- Major 0x2A (11 R240): the function codes of msg. -/
def decMsg (c : Ctl) (d a b : Spec) (fn : Nat) : Raw :=
  match fn with
  | 0 => .ok (.send c d a b, true)
  | 1 => .ok (.mcast c d a b, true)
  | 2 => .ok (.recv c d a b, true)
  | 3 => .ok (.mprobe c d a b, true)
  | 4 => .ok (.hdlr c a b, d == 0)
  | _ => .error (.illegal 1)

/-- Major 0x2B (11 R240): the function codes of time. -/
def decTime (c : Ctl) (d a b : Spec) (fn : Nat) : Raw :=
  match fn with
  | 0 => .ok (.fhold c a b, d == 0)
  | 1 => .ok (.fdrop c a b, d == 0)
  | 2 => .ok (.fwait c d a b, true)
  | 3 => .ok (.fread c d a, b == 0)
  | _ => .error (.illegal 1)

/-- Major 0x2D (11 R240): the function codes of ring. -/
def decRing (c : Ctl) (d a b : Spec) (fn : Nat) : Raw :=
  match fn with
  | 0 => .ok (.racq c d a b, true)
  | 1 => .ok (.rpub c (d.getLsbD 0) a b, d.extractLsb' 1 4 == 0)
  | 2 => .ok (.rtake c d a b, true)
  | 3 => .ok (.rrel c a b, d == 0)
  | 4 => .ok (.rstat c d a b, true)
  | _ => .error (.illegal 1)

/-- Major 0x2E (11 R240): the function codes of task. -/
def decTask (c : Ctl) (d a b : Spec) (fn : Nat) : Raw :=
  match fn with
  | 0 => .ok (.jpost c a b, d == 0)
  | 1 => .ok (.gfork c d a b, true)
  | 2 => .ok (.grwd c a, d == 0 && b == 0)
  | 3 => .ok (.gjoin c d a, b == 0)
  | 4 => .ok (.gcancel c a, d == 0 && b == 0)
  | 5 => .ok (.gstat c d a, b == 0)
  | _ => .error (.illegal 1)

/-- Major 0x2F (11 R240): the function codes of copy. -/
def decCopy (c : Ctl) (d a b : Spec) (fn : Nat) : Raw :=
  match fn with
  | 0 => .ok (.cadv c a b, d == 0)
  | 1 => .ok (.cwm c d a, b == 0)
  | 2 => .ok (.cwait c a b, d == 0)
  | 3 => .ok (.cstat c d a, b == 0)
  | _ => .error (.illegal 1)

/-- Major 0x30 (11 R240): the function codes of stor. -/
def decStor (c : Ctl) (d a b : Spec) (fn : Nat) : Raw :=
  match fn with
  | 0 => .ok (.sread c a b, d == 0)
  | 1 => .ok (.swrite c a b, d == 0)
  | 2 => .ok (.sflush c a b, d == 0)
  | 3 => .ok (.sstat c d a, b == 0)
  | _ => .error (.illegal 1)

/-- Major 0x31 (11 R240): the function codes of qss. -/
def decQss (c : Ctl) (d a b : Spec) (fn : Nat) : Raw :=
  match fn with
  | 0 => .ok (.qdef c a b, d == 0)
  | 1 => .ok (.qslope c a b, d == 0)
  | 2 => .ok (.qread c d a, b == 0)
  | 3 => .ok (.qquant c a b, d == 0)
  | 4 => .ok (.qsnap c d a b, true)
  | 5 => .ok (.qstat c d a, b == 0)
  | _ => .error (.illegal 1)

/-- Major 0x34 (11 R240): the function codes of sys. -/
def decSys (c : Ctl) (d a b : Spec) (fn : Nat) : Raw :=
  match fn with
  | 0 => .ok (.tlbinv c a b, d == 0)
  | 1 => .ok (.tlbsync c a, d == 0 && b == 0)
  | 2 => .ok (.wdog c a, d == 0 && b == 0)
  | 3 => .ok (.dstop c a, d == 0 && b == 0)
  | _ => .error (.illegal 1)

/-- Major 0x0D (11 R240): predicate logic. -/
def decPlog (c : Ctl) (p q r : PSpec) (a : Spec) (x : BitVec 1) (fn : Nat) : Raw :=
  match fn with
  | 0 => .ok (.pand c p q r, a == 0 && x == 0)
  | 1 => .ok (.por c p q r, a == 0 && x == 0)
  | 2 => .ok (.pxor c p q r, a == 0 && x == 0)
  | 3 => .ok (.pandn c p q r, a == 0 && x == 0)
  | 4 => .ok (.pnot c p q, r == 0 && a == 0 && x == 0)
  | 5 => .ok (.pset c p a, q == 0 && r == 0 && x == 0)
  | 6 => .ok (.pget c q a, p == 0 && r == 0 && x == 0)
  | 7 => .ok (.pcnt c q r a, p == 0 && x == 0)
  | 8 => .ok (.pfirst c q r a, p == 0 && x == 0)
  | _ => .error (.illegal 1)

/-- The 16-bit operations (11 R235). -/
def dec16 (d b : Spec) (op : Nat) : Instr :=
  match op with
  | 0 => .vaddF32_16 b d
  | 1 => .vsubF32_16 b d
  | 2 => .vmulF32_16 b d
  | 3 => .vmaxF32_16 b d
  | 4 => .vminF32_16 b d
  | 5 => .vaddI32_16 b d
  | 6 => .vsubI32_16 b d
  | 7 => .vand16 b d
  | 8 => .vor16 b d
  | 9 => .vxor16 b d
  | 10 => .vmov16 b d
  | 11 => .vaddF16x2_16 b d
  | 12 => .vmulF16x2_16 b d
  | 13 => .vaddBf16x2_16 b d
  | 14 => .vmulBf16x2_16 b d
  | _ => .vshl16 b d

/-- Major 0x1F (11 R240): the four kinds of fence; kind 2 takes acq only (R239). -/
def decFence (c : Ctl) (o : Ord) (s : Option Scope) (x : BitVec 11) (kind : Nat) : Raw :=
  if kind ≥ 4 then .error (.illegal 1)
  else s.elim (.error (.illegal 2)) fun s =>
    match kind with
    | 0 => .ok (.fence c o s, x == 0)
    | 1 => .ok (.fenceE c o s, x == 0)
    | 2 => if o = .acq then .ok (.fenceI c s, x == 0) else .error (.illegal 2)
    | _ => .ok (.fenceT c o s, x == 0)

/-- Major 0x2C (11 R240): bar, barn and barw. -/
def decBar (c : Ctl) (s : Option Scope) (a b : Spec) (x : BitVec 4) (kind : Nat) : Raw :=
  if kind ≥ 3 then .error (.illegal 1)
  else s.elim (.error (.illegal 2)) fun s =>
    match kind with
    | 0 => .ok (.bar c s a b, x == 0)
    | 1 => .ok (.barn c s a b, x == 0)
    | _ => .ok (.barw c s a b, x == 0)


/-- The instruction of a 32-bit word, and whether every reserved or unused field is zero (11 R236, R240, R241). -/
def decodeRaw (w : W32) : Raw :=
  let c := ctlOf w
  let d := fRd w
  let a := fRa w
  let b := fRb w
  let fn := (fFn w).toNat
  match (fMajor w).toNat with
  | 0x00 => decAlu c d a b fn
  | 0x01 => decAlu2 c d a b fn
  | 0x02 => .ok (.addi c d a (fImm9 w), true)
  | 0x03 => .ok (.andi c d a (fImm9 w), true)
  | 0x04 => .ok (.ori c d a (fImm9 w), true)
  | 0x05 => .ok (.xori c d a (fImm9 w), true)
  | 0x06 => .ok (.shli c d a (w.extractLsb' 13 6), w.extractLsb' 19 3 == 0)
  | 0x07 => .ok (.shri c d a (w.extractLsb' 13 6), w.extractLsb' 19 3 == 0)
  | 0x08 => .ok (.srai c d a (w.extractLsb' 13 6), w.extractLsb' 19 3 == 0)
  | 0x09 => .ok (.li c d (fImm14 w), true)
  | 0x0A => .ok (.lis c d (fImm14 w), true)
  | 0x0B => .ok (.adpc c d (fImm14 w), true)
  | 0x0C => (PCond.ofBits (fCc w)).elim (.error (.illegal 1)) fun f => .ok (.pcmp c (fPd w) (fPe w) (fPra w) (fPrb w) f, true)
  | 0x0D => decPlog c (fPd w) (fPe w) (w.extractLsb' 23 3) (w.extractLsb' 18 5) (w.extractLsb' 17 1) fn
  | 0x0E => .ok (.vcmpf c (fPd w) (fPe w) (fPra w) (fPrb w) (FCond.ofBits (fCc w)), true)
  | 0x0F => .ok (.vcmpi c (fPd w) (fPe w) (fPra w) (fPrb w) (ICond.ofBits (fCc w)), true)
  | 0x10 => .ok (.br c (w.extractLsb' 13 19), true)
  | 0x11 => .ok (.call c (w.extractLsb' 13 19), true)
  | 0x12 => decCtl c d a b fn
  | 0x13 => .ok (.rep c d (w.extractLsb' 23 4) (w.extractLsb' 19 4), w.extractLsb' 13 6 == 0)
  | 0x14 => (Scope.ofBits (w.extractLsb' 17 3)).elim (.error (.illegal 2)) fun s =>
      .ok (.ld c d a (Ord.ofBits (w.extractLsb' 20 2)) s (w.extractLsb' 15 2) (w.getLsbD 14), w.extractLsb' 13 1 == 0)
  | 0x15 => (Scope.ofBits (w.extractLsb' 17 3)).elim (.error (.illegal 2)) fun s =>
      .ok (.st c d a (Ord.ofBits (w.extractLsb' 20 2)) s (w.extractLsb' 15 2) (w.getLsbD 14), w.extractLsb' 13 1 == 0)
  | 0x16 => .ok (.ldo c d a (w.extractLsb' 20 2) (w.extractLsb' 13 7), true)
  | 0x17 => .ok (.sto c d a (w.extractLsb' 20 2) (w.extractLsb' 13 7), true)
  | 0x18 => (Scope.ofBits (w.extractLsb' 17 3)).elim (.error (.illegal 2)) fun s =>
      .ok (.vld c d a (Ord.ofBits (w.extractLsb' 20 2)) s (w.extractLsb' 15 2) (w.getLsbD 14), w.extractLsb' 13 1 == 0)
  | 0x19 => (Scope.ofBits (w.extractLsb' 17 3)).elim (.error (.illegal 2)) fun s =>
      .ok (.vst c d a (Ord.ofBits (w.extractLsb' 20 2)) s (w.extractLsb' 15 2) (w.getLsbD 14), w.extractLsb' 13 1 == 0)
  | 0x1A => (XSize.ofBits (fFn w)).elim (.error (.illegal 1)) fun e => .ok (.vldx c d a b e, true)
  | 0x1B => (XSize.ofBits (fFn w)).elim (.error (.illegal 1)) fun e => .ok (.vstx c d a b e, true)
  | 0x1C => if w.getLsbD 16 then (Scope.ofBits (w.extractLsb' 17 3)).elim (.error (.illegal 2)) fun s =>
      .ok (.ldf c d a (Ord.ofBits (w.extractLsb' 20 2)) s (w.extractLsb' 15 1) (w.getLsbD 14), w.extractLsb' 13 1 == 0)
    else .error (.illegal 1)
  | 0x1D => decFeop c d a b fn
  | 0x1E => (Aop.ofBits (w.extractLsb' 18 4)).elim (.error (.illegal 1)) fun f =>
      (Scope.ofBits (w.extractLsb' 13 3)).elim (.error (.illegal 2)) fun s =>
      .ok (.amo c d a f (Ord.ofBits (w.extractLsb' 16 2)) s, true)
  | 0x1F => decFence c (Ord.ofBits (w.extractLsb' 30 2)) (Scope.ofBits (w.extractLsb' 27 3)) (w.extractLsb' 13 11) (w.extractLsb' 24 3).toNat
  | 0x20 => decValu c d a b fn
  | 0x21 => decVfp c d a b fn
  | 0x22 => decVfma c d a b fn
  | 0x23 => decVhalf c d a b fn
  | 0x24 => decVcvt c d a b fn
  | 0x25 => decVperm c d a b fn
  | 0x26 => decVred c d a b fn
  | 0x28 => .ok (.mset c a (fImm9 w), d == 0)
  | 0x29 => decMtx c d a b fn
  | 0x2A => decMsg c d a b fn
  | 0x2B => decTime c d a b fn
  | 0x2C => decBar c (Scope.ofBits (w.extractLsb' 27 3)) a b (w.extractLsb' 13 4) (w.extractLsb' 30 2).toNat
  | 0x2D => decRing c d a b fn
  | 0x2E => decTask c d a b fn
  | 0x2F => decCopy c d a b fn
  | 0x30 => decStor c d a b fn
  | 0x31 => decQss c d a b fn
  | 0x32 => .ok (.mfc c d (fImm9 w), a == 0)
  | 0x33 => .ok (.mtc c d (fImm9 w), a == 0)
  | 0x34 => decSys c d a b fn
  | _ => .error (.illegal 1)

/-- The checks of a decoded word in the order of 10 R210: fault.illegal for the encoding, then the reserved fields. -/
def finish (r : Raw) : Except DecErr Instr :=
  match r with
  | .error e => .error e
  | .ok (i, rsv) =>
    match i.encFault with
    | some k => .error (.illegal k)
    | none => if rsv then .ok i else .error .rsvField

/-- A 32-bit word (11 R234). -/
def decode32 (w : W32) : Except DecErr Instr := finish (decodeRaw w)

/-- A 16-bit word (11 R235). -/
def decode16 (w : BitVec 16) : Except DecErr Instr :=
  finish (.ok (dec16 (w.extractLsb' 5 5) (w.extractLsb' 10 5) (w.extractLsb' 1 4).toNat, !w.getLsbD 15))

/-- The instruction at the front of a byte sequence, with its length (11 R233). -/
def decode (bs : List Byte) : Except DecErr (Instr × Nat) :=
  match bs with
  | b0 :: b1 :: rest =>
    if b0.getLsbD 0 then
      match rest with
      | b2 :: b3 :: _ => (decode32 (b3 ++ b2 ++ b1 ++ b0)).map fun i => (i, 4)
      | _ => .error .short
    else (decode16 (b1 ++ b0)).map fun i => (i, 2)
  | _ => .error .short

/-- The low seven bits of a 32-bit word (11 R234). -/
def encCtl (c : Ctl) : BitVec 7 := c.w ++ BitVec.ofBool c.n ++ c.g ++ 1#1

/-- Layout R (11 R236). -/
def encR (d a b : Spec) (fn : BitVec 4) (m : BitVec 6) (c : Ctl) : W32 := d ++ a ++ b ++ fn ++ m ++ encCtl c
/-- Layout I. -/
def encI (d a : Spec) (i : BitVec 9) (m : BitVec 6) (c : Ctl) : W32 := d ++ a ++ i ++ m ++ encCtl c
/-- Layout U. -/
def encU (d : Spec) (i : BitVec 14) (m : BitVec 6) (c : Ctl) : W32 := d ++ i ++ m ++ encCtl c
/-- Layout J. -/
def encJ (o : BitVec 19) (m : BitVec 6) (c : Ctl) : W32 := o ++ m ++ encCtl c
/-- Layout M. -/
def encM (d a : Spec) (o : Ord) (s : Scope) (z : BitVec 2) (t : Bool) (m : BitVec 6) (c : Ctl) : W32 :=
  d ++ a ++ o.bits ++ s.bits ++ z ++ BitVec.ofBool t ++ 0#1 ++ m ++ encCtl c
/-- Layout O. -/
def encO (d a : Spec) (z : BitVec 2) (f : BitVec 7) (m : BitVec 6) (c : Ctl) : W32 := d ++ a ++ z ++ f ++ m ++ encCtl c
/-- Layout A. -/
def encA (d a : Spec) (f : Aop) (o : Ord) (s : Scope) (c : Ctl) : W32 :=
  d ++ a ++ f.bits ++ o.bits ++ s.bits ++ 0x1E#6 ++ encCtl c
/-- Layout P. -/
def encP (p e : PSpec) (a b : Spec) (cc : BitVec 3) (m : BitVec 6) (c : Ctl) : W32 := p ++ e ++ a ++ b ++ cc ++ m ++ encCtl c
/-- Layout PL. -/
def encPL (p q r : PSpec) (a : Spec) (fn : BitVec 4) (c : Ctl) : W32 := p ++ q ++ r ++ a ++ 0#1 ++ fn ++ 0x0D#6 ++ encCtl c
/-- Layout FN. -/
def encFence (o : Ord) (s : Scope) (kind : BitVec 3) (c : Ctl) : W32 := o.bits ++ s.bits ++ kind ++ 0#11 ++ 0x1F#6 ++ encCtl c
/-- Layout BARF. -/
def encBar (kind : BitVec 2) (s : Scope) (a b : Spec) (c : Ctl) : W32 := kind ++ s.bits ++ a ++ b ++ 0#4 ++ 0x2C#6 ++ encCtl c
/-- Layout REP. -/
def encRep (a : Spec) (l s : BitVec 4) (c : Ctl) : W32 := a ++ l ++ s ++ 0#6 ++ 0x13#6 ++ encCtl c
/-- A 16-bit word (11 R235). -/
def enc16 (b d : Spec) (op : BitVec 4) : BitVec 16 := 0#1 ++ b ++ d ++ op ++ 0#1

/-- The word of an instruction; an event has none. -/
inductive Code where
  | w32 (w : W32)
  | w16 (w : BitVec 16)
  | event
deriving DecidableEq, Repr

/-- The word of an instruction, from the layouts and codes of 11 R234 to R240. -/
def encode (i : Instr) : Code :=
  match i with
  | .add c d a b => .w32 (encR d a b 0 0x00 c)
  | .sub c d a b => .w32 (encR d a b 1 0x00 c)
  | .and c d a b => .w32 (encR d a b 2 0x00 c)
  | .or c d a b => .w32 (encR d a b 3 0x00 c)
  | .xor c d a b => .w32 (encR d a b 4 0x00 c)
  | .andn c d a b => .w32 (encR d a b 5 0x00 c)
  | .shl c d a b => .w32 (encR d a b 6 0x00 c)
  | .shr c d a b => .w32 (encR d a b 7 0x00 c)
  | .sra c d a b => .w32 (encR d a b 8 0x00 c)
  | .mul c d a b => .w32 (encR d a b 9 0x00 c)
  | .mulh c d a b => .w32 (encR d a b 10 0x00 c)
  | .mulhu c d a b => .w32 (encR d a b 11 0x00 c)
  | .min c d a b => .w32 (encR d a b 12 0x00 c)
  | .max c d a b => .w32 (encR d a b 13 0x00 c)
  | .minu c d a b => .w32 (encR d a b 14 0x00 c)
  | .maxu c d a b => .w32 (encR d a b 15 0x00 c)
  | .div c d a b => .w32 (encR d a b 0 0x01 c)
  | .divu c d a b => .w32 (encR d a b 1 0x01 c)
  | .rem c d a b => .w32 (encR d a b 2 0x01 c)
  | .remu c d a b => .w32 (encR d a b 3 0x01 c)
  | .clz c d a => .w32 (encR d a 0 4 0x01 c)
  | .ctz c d a => .w32 (encR d a 0 5 0x01 c)
  | .popc c d a => .w32 (encR d a 0 6 0x01 c)
  | .brev c d a => .w32 (encR d a 0 7 0x01 c)
  | .sext8 c d a => .w32 (encR d a 0 8 0x01 c)
  | .sext16 c d a => .w32 (encR d a 0 9 0x01 c)
  | .sext32 c d a => .w32 (encR d a 0 10 0x01 c)
  | .zext32 c d a => .w32 (encR d a 0 11 0x01 c)
  | .bswap c d a => .w32 (encR d a 0 12 0x01 c)
  | .rol c d a b => .w32 (encR d a b 13 0x01 c)
  | .addw c d a b => .w32 (encR d a b 14 0x01 c)
  | .addi c d a i => .w32 (encI d a i 0x02 c)
  | .andi c d a i => .w32 (encI d a i 0x03 c)
  | .ori c d a i => .w32 (encI d a i 0x04 c)
  | .xori c d a i => .w32 (encI d a i 0x05 c)
  | .shli c d a s => .w32 (encI d a (0#3 ++ s) 0x06 c)
  | .shri c d a s => .w32 (encI d a (0#3 ++ s) 0x07 c)
  | .srai c d a s => .w32 (encI d a (0#3 ++ s) 0x08 c)
  | .li c d i => .w32 (encU d i 0x09 c)
  | .lis c d i => .w32 (encU d i 0x0A c)
  | .adpc c d i => .w32 (encU d i 0x0B c)
  | .pcmp c p e a b f => .w32 (encP p e a b f.bits 0x0C c)
  | .pand c p q r => .w32 (encPL p q r 0 0 c)
  | .por c p q r => .w32 (encPL p q r 0 1 c)
  | .pxor c p q r => .w32 (encPL p q r 0 2 c)
  | .pandn c p q r => .w32 (encPL p q r 0 3 c)
  | .pnot c p q => .w32 (encPL p q 0 0 4 c)
  | .pset c p a => .w32 (encPL p 0 0 a 5 c)
  | .pget c q a => .w32 (encPL 0 q 0 a 6 c)
  | .pcnt c q r a => .w32 (encPL 0 q r a 7 c)
  | .pfirst c q r a => .w32 (encPL 0 q r a 8 c)
  | .vcmpf c p e a b f => .w32 (encP p e a b f.bits 0x0E c)
  | .vcmpi c p e a b f => .w32 (encP p e a b f.bits 0x0F c)
  | .br c o => .w32 (encJ o 0x10 c)
  | .call c o => .w32 (encJ o 0x11 c)
  | .jr c a => .w32 (encR 0 a 0 0 0x12 c)
  | .callr c a => .w32 (encR 0 a 0 1 0x12 c)
  | .ret c => .w32 (encR 0 0 0 2 0x12 c)
  | .endTask c => .w32 (encR 0 0 0 3 0x12 c)
  | .brk c => .w32 (encR 0 0 0 4 0x12 c)
  | .park c a => .w32 (encR 0 a 0 5 0x12 c)
  | .rsync c => .w32 (encR 0 0 0 6 0x12 c)
  | .rep c a l s => .w32 (encRep a l s c)
  | .ld c d a o s z t => .w32 (encM d a o s z t 0x14 c)
  | .st c d a o s z t => .w32 (encM d a o s z t 0x15 c)
  | .ldo c d a z f => .w32 (encO d a z f 0x16 c)
  | .sto c d a z f => .w32 (encO d a z f 0x17 c)
  | .vld c d a o s z t => .w32 (encM d a o s z t 0x18 c)
  | .vst c d a o s z t => .w32 (encM d a o s z t 0x19 c)
  | .vldx c d a b e => .w32 (encR d a b e.bits 0x1A c)
  | .vstx c d a b e => .w32 (encR d a b e.bits 0x1B c)
  | .ldf c d a o s z t => .w32 (encM d a o s (1#1 ++ z) t 0x1C c)
  | .fset c a => .w32 (encR 0 a 0 0 0x1D c)
  | .fclr c a => .w32 (encR 0 a 0 1 0x1D c)
  | .stf c a b => .w32 (encR 0 a b 2 0x1D c)
  | .fprobe c d a => .w32 (encR d a 0 3 0x1D c)
  | .amo c d a f o s => .w32 (encA d a f o s c)
  | .fence c o s => .w32 (encFence o s 0 c)
  | .fenceE c o s => .w32 (encFence o s 1 c)
  | .fenceI c s => .w32 (encFence .acq s 2 c)
  | .fenceT c o s => .w32 (encFence o s 3 c)
  | .vaddI32 c d a b => .w32 (encR d a b 0 0x20 c)
  | .vsubI32 c d a b => .w32 (encR d a b 1 0x20 c)
  | .vmulI32 c d a b => .w32 (encR d a b 2 0x20 c)
  | .vmulhI32 c d a b => .w32 (encR d a b 3 0x20 c)
  | .vand c d a b => .w32 (encR d a b 4 0x20 c)
  | .vor c d a b => .w32 (encR d a b 5 0x20 c)
  | .vxor c d a b => .w32 (encR d a b 6 0x20 c)
  | .vandn c d a b => .w32 (encR d a b 7 0x20 c)
  | .vshl c d a b => .w32 (encR d a b 8 0x20 c)
  | .vshr c d a b => .w32 (encR d a b 9 0x20 c)
  | .vsra c d a b => .w32 (encR d a b 10 0x20 c)
  | .vminI32 c d a b => .w32 (encR d a b 11 0x20 c)
  | .vmaxI32 c d a b => .w32 (encR d a b 12 0x20 c)
  | .vminN32 c d a b => .w32 (encR d a b 13 0x20 c)
  | .vmaxN32 c d a b => .w32 (encR d a b 14 0x20 c)
  | .vabsI32 c d a => .w32 (encR d a 0 15 0x20 c)
  | .vaddF32 c d a b => .w32 (encR d a b 0 0x21 c)
  | .vsubF32 c d a b => .w32 (encR d a b 1 0x21 c)
  | .vmulF32 c d a b => .w32 (encR d a b 2 0x21 c)
  | .vminF32 c d a b => .w32 (encR d a b 3 0x21 c)
  | .vmaxF32 c d a b => .w32 (encR d a b 4 0x21 c)
  | .vabsF32 c d a => .w32 (encR d a 0 5 0x21 c)
  | .vnegF32 c d a => .w32 (encR d a 0 6 0x21 c)
  | .vsqrtF32 c d a => .w32 (encR d a 0 7 0x21 c)
  | .vrcpF32 c d a => .w32 (encR d a 0 8 0x21 c)
  | .vrsqF32 c d a => .w32 (encR d a 0 9 0x21 c)
  | .vexp2F32 c d a => .w32 (encR d a 0 10 0x21 c)
  | .vlog2F32 c d a => .w32 (encR d a 0 11 0x21 c)
  | .vfloorF32 c d a => .w32 (encR d a 0 12 0x21 c)
  | .vceilF32 c d a => .w32 (encR d a 0 13 0x21 c)
  | .vrintF32 c d a => .w32 (encR d a 0 14 0x21 c)
  | .vcopysignF32 c d a b => .w32 (encR d a b 15 0x21 c)
  | .vfmaF32 c d a b => .w32 (encR d a b 0 0x22 c)
  | .vfmsF32 c d a b => .w32 (encR d a b 1 0x22 c)
  | .vfnmaF32 c d a b => .w32 (encR d a b 2 0x22 c)
  | .vfmaF16x2 c d a b => .w32 (encR d a b 3 0x22 c)
  | .vfmaBf16x2 c d a b => .w32 (encR d a b 4 0x22 c)
  | .vdot2F16 c d a b => .w32 (encR d a b 5 0x22 c)
  | .vdot2Bf16 c d a b => .w32 (encR d a b 6 0x22 c)
  | .vdot4I8 c d a b => .w32 (encR d a b 7 0x22 c)
  | .vdot4N8 c d a b => .w32 (encR d a b 8 0x22 c)
  | .vaddF16x2 c d a b => .w32 (encR d a b 0 0x23 c)
  | .vsubF16x2 c d a b => .w32 (encR d a b 1 0x23 c)
  | .vmulF16x2 c d a b => .w32 (encR d a b 2 0x23 c)
  | .vmaxF16x2 c d a b => .w32 (encR d a b 3 0x23 c)
  | .vminF16x2 c d a b => .w32 (encR d a b 4 0x23 c)
  | .vaddBf16x2 c d a b => .w32 (encR d a b 5 0x23 c)
  | .vsubBf16x2 c d a b => .w32 (encR d a b 6 0x23 c)
  | .vmulBf16x2 c d a b => .w32 (encR d a b 7 0x23 c)
  | .vmaxBf16x2 c d a b => .w32 (encR d a b 8 0x23 c)
  | .vminBf16x2 c d a b => .w32 (encR d a b 9 0x23 c)
  | .vcvtF32I32 c d a => .w32 (encR d a 0 0 0x24 c)
  | .vcvtI32F32 c d a => .w32 (encR d a 0 1 0x24 c)
  | .vcvtF32N32 c d a => .w32 (encR d a 0 2 0x24 c)
  | .vcvtN32F32 c d a => .w32 (encR d a 0 3 0x24 c)
  | .vpackF16x2 c d a b => .w32 (encR d a b 4 0x24 c)
  | .vpackBf16x2 c d a b => .w32 (encR d a b 5 0x24 c)
  | .vcvtF32F16 c d a k => .w32 (encR d a k 6 0x24 c)
  | .vcvtF32Bf16 c d a k => .w32 (encR d a k 7 0x24 c)
  | .vcvtB8F32 c d a k => .w32 (encR d a k 8 0x24 c)
  | .vcvtF32B8 c d a k => .w32 (encR d a k 9 0x24 c)
  | .vcvtE5m3F32 c d a k => .w32 (encR d a k 10 0x24 c)
  | .vcvtF32E5m3 c d a k => .w32 (encR d a k 11 0x24 c)
  | .vmov c d b => .w32 (encR d 0 b 0 0x25 c)
  | .vbcast c d a => .w32 (encR d a 0 1 0x25 c)
  | .vins c d a b => .w32 (encR d a b 2 0x25 c)
  | .vext c d a b => .w32 (encR d a b 3 0x25 c)
  | .vshuf c d a b => .w32 (encR d a b 4 0x25 c)
  | .vrot c d a b => .w32 (encR d a b 5 0x25 c)
  | .vzlo c d a b => .w32 (encR d a b 6 0x25 c)
  | .vzhi c d a b => .w32 (encR d a b 7 0x25 c)
  | .viota c d => .w32 (encR d 0 0 8 0x25 c)
  | .vsumI32 c d a => .w32 (encR d a 0 0 0x26 c)
  | .vsumF32 c d a => .w32 (encR d a 0 1 0x26 c)
  | .vmaxrF32 c d a => .w32 (encR d a 0 2 0x26 c)
  | .vminrF32 c d a => .w32 (encR d a 0 3 0x26 c)
  | .vmaxrI32 c d a => .w32 (encR d a 0 4 0x26 c)
  | .vminrI32 c d a => .w32 (encR d a 0 5 0x26 c)
  | .vargmaxF32 c d a => .w32 (encR d a 0 6 0x26 c)
  | .vorr c d a => .w32 (encR d a 0 7 0x26 c)
  | .mset c a i => .w32 (encI 0 a i 0x28 c)
  | .wld c a => .w32 (encR 0 a 0 0 0x29 c)
  | .wswap c a => .w32 (encR 0 a 0 1 0x29 c)
  | .xstr c a => .w32 (encR 0 a 0 2 0x29 c)
  | .mwait c a => .w32 (encR 0 a 0 3 0x29 c)
  | .tcfg c d a b => .w32 (encR d a b 4 0x29 c)
  | .tzero c a b => .w32 (encR 0 a b 5 0x29 c)
  | .tout c a => .w32 (encR 0 a 0 6 0x29 c)
  | .msend c d a b => .w32 (encR d a b 7 0x29 c)
  | .mburst c a => .w32 (encR 0 a 0 8 0x29 c)
  | .mstat c d => .w32 (encR d 0 0 9 0x29 c)
  | .send c d a b => .w32 (encR d a b 0 0x2A c)
  | .mcast c d a b => .w32 (encR d a b 1 0x2A c)
  | .recv c d a b => .w32 (encR d a b 2 0x2A c)
  | .mprobe c d a b => .w32 (encR d a b 3 0x2A c)
  | .hdlr c a b => .w32 (encR 0 a b 4 0x2A c)
  | .fhold c a b => .w32 (encR 0 a b 0 0x2B c)
  | .fdrop c a b => .w32 (encR 0 a b 1 0x2B c)
  | .fwait c d a b => .w32 (encR d a b 2 0x2B c)
  | .fread c d a => .w32 (encR d a 0 3 0x2B c)
  | .bar c s a b => .w32 (encBar 0 s a b c)
  | .barn c s a b => .w32 (encBar 1 s a b c)
  | .barw c s a b => .w32 (encBar 2 s a b c)
  | .racq c d a b => .w32 (encR d a b 0 0x2D c)
  | .rpub c cl a b => .w32 (encR (0#4 ++ BitVec.ofBool cl) a b 1 0x2D c)
  | .rtake c d a b => .w32 (encR d a b 2 0x2D c)
  | .rrel c a b => .w32 (encR 0 a b 3 0x2D c)
  | .rstat c d a k => .w32 (encR d a k 4 0x2D c)
  | .jpost c a b => .w32 (encR 0 a b 0 0x2E c)
  | .gfork c d a b => .w32 (encR d a b 1 0x2E c)
  | .grwd c a => .w32 (encR 0 a 0 2 0x2E c)
  | .gjoin c d a => .w32 (encR d a 0 3 0x2E c)
  | .gcancel c a => .w32 (encR 0 a 0 4 0x2E c)
  | .gstat c d a => .w32 (encR d a 0 5 0x2E c)
  | .cadv c a b => .w32 (encR 0 a b 0 0x2F c)
  | .cwm c d a => .w32 (encR d a 0 1 0x2F c)
  | .cwait c a b => .w32 (encR 0 a b 2 0x2F c)
  | .cstat c d a => .w32 (encR d a 0 3 0x2F c)
  | .sread c a b => .w32 (encR 0 a b 0 0x30 c)
  | .swrite c a b => .w32 (encR 0 a b 1 0x30 c)
  | .sflush c a b => .w32 (encR 0 a b 2 0x30 c)
  | .sstat c d a => .w32 (encR d a 0 3 0x30 c)
  | .qdef c a b => .w32 (encR 0 a b 0 0x31 c)
  | .qslope c a b => .w32 (encR 0 a b 1 0x31 c)
  | .qread c d a => .w32 (encR d a 0 2 0x31 c)
  | .qquant c a b => .w32 (encR 0 a b 3 0x31 c)
  | .qsnap c d a b => .w32 (encR d a b 4 0x31 c)
  | .qstat c d a => .w32 (encR d a 0 5 0x31 c)
  | .mfc c d i => .w32 (encI d 0 i 0x32 c)
  | .mtc c d i => .w32 (encI d 0 i 0x33 c)
  | .tlbinv c a b => .w32 (encR 0 a b 0 0x34 c)
  | .tlbsync c a => .w32 (encR 0 a 0 1 0x34 c)
  | .wdog c a => .w32 (encR 0 a 0 2 0x34 c)
  | .dstop c a => .w32 (encR 0 a 0 3 0x34 c)
  | .vaddF32_16 b d => .w16 (enc16 b d 0)
  | .vsubF32_16 b d => .w16 (enc16 b d 1)
  | .vmulF32_16 b d => .w16 (enc16 b d 2)
  | .vmaxF32_16 b d => .w16 (enc16 b d 3)
  | .vminF32_16 b d => .w16 (enc16 b d 4)
  | .vaddI32_16 b d => .w16 (enc16 b d 5)
  | .vsubI32_16 b d => .w16 (enc16 b d 6)
  | .vand16 b d => .w16 (enc16 b d 7)
  | .vor16 b d => .w16 (enc16 b d 8)
  | .vxor16 b d => .w16 (enc16 b d 9)
  | .vmov16 b d => .w16 (enc16 b d 10)
  | .vaddF16x2_16 b d => .w16 (enc16 b d 11)
  | .vmulF16x2_16 b d => .w16 (enc16 b d 12)
  | .vaddBf16x2_16 b d => .w16 (enc16 b d 13)
  | .vmulBf16x2_16 b d => .w16 (enc16 b d 14)
  | .vshl16 b d => .w16 (enc16 b d 15)
  | .bindTask .. => .event
  | .taskLocalZeroing .. => .event
  | .handlerBind .. => .event
  | .stageBind .. => .event
  | .dealChunk .. => .event
  | .requeueListEntry .. => .event
  | .gforkSiblingsEnter .. => .event
  | .neighbourLevelling .. => .event
  | .levellingShipment .. => .event
  | .shipmentAcknowledge .. => .event
  | .shipmentBounce .. => .event
  | .stageGovernor .. => .event
  | .messageInjection .. => .event
  | .messageDelivery .. => .event
  | .refusedMessageReoffer .. => .event
  | .routerGroupMessage .. => .event
  | .deltaFlushAge .. => .event
  | .tilthBatchAccept .. => .event
  | .rootBatchApply .. => .event
  | .frontierBroadcast .. => .event
  | .resultLanding .. => .event
  | .waitSatisfied .. => .event
  | .waitExpiry .. => .event
  | .watchdogExpiry .. => .event
  | .faultPacketReoffer .. => .event
  | .pageWalk .. => .event
  | .siltSubmission .. => .event
  | .nvmeCompletion .. => .event
  | .tlbinvAcknowledge .. => .event
  | .copyEntryRelease .. => .event
  | .copyLineWritten .. => .event
  | .copyEntryComplete .. => .event
  | .arrayCommandStart .. => .event
  | .arrayCommandComplete .. => .event
  | .msendCommandArrival .. => .event
  | .msendReply .. => .event
  | .arrayRampDown .. => .event
  | .tokenPass .. => .event
  | .crossingFiring .. => .event
  | .qsnapSample .. => .event
  | .groupDeadline .. => .event
  | .cancelledSiblingEnd .. => .event
  | .barrierCompletion .. => .event
  | .scaleupAtomicRequest .. => .event
  | .scaleupAtomicReply .. => .event
  | .scaleupRetransmit .. => .event
  | .linkFailure .. => .event
  | .gangSwitchRequest .. => .event
  | .gangSwitchStart .. => .event
  | .gangSwitchSave .. => .event
  | .gangSwitchRestore .. => .event
  | .haltStopCommand .. => .event
  | .haltRelease .. => .event
  | .dctlResume .. => .event
  | .dctlRestart .. => .event
  | .dctlKill .. => .event
  | .swcmdRequeue .. => .event
  | .swcmdKill .. => .event
  | .partitionForm .. => .event
  | .partitionDissolve .. => .event
  | .contextCreate .. => .event
  | .contextDestroy .. => .event
  | .graphLoad .. => .event
  | .routerEntryWrite .. => .event
  | .capabilityEntryWrite .. => .event
  | .ringEntryDiscard .. => .event
  | .deadLetterHeadWrite .. => .event
  | .hostQueueConfig .. => .event
  | .hostQueueDoorbell .. => .event
  | .hostQueueEntry .. => .event
  | .hostHbmAccess .. => .event
  | .firmwareLoad .. => .event
  | .attestationRequest .. => .event
  | .attestationReady .. => .event
  | .powerConfigWrite .. => .event
  | .registerWrite .. => .event
  | .deviceReset .. => .event
  | .uncorrectableError .. => .event
  | .correctedError .. => .event
  | .quadFence .. => .event
  | .thermalThrottle .. => .event
  | .thermalTrip .. => .event
  | .storeReachesHome .. => .event
  | .copyChannelRestart .. => .event
  | .hostCompletionHeadWrite .. => .event
  | .supervisorQueueHeadWrite .. => .event
  | .freeFrameTailWrite .. => .event
  | .jobQueueAssign .. => .event
  | .frameZeroingComplete .. => .event
  | .burstHoldExpiry .. => .event
  | .linkLevelReplay .. => .event
  | .thermalThrottleEnd .. => .event

/-- The bytes of a word, least significant first (00 R7). -/
def Code.bytes (x : Code) : List Byte :=
  match x with
  | .w32 w => [w.extractLsb' 0 8, w.extractLsb' 8 8, w.extractLsb' 16 8, w.extractLsb' 24 8]
  | .w16 w => [w.extractLsb' 0 8, w.extractLsb' 8 8]
  | .event => []

/-- The instruction is one that has a word. -/
def Instr.encoded (i : Instr) : Bool := encode i != .event

/-- The bytes of the low nbits bits of w, least significant first, padded with zeros to the longest instruction. -/
def tableBytes (nbits w : Nat) : List Byte :=
  let v := w % 2 ^ nbits
  [BitVec.ofNat 8 v, BitVec.ofNat 8 (v / 2 ^ 8), BitVec.ofNat 8 (v / 2 ^ 16), BitVec.ofNat 8 (v / 2 ^ 24)]

/-- The instruction the decoder reads from the table's numbering of bits. -/
def decodeTableWord (nbits w : Nat) : Option Instr :=
  match decode (tableBytes nbits w) with
  | .ok (i, _) => some i
  | .error _ => none

end Sys2Proof
end

