-- ==== Sys2Proof/Machine/State.lean ====
section
/-! DEFINITION. The state of the package: plain data. Everything that belongs to a context is keyed by the context and
by relative coordinates, so that a gang switch moves no data (01 R12, R13); what belongs to a die or to the package is
keyed by physical numbers. -/

namespace Sys2Proof.Machine

open Sys2Proof

/-- A sparse table: keys rising. -/
abbrev Map (α : Type) := List (Nat × α)

/-! ## Registers -/

/-- A register of a slot by its physical place: a global, an entry of the scalar ring, a vector, a predicate
(04 R86, R87). -/
inductive Reg where
  | g (n : PSpec)
  | ring (j : BitVec 6)
  | v (n : Spec)
  | p (n : PSpec)
deriving DecidableEq, Repr

/-- A register write: for a vector or predicate, in the lanes of the mask. -/
inductive RegWrite where
  | g (n : PSpec) (x : Word)
  | ring (j : BitVec 6) (x : Word)
  | v (n : Spec) (x : Vec) (mask : W32)
  | p (n : PSpec) (x : W32) (mask : W32)
deriving DecidableEq, Repr

/-- A fixed-latency result on its way: it lands when the cycle count reaches due (04 R94). -/
structure Pend where
  w : RegWrite
  due : Nat
deriving DecidableEq, Repr

/-- One element of a load in flight: the lane it goes to, the memory keys of its bytes, the task address. -/
structure LoadPart where
  lane : Nat
  keys : List Nat
  va : Nat
deriving DecidableEq, Repr

/-- A full-empty operation on one word: its bit set, cleared, a word stored and the bit set, the bit read into a register (13 R282). -/
inductive FeOp where
  | fset
  | fclr
  | stf (x : W32)
  | fprobe (dst : Reg)
deriving DecidableEq, Repr

/-- What a busy register waits for (04 R96), and what is on its way to a home: a value sampled at issue, that of an acquiring load already read (09 R188), a
value that lands at a cycle the manual names (12 R253), a load whose bytes are read when it lands (13 R276), the result of an
atomic on another package, with the scope it acquires at (08 R181), an atomic that its word's home has still to execute (13 R283), a
full-empty operation that its word's home has still to execute (13 R282). -/
inductive Flight where
  | value (ws : List RegWrite)
  | acquired (ws : List RegWrite) (sc : Scope)
  | timed (ws : List RegWrite) (due : Nat)
  | load (dst : Reg) (parts : List LoadPart) (mask : W32) (bcast : Bool) (acq : Option Scope)
  | remote (dst : Reg) (pkg : Nat) (seq : Nat) (acq : Option Scope)
  | atomic (dst : Reg) (keys : List Nat) (f : Aop) (b new : W32) (acq : Option Scope)
  | fe (op : FeOp) (key : Nat)
deriving DecidableEq, Repr

/-- Class and cause of a fault with the fields of its packet (10 R209, R212, R213). -/
structure Trap where
  cls : Nat
  cause : Nat
  addr : Word := 0
  aux : W32 := 0
  idx : Word := 0
  tail : Option (Nat × BitVec 128) := none
deriving DecidableEq, Repr

/-- A bounded wait that has not finished: cause, object and the two indices (10 R213, 11 R231); for a full-empty word its
memory key besides. -/
structure WaitInfo where
  cause : Nat
  addr : Word
  i0 : Nat
  i1 : Nat
  hi : Word := 0
  key : Nat := 0
deriving DecidableEq, Repr

/-- The wait a slot is in: the instruction, its length, the limit (0 none), the cycles left, its arrival number, and the
registers that had a result on its way at issue, as the instruction read them (04 R95). -/
structure Wait where
  seq : Nat
  instr : Instr
  len : Nat
  lim : Nat
  left : Nat
  info : WaitInfo
  old : List RegWrite
deriving DecidableEq, Repr

/-- A repetition in progress: pass and step of the body, the body's length, passes, stride (12 R275). -/
structure Rep where
  pass : Nat
  passes : Nat
  pos : Nat
  len : Nat
  stride : Nat
  start : Word
deriving DecidableEq, Repr

/-- A fault packet, 64 bytes as one number, least significant byte first (10 R212). -/
abbrev Packet := BitVec 512

/-- A snapshot of work a task released: ring entry held, copy entries of a schedule that it released, matrix stream, silt request (10
R214). -/
inductive Held where
  | ring (addr : Word) (n : Word)
  | copy (sched : Nat) (ents : List Nat)
  | matrix (die quad : Nat) (id : Nat)
  | silt (id : Nat)
deriving DecidableEq, Repr

/-- What a matrix command left for the issuing slot to report: skipped, or stopped with class and cause (15 R319). -/
structure MatFail where
  id : Nat
  quad : Nat
  remote : Bool
  cls : Nat
  cause : Nat
  addr : Word
  aux : W32
  tile : Nat
  rows : Nat
  m : Nat
deriving DecidableEq, Repr

/-- How the slot is bound (01 R16): empty, running, frozen. -/
inductive Bound where
  | empty
  | running
  | frozen
deriving DecidableEq, Repr

/-- Bytes of an aperture store on their way to a register: they land with the third later instruction, or at rsync
(04 R99). -/
structure ApWrite where
  reg : Reg
  off : Nat
  bytes : List Byte
  after : Nat
deriving DecidableEq, Repr

/-! ## Messages -/

/-- A message: header, payload, weight, and whether it carries a count (06 R129, 08 R173); svc: it is a service notice (06 R130). -/
structure Msg where
  dst : Word
  src : Word
  time : Time
  payload : Vec
  loc : Nat
  weight : Nat
  counted : Bool
  poisoned : Bool
  svc : Bool := false
deriving DecidableEq, Repr

/-- A message in a send buffer (06 R135): the batch it waits for, the multicast group, whether it is out in the mesh,
the copies still to be accepted and those refused with the cycle of the refusal. -/
structure SendEnt where
  id : Nat
  msg : Msg
  batch : Nat
  group : Option Nat
  sent : Bool
  out : Nat
  refused : List (Nat × Nat)
deriving DecidableEq, Repr

/-- The tag of a mailbox entry (06 R131), with the destination its header names, which a dead letter shows (06 R140). -/
structure Tag where
  st : BitVec 2 := 0
  time : Time := 0
  src : Word := 0
  loc : Nat := 0
  seq : BitVec 16 := 0
  weight : Nat := 1
  counted : Bool := false
  poisoned : Bool := false
  dst : Word := 0
deriving DecidableEq, Repr

/-- A mailbox: mode (0 plain, 1 handler, 2 settle), handler entry, tags of the eight entries, next arrival number. -/
structure Box where
  mode : BitVec 2 := 0
  entry : Word := 0
  tags : Map Tag := []
  seq : BitVec 16 := 0
deriving DecidableEq, Repr

/-- A message in the mesh (06 R136): the sender and its send-buffer entry, the die and core of the router it stands at,
the port it came in by (0 north, 1 east, 2 south, 3 west, 4 local), its group if it is a multicast; since: the cycle in which
another class was first granted its port before it. -/
structure Flit where
  from_ : Option SlotRef
  ent : Nat
  msg : Msg
  group : Option Nat
  die : Nat
  core : Nat
  port : Nat
  since : Option Nat := none
deriving DecidableEq, Repr

/-- A combining entry of a router: group, time, the contributions by port; after a gang switch the partial message it fell out
as, with the ports it covers (07 R155, R156). -/
structure Comb where
  group : Nat
  time : Time
  parts : Map Msg
  base : Option Msg := none
  had : List Nat := []
deriving DecidableEq, Repr

/-- A matrix command on its way to another quad, or its reply on the way back (15 R321). -/
structure MCmd where
  from_ : SlotRef
  die : Nat
  quad : Nat
  kind : Nat
  keep : Bool
  tile : Nat
  shape : Word
  cap : Word
  mc : List Word
  seed : W32
  id : Nat
  pc : Word
  cid : Word
  iword : W32
deriving DecidableEq, Repr

/-- The reply to an msend: accepted, or refused with the capability cause (07 R159). -/
structure MReply where
  dst : SlotRef
  id : Nat
  cause : Nat
deriving DecidableEq, Repr

/-! ## Slot -/

/-- One task slot of a core (04). fence: the scope of a memory fence whose earlier accesses are performed before the next
store, with fenceAll before the next load too, and that of an engine fence, before the next instruction that releases an engine
(09 R189). linkErr: the fault of a lost request, taken at the next instruction
(08 R181). idw, ctxw: c.id and c.ctx where the supervisor wrote them; grpw: the fields of c.grp it wrote outside a group (04
R105). fault: a fault raised at an address, with the instruction's length, whose freeze waits for results in flight (04 R97). -/
structure Slot where
  st : Bound := .empty
  gen : BitVec 8 := 0
  prevCtx : Nat := 0
  pc : Word := 0
  npc : Word := 0
  /- registers -/
  g : Map Word := []
  ring : Map Word := []
  v : Map Vec := []
  p : Map W32 := []
  gValid : BitVec 8 := 0
  ringValid : BitVec 64 := 0
  vValid : BitVec 32 := 0
  pValid : BitVec 8 := 0
  depth : Nat := 0
  lo : Nat := 0
  rsp : Word := 0
  pend : List Pend := []
  flights : List Flight := []
  aperture : List ApWrite := []
  recent : List (Nat × RegWrite) := []
  gens : Map W32 := []
  mc : Map Word := []
  /- control registers -/
  loc : Nat := 0
  time : Time := 0
  arg : Word := 0
  rec_ : Word := 0
  card : Word := 0
  round : Word := Config.dround
  b8fmt : Word := Config.db8fmt
  check : Word := Config.dcheck
  wlimit : Word := Config.dwlimit
  seed : Word := Config.dseed
  fflags : BitVec 5 := 0
  cycles : Word := 0
  wdog : Word := 0
  stageReg : Word := 0
  mtime : Time := 0
  msrc : Word := 0
  /- what the task is -/
  cardId : Option Nat := none
  handler : Option (Nat × Nat) := none
  hmsg : Tag := {}
  stage : Option Nat := none
  grp : Option (Nat × Nat) := none
  pin : Option Nat := none
  /- control -/
  wake : Bool := false
  wdogPend : Bool := false
  cancelled : Bool := false
  rep : Option Rep := none
  wait : Option Wait := none
  walk : Option (Nat × Access × Nat) := none
  reply : Option (Nat × Nat) := none
  ready : Nat := 0
  starve : Nat := 0
  issued : Nat := 0
  zero : Option Nat := none
  inv : Nat := 0
  bars : Map Bool := []
  fails : List MatFail := []
  held : List Held := []
  fdrop : Option (Nat × Word × Option Rep) := none
  packet : Option Packet := none
  snaps : List (Nat × BitVec 128) := []
  send : List SendEnt := []
  sent : Nat := 0
  brk : Bool := false
  iword : W32 := 0
  /- fences and lost requests -/
  fence : Option Scope := none
  fenceAll : Bool := false
  fenceE : Option Scope := none
  linkErr : Option Trap := none
  fault : Option (Word × Nat × Trap) := none
  /- identity as the debug window wrote it -/
  idw : Option Word := none
  ctxw : Option Word := none
  grpw : Nat := 0
deriving DecidableEq, Repr

/-! ## Core -/

/-- The slot and the instruction that started a piece of work (10 R215): slot, c.id, address, word. -/
structure Origin where
  r : SlotRef := ⟨0, 0, 0, 0⟩
  who : Word := 0
  pc : Word := 0
  iword : W32 := 0
deriving DecidableEq, Repr

/-- An entry of a delta buffer (08 R170), with the instruction of its last decrement (10 R215). -/
structure Delta where
  loc : Nat
  time : Time
  held : Bool
  d : Int
  org : Origin := {}
deriving DecidableEq, Repr

/-- A batch of count changes on its way: its number, the die, its entries, the fdrop that waits for it with the location
and time it drops at (08 R171, R175); the core, and whether the tilth unit was full at the flush, so that its entries still
occupy the core's delta buffer (08 R174). -/
structure Batch where
  id : Nat
  die : Nat
  entries : List Delta
  owner : Option (SlotRef × Nat × Time)
  core : Nat := 0
  stuck : Bool := false
deriving DecidableEq, Repr

/-- A batch that the root has still to forward to another package's root (01 R31; 08 R172): package, number, entries. -/
structure PodOut where
  pkg : Nat
  id : Nat
  entries : List Delta
deriving DecidableEq, Repr

/-- What a crossing unit keeps of a variable: tnext, the cascade step c, whether the variable is scheduled (03 R81; 15 R324). -/
structure XVar where
  tnext : Word
  c : W32
  on : Bool
deriving DecidableEq, Repr

/-- A crossing unit: its edge, class, the scheduled variables, the count it holds; the messages of a firing of which some variables
have crossed (15 R324; 16 R341). -/
structure XUnit where
  edge : Nat
  cls : Nat
  vars : Map XVar := []
  count : Option Time := none
  part : List Msg := []
deriving DecidableEq, Repr

/-- The shared state of one core; issuedAt: the cycle after the one in which it issued last (02 R59); xsend, rsend: messages of the
crossing unit and of the router that wait to be accepted, in lists without a bound (06 R136; log 103); osend: what the send buffers of
swapped-out tasks that ended still held (06 R135; log 90). -/
structure Core where
  last : Nat := 3
  issuedAt : Nat := 0
  delta : List Delta := []
  deltaAt : Nat := 0
  xunit : Option XUnit := none
  groups : Map W32 := []
  reach : Map (BitVec 16) := []
  combs : List Comb := []
  fetched : List (Nat × List Byte) := []
  notices : List Msg := []
  xsend : List SendEnt := []
  rsend : List SendEnt := []
  osend : List SendEnt := []
deriving DecidableEq, Repr

/-! ## Quad -/

/-- A ready-ring entry (06 R144): a record of a card, a sibling of a group, a swapped-out task, or an entry reserved by
a shipment. -/
inductive RingEnt where
  | record (card : Nat) (idx : Nat)
  | sibling (card : Option Nat) (parent : SlotRef) (grec : Nat) (gdie : Nat) (sib : Nat) (dst : Spec) (pc : Word)
      (args : List Word) (loc : Nat) (time : Time) (cardAddr : Word)
  | swapped (addr : Nat)
  | reserved (ship : Nat)
deriving DecidableEq, Repr

/-- A block of siblings that waits for its batch (08 R386). -/
structure ForkWait where
  batch : Nat
  ents : List RingEnt
deriving DecidableEq, Repr

/-- A line of stores on its way home; out: it has left the store buffer and is on its way over a die bridge (05 R112; 09 R194);
rel: the widest scope at which a task that it happens before has released it; heirs: other tasks that have acquired it since, whose
releases it happens before too (09 R188). -/
structure SbEnt where
  who : SlotRef
  line : Nat
  bytes : List (Nat × Byte)
  out : Bool := false
  rel : Option Scope := none
  heirs : List SlotRef := []
deriving DecidableEq, Repr

/-- A line of the read cache (05 R111): the task address of the line, the memory line and its bytes. -/
structure RcLine where
  va : Nat
  line : Nat
  bytes : List (Nat × Byte)
deriving DecidableEq, Repr

/-- A cached translation (05 R118, R120): page address, page size as a power of two, the entry, where it lives. -/
structure TlbEnt where
  va : Nat
  bits : Nat
  pte : Word
  home : Nat
deriving DecidableEq, Repr

/-- A command of a matrix array (15 R315). -/
structure ArrCmd where
  id : Nat
  who : SlotRef
  gen : BitVec 8
  remote : Bool
  kind : Nat
  keep : Bool
  tile : Nat
  shape : Word
  mc : List Word
  seed : W32
  at_ : Nat
  pc : Word
  cid : Word
  iword : W32
deriving DecidableEq, Repr

/-- A weight bank: whether it is loaded and has ever been, what was latched with the weights, and the elements in row-major
order as decoded by format (15 R317). -/
structure Bank where
  loaded : Bool := false
  ever : Bool := false
  mc6 : Word := 0
  mc7 : Word := 0
  mc8 : Word := 0
  data : Map Byte := []
  scales : Map Byte := []
  index : Map Byte := []
deriving DecidableEq, Repr

/-- A command in execution: the cycle it started at, the cycle it ends at, filler included; the rows whose effect is there, with
the generators and the poison seen so far by a tout; ahead: the commands of the queue that it started before, though they stood
before it (15 R315, R318, R320). -/
structure ArrRun where
  cmd : ArrCmd
  start : Nat
  finish : Nat
  done : Nat := 0
  gens : Map W32 := []
  hurt : Option Trap := none
  ahead : List Nat := []
deriving DecidableEq, Repr

/-- The matrix array of a quad (15 R315 to R323). -/
structure Arr where
  queue : List ArrCmd := []
  run : List ArrRun := []
  active : Bank := {}
  shadow : Bank := {}
  tiles : Map W32 := []
  desc : Map Word := []
  pendDesc : Option (List Word) := none
  ramped : Bool := false
  rampFrom : Nat := 0
  idleAt : Nat := 0
  hold : Option Nat := none
  holdUntil : Option Nat := none
  token : Bool := false
  wantToken : Bool := false
deriving DecidableEq, Repr

/-- One stage of a pipeline (02 R55, R56). -/
structure Stage where
  desc : Word
  entry : Word
  ring : Word
  high : Nat
  low : Nat
  closed : Bool
deriving DecidableEq, Repr

/-- The pipeline a quad serves: card, stages, stage of each core by quad position, the moves pending, the governor period
last served (02 R55 to R57). -/
structure Pipe where
  card : Nat
  loc : Nat
  time : Time
  cardAddr : Word
  stages : List Stage
  cores : Map Nat
  moves : Map Nat
  governed : Nat
deriving DecidableEq, Repr

/-- The shared state of one quad; served: the cores that have taken an entry of its ring in the fabric cycle in which the others are
still to be served (02 R51). The requeue list holds save areas, oldest first; no register gives it a place in HBM, so it is data of the
quad (06 R128; log 97). -/
structure Quad where
  ring : List RingEnt := []
  requeue : List Nat := []
  forks : List ForkWait := []
  sb : List SbEnt := []
  rcache : List RcLine := []
  tlb : List TlbEnt := []
  arr : Arr := {}
  caps : Map (BitVec 128) := []
  pipe : Option Pipe := none
  served : BitVec 4 := 0
deriving DecidableEq, Repr

/-! ## Die, for a context -/

/-- A sample group record (07 R160, R161); settled: its test has held and out is still to be written (03 R85; 05 R385). -/
structure GroupRec where
  out : Nat
  dline : Nat
  left : Nat
  eps : W32
  gsize : Nat
  quorum : Nat
  desc : Word
  posted : BitVec 64
  cancelled : BitVec 64
  included : BitVec 64
  ended : BitVec 64
  rewards : Map W32
  adv : Map W32
  status : W32
  batch : Nat
  loc : Nat
  time : Time
  who : Word
  pc : Word
  iword : W32
  pslot : SlotRef
  settled : Bool := false
deriving DecidableEq, Repr

/-- A tensor layout record (07 R166). -/
structure Layout where
  base : Word
  sizes : List Nat
  strides : List Int
  esz : Nat
  ndim : Nat
  clip : Nat
  fill : Word
deriving DecidableEq, Repr

/-- A copy-schedule entry with its layout, as read at the post (07 R167, R168). -/
structure CEnt where
  lay : Layout
  org : List Int
  ext : List Nat
  stage : Nat
  dst : Word
  chan : Nat
  mode : Nat
  npat : Nat
  blk : Nat
  pat : List Nat
deriving DecidableEq, Repr

/-- A posted copy schedule: entries, stage counter of each channel, entries complete, who posted it (08 R178). -/
structure Sched where
  entries : List CEnt
  counters : Map Nat
  done : List Nat
  time : Time
  poster : SlotRef
  who : Word
  pc : Word
  iword : W32
deriving DecidableEq, Repr

/-- A copy channel: its schedules in post order, the entry it runs, the watermark, bytes passed (08 R179). -/
structure Chan where
  queue : List Nat := []
  run : Option Nat := none
  bytes : Nat := 0
  mark : W32 := 0
  stopped : Bool := false
  poisonSeen : Bool := false
  clipSeen : Bool := false
deriving DecidableEq, Repr

/-- A job queue of a die's dispatcher (02 R41 to R47). -/
structure JobQ where
  ctx : Nat := 0
  tickets : Nat := 0
  depth : Nat := 0
  base : Word := 0
  cards : List Nat := []
  posted : Nat := 0
  pass : Word := 0
  eligible : Bool := false
deriving DecidableEq, Repr

/-- Die state that belongs to a context; moved: the entries of counts that stand in the overflow table, by place (08 R174). -/
structure Die where
  f : Map Time := []
  fset : Map Time := []
  counts : List Delta := []
  moved : Map Delta := []
  groups : Map GroupRec := []
  scheds : Map Sched := []
  chans : Map Chan := []
  leveled : Nat := 0
deriving DecidableEq, Repr

/-! ## Die, physical -/

/-- Who waits for a page in transit (05 R122, R385): a task, a prefetch, an agent of a die at work for an
instruction, with the number of the piece of work. -/
inductive Waiter where
  | task (ctx : Nat) (save : Nat)
  | request (id : Nat)
  | agent (pd : Nat) (r : SlotRef) (pc : Word) (work : Nat)
deriving DecidableEq, Repr

/-- A transit entry (05 R122): the page-table entry's home, its old and its new value, the page, the frame and who
waits. -/
structure Transit where
  ctx : Nat
  va : Nat
  level : Nat
  home : Nat
  orig : Word
  mark : Word
  frame : Word
  waiters : List Waiter
deriving DecidableEq, Repr

/-- A request of a silt engine (06 R146, 15 R333); writeFail: only its completion word is left; back: the drive is done and the
data move. -/
structure SReq where
  id : Nat
  fault : Option Nat
  op : Nat
  buf : Nat
  lba : Nat
  nblk : Nat
  drive : Nat
  cw : Nat
  cwVa : Word
  ctx : Nat
  poster : SlotRef
  who : Word
  pc : Word
  iword : W32
  cid : Option Nat
  done : Nat
  pages : Nat
  status : Nat
  devCause : Nat
  writeFail : Bool
  back : Bool := false
deriving DecidableEq, Repr

/-- A halt group (10 R225). -/
structure Halt where
  mem : List Word := [0, 0, 0, 0]
  eng : Bool := false
  stopf : Bool := false
  trig : Word := 0
  st : Nat := 0
  since : Word := 0
deriving DecidableEq, Repr

/-- A free-frame queue (06 R147). -/
structure FreeQ where
  base : Word := 0
  head : W32 := 0
  tail : W32 := 0
  low : Word := 0
  armed : Bool := true
deriving DecidableEq, Repr

/-- A page that an agent waited for and did not get: the context, the page, the work, the NVMe status, the drive (05 R385). -/
structure AgentBad where
  ctx : Nat
  va : Nat
  r : SlotRef
  pc : Word
  work : Nat
  status : Nat
  drive : Nat
deriving DecidableEq, Repr

/-- An NVMe queue pair of a silt engine on a drive (06 R145): tail of the submission queue, head of the completion queue, what
was written last at each place of the two. -/
structure QPair where
  sqTail : Nat := 0
  cqHead : Nat := 0
  sq : Map (BitVec 512) := []
  cq : Map (BitVec 128) := []
deriving DecidableEq, Repr

/-- A core's dead-letter queue (06 R140). -/
structure DeadQ where
  head : W32 := 0
  tail : W32 := 0
  base : Word := 0
  disc : W32 := 0
deriving DecidableEq, Repr

/-- Physical die state; dealAt, dealt: the cycle of the dispatcher's last chunk and the chunks dealt in it (02 R44); toldDie, toldRoot:
the die's tilth unit, on die 0 the root, has posted its notice of being full (08 R174). -/
structure PDie where
  v : Word := 0
  dealAt : Nat := 0
  dealt : Nat := 0
  jobs : Map JobQ := []
  sqBase : Word := 0
  sqHead : W32 := 0
  sqTail : W32 := 0
  heldPkts : List Packet := []
  offered : Nat := 0
  free : Map FreeQ := []
  transit : Map Transit := []
  agentBad : List AgentBad := []
  pairs : Map QPair := []
  silt : List SReq := []
  siltIn : Map Nat := []
  waiting : List SReq := []
  halts : Map Halt := []
  tokens : List Nat := List.replicate 8 0
  corrected : Word := 0
  quadErrs : Map (List Nat) := []
  fenced : BitVec 64 := 0
  srep : Packet := 0
  swcmd : Word := 0
  tlb2 : List (Nat × TlbEnt) := []
  femark : Map Bool := []
  dls : Map DeadQ := []
  toBase : Word := 0
  toSize : Word := 0
  toldDie : Bool := false
  toldRoot : Bool := false
deriving DecidableEq, Repr

/-! ## Context -/

/-- An edge of the location graph (07 R152). -/
structure Edge where
  src : Nat
  dst : Nat
  kind : Nat
  k : Nat
  n : Nat
deriving DecidableEq, Repr

/-- A job card as posted (02 R37), with the stages of a pipeline card and their core masks (02 R55). -/
structure Card where
  stages : List Stage
  masks : List Nat
  addr : Word
  entry : Word
  argbase : Word
  recsize : Nat
  count : Nat
  loc : Nat
  queue : Nat
  flags : W32
  time : Time
  cmin : Nat
  cdiv : Nat
  cmax : Nat
  gloc : Nat
  die : Nat
  quads : List (Nat × Nat)
  poster : Option SlotRef
  hq : Option (Nat × Nat)
  batch : Nat
  next : Nat
  live : Nat
  gateOpen : Bool
deriving DecidableEq, Repr

/-- A task that a storage fault swapped out (05 R122, R123): its slot, where it may resume, its task-local store, its
used register stack, the access that missed, its physical slot, whether a fault.storage packet holds it and the die whose
supervisor has the packet; hurt, stackHurt: the poisoned granules of the two, by offset (10 R220). -/
structure Swapped where
  slot : Slot
  num : Nat
  va : Nat
  acc : Access
  die : Nat
  quad : Nat
  core : Nat
  store : Map Byte
  stack : Map Byte
  held : Bool
  pslot : Nat
  pd : Nat
  hurt : List Nat := []
  stackHurt : List Nat := []
deriving DecidableEq, Repr

/-- A shipment of ready-ring records in transit (02 R54): 0 on the way, 1 accepted, 2 bounced. -/
structure Ship where
  die : Nat
  from_ : Nat
  dest : Nat
  ents : List RingEnt
  st : Nat
deriving DecidableEq, Repr

/-- A barrier instance: parity, the slots arrived with their masks (13 R292). -/
structure BarInst where
  parity : Bool := false
  arrived : List (Nat × BitVec 4) := []
deriving DecidableEq, Repr

/-- A spilled message (06 R149): the box it is for, held or not, its arrival number, its place in the area. -/
structure Spill where
  seq : BitVec 16
  die : Nat
  core : Nat
  box : Nat
  held : Bool
  msg : Msg
  pos : Nat := 0
deriving DecidableEq, Repr

/-- A snapshot request of qsnap (15 R328); next: the samples settled so far, of which wrote are written; bad: the first failure. -/
structure Snap where
  loc : Nat
  tick : Word
  base : Word
  cw : Word
  poster : SlotRef
  who : Word
  pc : Word
  iword : W32
  id : Nat := 0
  next : Nat := 0
  wrote : Nat := 0
  bad : Option Trap := none
deriving DecidableEq, Repr

/-- A halt group in a context's image (10 R223, R227): physical die and number, the relative die, the time it stopped, its members
by relative core, whether a release was written meanwhile. -/
structure SavedHalt where
  pd : Nat
  die : Nat
  grp : Nat
  since : Word
  members : List Nat
  freed : Bool
deriving DecidableEq, Repr

/-- The shape of a partition (01 R11): a rectangle of quads, or a set of whole dies. -/
inductive Shape where
  | rect (w h : Nat)
  | dies (n : Nat)
deriving DecidableEq, Repr

/-- A context (01 R13). -/
structure Ctx where
  exist : Bool := false
  nloc : Nat := 0
  edges : List Edge := []
  starts : List (Nat × Time) := []
  loaded : Bool := false
  privch : Bool := false
  svcn : Bool := false
  ptbase : Word := 0
  saveba : Word := 0
  hsbase : Word := 0
  cxgraph : Word := 0
  dround : Word := Config.dround
  db8fmt : Word := Config.db8fmt
  dcheck : Word := Config.dcheck
  dwlimit : Word := Config.dwlimit
  dseed : Word := Config.dseed
  /- the values the last restore took over: attributes; defaults, then saveba and hsbase -/
  useAttr : BitVec 2 := 0
  useDef : Option (List Word) := none
  counts : List Delta := []
  f : Map Time := []
  fset : Map Time := []
  inflight : List Batch := []
  toRoot : List Batch := []
  moved : Map Delta := []
  pod : List PodOut := []
  cards : Map Card := []
  swapped : Map Swapped := []
  mesh : List Flit := []
  cmds : List MCmd := []
  replies : List MReply := []
  ships : Map Ship := []
  spill : List Spill := []
  bars : Map BarInst := []
  snaps : List Snap := []
  jobs : Map JobQ := []
  savedAt : Nat := 0
  leftAt : Nat := 0
  vs : Map Word := []
  halted : List SavedHalt := []
  fallout : List Flit := []
  resident : Option Nat := none
  shape : Option Shape := none
deriving DecidableEq, Repr

/-! ## Package -/

/-- Where a partition lies: a rectangle by die and north-west quad, or a set of dies (01 R11). -/
inductive Place where
  | rect (die nw w h : Nat)
  | dies (mask : BitVec 4)
deriving DecidableEq, Repr

/-- A switch request (10 R221). -/
structure SwReq where
  t : Word
  prio : Nat
  ctx : Nat
deriving DecidableEq, Repr

/-- A partition and its switch unit (10 R221 to R224, 21 R374). -/
structure Part where
  place : Option Place := none
  pshape : Word := 0
  pstat : Nat := 0
  ctx : Nat := 0
  pswtime : Word := 0
  prio : BitVec 2 := 0
  tctx : BitVec 16 := 0
  res : Nat := 0
  st : Nat := 0
  cur : Option SwReq := none
  queued : Option SwReq := none
  foBase : Word := 0
  foSize : Word := 0
deriving DecidableEq, Repr

/-- A completion of a host queue (21 R377). -/
structure HComp where
  card : Word
  idx : W32
  st : Nat
  cause : Nat
deriving DecidableEq, Repr

/-- A host job queue (21 R375). -/
structure HostQ where
  base : Word := 0
  cfg : Word := 0
  tail : W32 := 0
  head : W32 := 0
  cmp : Word := 0
  chead : W32 := 0
  ctail : W32 := 0
  waiting : List HComp := []
deriving DecidableEq, Repr

/-- An atomic for another package, with its result once it has been sent (08 R181). -/
structure Remote where
  seq : Nat
  who : SlotRef
  gen : BitVec 8
  f : Aop
  key : Nat
  a : W32
  b : W32
  sent : Nat
  tries : Nat
  res : Option W32 := none
deriving DecidableEq, Repr

/-- What is kept for another package: next sequence number, atomics outstanding, the results of its last requests, the
highest request executed (08 R181); moving: its traffic has moved to another link and sends nothing there while requests sent on the
old one are neither answered nor given up (21 R379). -/
structure Peer where
  next : W32 := 0
  out : List Remote := []
  results : List (Nat × W32) := []
  high : Option W32 := none
  moving : Bool := false
deriving DecidableEq, Repr

/-- A scale-up link: working, replays of the flit in hand (21 R379). -/
structure Link where
  works : Bool := true
  replays : Nat := 0
deriving DecidableEq, Repr

/-- A move of the agenda: an event, an instruction issue of a core, an arith cycle, a store of a supervisor core to the
control space or to a dctl, what happens to a cached item, the first variable of a crossing unit's firing by itself, a batch that
leaves for or comes from another package's root, a new reading of the junctions and the power meter, or whether accesses that a home
tests reach it at issue or later from now on (log 1; 01 R31; 13 R281; 21 R374). -/
inductive Move where
  | event (i : Instr)
  | issue (k : CoreRef)
  | tick
  | ctl (ag : Agent) (off : Nat) (v : Word)
  | dctl (pd k n cmd : Nat)
  | dropTlb (q : QuadRef) (i : Nat)
  | dropCache (q : QuadRef) (i : Nat)
  | fillCache (q : QuadRef) (va : Nat) (line : Nat)
  | dropCode (k : CoreRef) (i : Nat)
  | fireOne (k : CoreRef)
  | podSend (cx : Nat)
  | podTake (cx : Nat) (entries : List Delta)
  | sense (tj pw : Nat)
  | far (b : Bool)
deriving DecidableEq, Repr

/-- The package; cooling: after a thermal trip the junctions have not been below 95 °C yet (21 R383); fwdig: the digest of the firmware that
runs; attest: what the last attestation report is made of (21 R381); far: does an ldf that issues reach its word's home later than its
issue (13 R281; log 9)? -/
structure State where
  now : Nat
  slots : Map Slot
  boxes : Map Box
  cores : Map Core
  quads : Map Quad
  dies : Map Die
  pdies : Map PDie
  ctxs : Map Ctx
  parts : Map Part
  hostqs : Map HostQ
  peers : Map Peer
  links : Map Link
  /- memory -/
  mem : List Host.Cell
  full : List Nat
  poison : List Nat
  drives : BitVec 8
  /- package registers -/
  pkg : Nat
  boot : Nat
  rr : Bool
  supf : Bool
  thr : Bool
  trip : Bool
  bver : Word
  bstage : Word
  pwrcfg : Word
  pwrstat : Word
  cerrth : Word
  hwin : Word
  cooling : Bool
  fwdig : BitVec 256
  attest : List Word
  areq : Bool
  adone : Bool
  cxstat : Word
  regs : Map Word
  sels : Map Word
  ucie : List (BitVec 16)
  pclock : Nat
  /- the model's own -/
  cur : SlotRef
  agenda : List Move
  ids : Nat
  fresh : Nat
  far : Bool
deriving DecidableEq, Repr

/-- Why a run stops: the machine has no state of its own in which it stops. -/
inductive Fault where
  /-- No definition raises it. Safe: the spec gives every event and every instruction a next state. -/
  | never
deriving DecidableEq, Repr

/-- Why a step has no meaning. -/
inductive Refusal where
  /-- Raised by an arm of exec whose instruction has no meaning yet. Safe. -/
  | notModelled (mnemonic : String)
deriving DecidableEq, Repr

/-- The package after device reset (00 R9; 21 R374, R380): no partition, no context, no bound slot, memory empty, the
boot ROM about to verify the image. -/
def State.reset : State where
  now := 0
  slots := []
  boxes := []
  cores := []
  quads := []
  dies := []
  pdies := []
  ctxs := []
  parts := []
  hostqs := []
  peers := []
  links := []
  mem := []
  full := []
  poison := []
  drives := 0
  pkg := 0
  boot := 0
  rr := false
  supf := false
  thr := false
  trip := false
  bver := 0
  bstage := 0
  pwrcfg := 0xC8080
  pwrstat := 0
  cerrth := 4096
  hwin := 0
  cooling := false
  fwdig := 0
  attest := []
  areq := false
  adone := false
  cxstat := 0
  regs := []
  sels := []
  ucie := []
  pclock := 0
  cur := ⟨0, 0, 0, 0⟩
  agenda := []
  ids := 1
  fresh := 0
  far := false

end Sys2Proof.Machine
end

