-- ==== Sys2Proof/Machine/Table.lean ====
section
/-! DEFINITION. Sparse tables, sorted sets and lists: the helpers every other file uses. -/

namespace Sys2Proof.Machine

open Sys2Proof

/-- The entry of a key. -/
def mfind {α : Type} (k : Nat) : Map α → Option α
  | [] => none
  | (j, x) :: m => if k = j then some x else if k < j then none else mfind k m

/-- The entry of a key, or the default. -/
def mget {α : Type} (d : α) (k : Nat) (m : Map α) : α := (mfind k m).getD d

/-- The table with an entry put in. -/
def mput {α : Type} (k : Nat) (x : α) : Map α → Map α
  | [] => [(k, x)]
  | (j, y) :: m => if k = j then (k, x) :: m else if k < j then (k, x) :: (j, y) :: m else (j, y) :: mput k x m

/-- The table with a key taken out. -/
def mdel {α : Type} (k : Nat) : Map α → Map α
  | [] => []
  | (j, y) :: m => if k = j then m else if k < j then (j, y) :: m else (j, y) :: mdel k m

/-- The table with one entry changed by a function. -/
def mmod {α : Type} (d : α) (k : Nat) (f : α → α) (m : Map α) : Map α := mput k (f (mget d k m)) m

/-- Membership in a sorted set. -/
def smem (k : Nat) : List Nat → Bool
  | [] => false
  | j :: m => if k = j then true else if k < j then false else smem k m

/-- A sorted set with a member added. -/
def sadd (k : Nat) : List Nat → List Nat
  | [] => [k]
  | j :: m => if k = j then j :: m else if k < j then k :: j :: m else j :: sadd k m

/-- A sorted set with a member taken out. -/
def sdel (k : Nat) : List Nat → List Nat
  | [] => []
  | j :: m => if k = j then m else if k < j then j :: m else j :: sdel k m

/-- The list with item i changed by a function. -/
def lmod {α : Type} (i : Nat) (f : α → α) : List α → List α
  | [] => []
  | x :: l => match i with
    | 0 => f x :: l
    | i + 1 => x :: lmod i f l

/-- The least free key from k on, among at most n tries. -/
def mfree {α : Type} (m : Map α) : Nat → Nat → Option Nat
  | 0, _ => none
  | n + 1, k => if (mfind k m).isNone then some k else mfree m n (k + 1)

/-- The position of the first item that satisfies p. -/
def lidx {α : Type} (p : α → Bool) (l : List α) : Option Nat := l.findIdx? p

/-- A field of a word: bits [lo + n - 1 : lo] as a number. -/
def bits {w : Nat} (x : BitVec w) (lo n : Nat) : Nat := (x.toNat >>> lo) % 2 ^ n

/-- A number cut to a 64-bit word. -/
def toW (n : Nat) : Word := BitVec.ofNat 64 n

/-- Saturation to 32 bits. -/
def sat32 (n : Nat) : Nat := min n 0xFFFFFFFF

/-- Ceiling of a quotient. -/
def cdiv (a b : Nat) : Nat := (a + b - 1) / b

/-- The fold of a step over 0, 1, ..., n - 1. -/
def iter {α : Type} (n : Nat) (f : Nat → α → α) (x : α) : α := (List.range n).foldl (fun a i => f i a) x

end Sys2Proof.Machine
end

