-- ==== Sys2Proof/Machine/Float.lean ====
section
/-! DEFINITION. Floating-point arithmetic: exact values, one rounding, the formats, the flags (03 R62 to R76). -/

namespace Sys2Proof.Machine

open Sys2Proof

/-- A decoded value: NaN (signalling or quiet), infinity, zero, or a sign, a positive integer and an exponent of two. -/
inductive FVal where
  | nan (sig : Bool)
  | inf (neg : Bool)
  | zero (neg : Bool)
  | fin (neg : Bool) (m : Nat) (e : Int)
deriving DecidableEq, Repr

/-- Rounding modes (03 R66). SR carries the 16 bits drawn (R67). -/
inductive RMode where
  | rne | rtz | rup | rdn
  | sr (draw : Nat)
deriving DecidableEq, Repr

/-- An IEEE format (03 R62): precision, least and greatest normal exponent. -/
structure Fmt where
  p : Nat
  emin : Int
  emax : Int
deriving DecidableEq, Repr

/-- FP32 (03 R62). -/
def fp32 : Fmt := ⟨24, -126, 127⟩
/-- FP16. -/
def fp16 : Fmt := ⟨11, -14, 15⟩
/-- BF16. -/
def bf16 : Fmt := ⟨8, -126, 127⟩

/-- The flags of c.fflags (03 R65). -/
abbrev Flags := BitVec 5
/-- Inexact. -/
abbrev fNX : Flags := 1
/-- Underflow. -/
abbrev fUF : Flags := 2
/-- Overflow. -/
abbrev fOF : Flags := 4
/-- Division by zero. -/
abbrev fDZ : Flags := 8
/-- Invalid. -/
abbrev fNV : Flags := 16

/-- Exponent bits of a format. -/
def Fmt.ebits (f : Fmt) : Nat := Nat.log2 (2 * f.emax.toNat + 2)
/-- Bits of a code. -/
def Fmt.width (f : Fmt) : Nat := f.ebits + f.p
/-- The canonical NaN (03 R62). -/
def Fmt.nan (f : Fmt) : Nat := (2 ^ f.ebits - 1) * 2 ^ (f.p - 1) + 2 ^ (f.p - 2)
/-- A signed infinity. -/
def Fmt.inf (f : Fmt) (neg : Bool) : Nat :=
  (if neg then 2 ^ (f.ebits + f.p - 1) else 0) + (2 ^ f.ebits - 1) * 2 ^ (f.p - 1)
/-- A signed zero. -/
def Fmt.zero (f : Fmt) (neg : Bool) : Nat := if neg then 2 ^ (f.ebits + f.p - 1) else 0
/-- The largest finite value. -/
def Fmt.max (f : Fmt) (neg : Bool) : Nat := f.inf neg - 1

/-- The value of a code (03 R62, R63). -/
def Fmt.decode (f : Fmt) (c : Nat) : FVal :=
  let frac := c % 2 ^ (f.p - 1)
  let ex := c / 2 ^ (f.p - 1) % 2 ^ f.ebits
  let neg := c / 2 ^ (f.ebits + f.p - 1) % 2 == 1
  if ex = 2 ^ f.ebits - 1 then (if frac = 0 then .inf neg else .nan (frac < 2 ^ (f.p - 2)))
  else if ex = 0 then (if frac = 0 then .zero neg else .fin neg frac (f.emin - (f.p - 1)))
  else .fin neg (2 ^ (f.p - 1) + frac) (f.emin + ex - 1 - (f.p - 1))

/-- ⌊log2⌋ of a positive m × 2^e. -/
def topExp (m : Nat) (e : Int) : Int := (Nat.log2 m : Int) + e

/-- m × 2^e as a multiple of 2^q, for an e that is not below q. -/
def scaleUp (m : Nat) (e q : Int) : Nat := m * 2 ^ (e - q).toNat

/-- Does m × 2^e exceed n × 2^k? -/
def gtDy (m : Nat) (e : Int) (n : Nat) (k : Int) : Bool :=
  if e ≥ k then decide (m * 2 ^ (e - k).toNat > n) else decide (m > n * 2 ^ (k - e).toNat)

/-- m × 2^e rounded to a multiple of 2^q: the multiple, and whether it is inexact (03 R66, R67). odd says whether the
code of the lower neighbour is odd, for ties. -/
def roundAt (mode : RMode) (neg : Bool) (q : Int) (odd : Nat → Bool) (m : Nat) (e : Int) : Nat × Bool :=
  if e ≥ q then (scaleUp m e q, false)
  else
    let sh := (q - e).toNat
    let lo := m / 2 ^ sh
    let rem := m % 2 ^ sh
    if rem = 0 then (lo, false)
    else
      let up := match mode with
        | .rne => decide (2 * rem > 2 ^ sh) || (decide (2 * rem = 2 ^ sh) && odd lo)
        | .rtz => false
        | .rup => !neg
        | .rdn => neg
        | .sr d => decide (d < 2 ^ 16 * rem / 2 ^ sh)
      (if up then lo + 1 else lo, true)

/-- Parity of a multiple. -/
def isOdd (n : Nat) : Bool := n % 2 == 1

/-- The unit in the last place of a value at precision p with least exponent emin. -/
def ulpOf (p : Nat) (emin : Int) (m : Nat) (e : Int) : Int := max (emin - (p - 1)) (topExp m e - (p - 1))

/-- A mode with SR read as RNE (03 R65, R67). -/
def RMode.det (mode : RMode) : RMode :=
  match mode with
  | .sr _ => .rne
  | x => x

/-- Is the value tiny: rounded at its precision with unbounded exponent, below the least normal (03 R65)? A tie goes to the even
code, whose parity odd gives by the spacing and the significand (03 R66; log 79). -/
def isTiny (mode : RMode) (neg : Bool) (p : Nat) (emin : Int) (odd : Int → Nat → Bool) (m : Nat) (e : Int) : Bool :=
  let q := topExp m e - (p - 1)
  let r := (roundAt mode.det neg q (odd q) m e).1
  gtDy 1 emin r q

/-- A value rounded to an IEEE format: code and flags (03 R65, R66). SR beyond the largest finite value acts as RNE
(R67). -/
def Fmt.round (f : Fmt) (mode : RMode) (neg : Bool) (m : Nat) (e : Int) : Nat × Flags :=
  if m = 0 then (f.zero neg, 0) else
  let big := gtDy m e (2 ^ f.p - 1) (f.emax - (f.p - 1))
  let mode := if big then mode.det else mode
  let q := ulpOf f.p f.emin m e
  let r := roundAt mode neg q isOdd m e
  let sign := f.zero neg
  if r.1 = 0 then (sign, fUF ||| fNX)
  else if gtDy r.1 q (2 ^ f.p - 1) (f.emax - (f.p - 1)) then
    let toMax := match mode with
      | .rtz => true
      | .rup => neg
      | .rdn => !neg
      | _ => false
    (if toMax then f.max neg else f.inf neg, fOF ||| fNX)
  else
    let code := if r.1 < 2 ^ (f.p - 1) then r.1
      else ((q + (f.p - 1) - f.emin + 1).toNat * 2 ^ (f.p - 1)) + (r.1 - 2 ^ (f.p - 1))
    (sign + code, (if r.2 then fNX else 0) ||| (if r.2 && isTiny mode neg f.p f.emin (fun _ => isOdd) m e then fUF else 0))

/-- The rounding mode of c.round for a result that is not a narrow conversion: SR acts as RNE (03 R66). -/
def modeOf (round : Word) : RMode :=
  match bits round 0 3 with
  | 1 => .rtz
  | 2 => .rup
  | 3 => .rdn
  | _ => .rne

/-- The rounding mode of a conversion to a narrow format, with the bits drawn (03 R66, R67). -/
def modeConv (round : Word) (draw : Nat) : RMode := if bits round 0 3 = 4 then .sr draw else modeOf round

/-- A signed sum as sign and magnitude. -/
def ofInt (z : Int) (e : Int) (zeroNeg : Bool) : FVal := if z = 0 then .zero zeroNeg else .fin (decide (z < 0)) z.natAbs e

/-- Sign and magnitude as a signed integer at an exponent not above its own. -/
def signedAt (neg : Bool) (m : Nat) (e q : Int) : Int := if neg then -(scaleUp m e q : Int) else scaleUp m e q

/-- A NaN operand's flag: invalid where it signals (03 R63). -/
def sigFlag (x : FVal) : Flags :=
  match x with
  | .nan true => fNV
  | _ => 0

/-- The sign of a value. -/
def FVal.neg (x : FVal) : Bool :=
  match x with
  | .nan _ => false
  | .inf s => s
  | .zero s => s
  | .fin s _ _ => s

/-- The value with its sign changed. -/
def FVal.flip (x : FVal) : FVal :=
  match x with
  | .nan s => .nan s
  | .inf s => .inf (!s)
  | .zero s => .zero (!s)
  | .fin s m e => .fin (!s) m e

/-- Is it a NaN? -/
def FVal.isNan (x : FVal) : Bool :=
  match x with
  | .nan _ => true
  | _ => false

/-- Exact sum, with the flags of invalid operands; a zero sum of unlike signs is −0 only toward −∞ (03 R63, R65). -/
def fAdd (mode : RMode) (x y : FVal) : FVal × Flags :=
  match x, y with
  | .nan _, _ => (.nan false, sigFlag x ||| sigFlag y)
  | _, .nan _ => (.nan false, sigFlag y)
  | .inf a, .inf b => if a = b then (.inf a, 0) else (.nan false, fNV)
  | .inf a, _ => (.inf a, 0)
  | _, .inf b => (.inf b, 0)
  | .zero a, .zero b => (.zero (if a = b then a else decide (mode = .rdn)), 0)
  | .zero _, v => (v, 0)
  | v, .zero _ => (v, 0)
  | .fin a m e, .fin b n k =>
    let q := min e k
    (ofInt (signedAt a m e q + signedAt b n k q) q (decide (mode = .rdn)), 0)

/-- Exact product (03 R63, R65). -/
def fMul (x y : FVal) : FVal × Flags :=
  match x, y with
  | .nan _, _ => (.nan false, sigFlag x ||| sigFlag y)
  | _, .nan _ => (.nan false, sigFlag y)
  | .inf _, .zero _ => (.nan false, fNV)
  | .zero _, .inf _ => (.nan false, fNV)
  | .inf a, v => (.inf (a ^^ v.neg), 0)
  | v, .inf b => (.inf (v.neg ^^ b), 0)
  | .zero a, v => (.zero (a ^^ v.neg), 0)
  | v, .zero b => (.zero (v.neg ^^ b), 0)
  | .fin a m e, .fin b n k => (.fin (a ^^ b) (m * n) (e + k), 0)

/-- Bits a quotient or root keeps before the sticky bit: more than any format needs. -/
abbrev keepBits : Nat := 80

/-- Quotient with a sticky last bit: rounding it once rounds the exact quotient (03 R65). -/
def fDiv (x y : FVal) : FVal × Flags :=
  match x, y with
  | .nan _, _ => (.nan false, sigFlag x ||| sigFlag y)
  | _, .nan _ => (.nan false, sigFlag y)
  | .inf _, .inf _ => (.nan false, fNV)
  | .zero _, .zero _ => (.nan false, fNV)
  | .inf a, v => (.inf (a ^^ v.neg), 0)
  | v, .inf b => (.zero (v.neg ^^ b), 0)
  | v, .zero b => (.inf (v.neg ^^ b), fDZ)
  | .zero a, v => (.zero (a ^^ v.neg), 0)
  | .fin a m e, .fin b n k =>
    let sh := keepBits + Nat.log2 n
    let num := m * 2 ^ sh
    (.fin (a ^^ b) (2 * (num / n) + (if num % n = 0 then 0 else 1)) (e - k - sh - 1), 0)

/-- Integer square root, by bits from the top. -/
def isqrtFrom (n : Nat) : Nat → Nat → Nat
  | 0, r => r
  | k + 1, r => let c := r + 2 ^ k; isqrtFrom n k (if c * c ≤ n then c else r)

/-- Integer square root. -/
def isqrt (n : Nat) : Nat := isqrtFrom n (Nat.log2 n / 2 + 1) 0

/-- Square root with a sticky last bit. -/
def fSqrt (x : FVal) : FVal × Flags :=
  match x with
  | .nan _ => (.nan false, sigFlag x)
  | .zero s => (.zero s, 0)
  | .inf false => (.inf false, 0)
  | .inf true => (.nan false, fNV)
  | .fin true _ _ => (.nan false, fNV)
  | .fin false m e =>
    let odd := e % 2 ≠ 0
    let m := if odd then 2 * m else m
    let e := if odd then e - 1 else e
    let n := m * 2 ^ (2 * keepBits)
    let r := isqrt n
    (.fin false (2 * r + (if r * r = n then 0 else 1)) (e / 2 - keepBits - 1), 0)

/-- A value with flags delivered in a format (03 R63, R65). -/
def Fmt.deliver (f : Fmt) (mode : RMode) (v : FVal × Flags) : Nat × Flags :=
  match v.1 with
  | .nan _ => (f.nan, v.2)
  | .inf s => (f.inf s, v.2)
  | .zero s => (f.zero s, v.2)
  | .fin s m e => let r := f.round mode s m e; (r.1, r.2 ||| v.2)

/-- Sum of two codes of a format. -/
def Fmt.add (f : Fmt) (mode : RMode) (x y : Nat) : Nat × Flags := f.deliver mode (fAdd mode (f.decode x) (f.decode y))
/-- Difference. -/
def Fmt.sub (f : Fmt) (mode : RMode) (x y : Nat) : Nat × Flags :=
  f.deliver mode (fAdd mode (f.decode x) (f.decode y).flip)
/-- Product. -/
def Fmt.mul (f : Fmt) (mode : RMode) (x y : Nat) : Nat × Flags := f.deliver mode (fMul (f.decode x) (f.decode y))
/-- Quotient. -/
def Fmt.div (f : Fmt) (mode : RMode) (x y : Nat) : Nat × Flags := f.deliver mode (fDiv (f.decode x) (f.decode y))
/-- Square root. -/
def Fmt.sqrt (f : Fmt) (mode : RMode) (x : Nat) : Nat × Flags := f.deliver mode (fSqrt (f.decode x))

/-- x × y + z, rounded once; an invalid product is invalid whatever z is. -/
def fMulAdd (mode : RMode) (x y z : FVal) : FVal × Flags :=
  let p := fMul x y
  let s := fAdd mode p.1 z
  (s.1, p.2 ||| s.2)

/-- Fused multiply–add of codes. -/
def Fmt.fma (f : Fmt) (mode : RMode) (x y z : FVal) : Nat × Flags := f.deliver mode (fMulAdd mode x y z)

/-- Order of two values that are not NaN, with −0 equal to +0. -/
def fLt (x y : FVal) : Bool :=
  match x, y with
  | .inf true, .inf true => false
  | .inf true, _ => true
  | _, .inf true => false
  | .inf false, _ => false
  | _, .inf false => true
  | .zero _, .zero _ => false
  | .zero _, .fin s _ _ => !s
  | .fin s _ _, .zero _ => s
  | .fin a m e, .fin b n k => let q := min e k; decide (signedAt a m e q < signedAt b n k q)
  | _, _ => false

/-- Equality of two values that are not NaN, with −0 equal to +0. -/
def fEq (x y : FVal) : Bool := !x.isNan && !y.isNan && !fLt x y && !fLt y x

/-- FP32 lane operation with a code and flags from two lanes. -/
abbrev LaneOp := W32 → W32 → W32 × Flags

/-- A pair of code and flags as a word. -/
def w32 (r : Nat × Flags) : W32 × Flags := (BitVec.ofNat 32 r.1, r.2)

/-! ## The binary8 family and E5M3 -/

/-- A binary8 format (03 R69): precision, signed, infinities. -/
structure B8 where
  p : Nat
  sg : Bool
  inf : Bool
deriving DecidableEq, Repr

/-- The format of a code (03 R69). -/
def b8Of (x : Nat) : B8 := ⟨x % 8, x / 8 % 2 == 1, x / 16 % 2 == 1⟩

/-- Exponent bits (03 R70, R71). -/
def B8.w (f : B8) : Nat := if f.sg then 8 - f.p else 9 - f.p
/-- Bias (03 R70, R71). -/
def B8.bias (f : B8) : Nat := 2 ^ (f.w - 1)
/-- The NaN code. -/
def B8.nan (f : B8) : Nat := if f.sg then 0x80 else 0xFF
/-- Code of the largest finite value (03 R72). -/
def B8.maxCode (f : B8) : Nat :=
  match f.sg, f.inf with
  | true, false => 0x7F
  | true, true => 0x7E
  | false, false => 0xFE
  | false, true => 0xFD

/-- Magnitude of a code without sign: a multiple of a power of two (03 R70, R71). -/
def B8.mag (f : B8) (c : Nat) : Nat × Int :=
  let t := c % 2 ^ (f.p - 1)
  let e := c / 2 ^ (f.p - 1)
  if e = 0 then (t, 1 - (f.bias : Int) - (f.p - 1)) else (2 ^ (f.p - 1) + t, (e : Int) - f.bias - (f.p - 1))

/-- The value of a binary8 code (03 R70, R71). -/
def B8.decode (f : B8) (c : Nat) : FVal :=
  if c = f.nan then .nan false
  else if c = 0 then .zero false
  else
    let body := if f.sg then c % 128 else c
    let neg := f.sg && decide (c ≥ 128)
    if f.inf && body == (if f.sg then 0x7F else 0xFE) then .inf neg
    else let x := f.mag body; if x.1 = 0 then .zero false else .fin neg x.1 x.2

/-- The code of a magnitude r × 2^q within the format's range. -/
def B8.code (f : B8) (r : Nat) (q : Int) : Nat :=
  if r < 2 ^ (f.p - 1) then r
  else (q + (f.p - 1) + f.bias).toNat * 2 ^ (f.p - 1) + (r - 2 ^ (f.p - 1))

/-- Parity of the lower neighbour's code: for P = 1 the exponent decides (03 R66). -/
def B8.oddAt (f : B8) (q : Int) (r : Nat) : Bool :=
  if f.p = 1 then r != 0 && decide ((q + f.bias) % 2 ≠ 0) else isOdd r

/-- FP32 value to binary8 (03 R74): the first row that applies; ovf is the overflow mode. -/
def B8.ofVal (f : B8) (ovf : Bool) (mode : RMode) (x : FVal) : Nat × Flags :=
  let sgn (neg : Bool) (c : Nat) : Nat := if neg then c + 0x80 else c
  let overflow (neg : Bool) : Nat :=
    if !ovf then sgn neg f.maxCode else if f.inf then sgn neg (f.maxCode + 1) else f.nan
  match x with
  | .nan s => (f.nan, if s then fNV else 0)
  | .zero _ => (0, 0)
  | .inf neg =>
    if neg && !f.sg then (if ovf then 0xFF else 0, fNV)
    else if f.inf then (sgn neg (f.maxCode + 1), 0)
    else (if ovf then f.nan else sgn neg f.maxCode, fOF)
  | .fin neg m e =>
    let emin : Int := 1 - f.bias
    let top := f.mag f.maxCode
    let mode := if gtDy m e top.1 top.2 then mode.det else mode
    let q := ulpOf f.p emin m e
    let r := roundAt mode neg q (f.oddAt q) m e
    if neg && !f.sg && r.1 != 0 then (if ovf then 0xFF else 0, fNV)
    else if gtDy r.1 q top.1 top.2 then
      (match mode with
        | .rtz => sgn neg f.maxCode
        | .rup => if neg then sgn neg f.maxCode else overflow neg
        | .rdn => if neg then overflow neg else f.maxCode
        | _ => overflow neg, fOF ||| fNX)
    else if r.1 = 0 then (0, fUF ||| fNX)
    else (sgn neg (f.code r.1 q), (if r.2 then fNX else 0) ||| (if r.2 && isTiny mode neg f.p emin f.oddAt m e then fUF else 0))

/-- The value of an E5M3 scale (03 R73). -/
def e5m3Val (c : Nat) : FVal :=
  if c = 0xFF then .nan false
  else if c = 0 then .zero false
  else if c / 8 = 0 then .fin false (c % 8) (-17)
  else .fin false (8 + c % 8) ((c / 8 : Nat) - 15 - 3)

/-- FP32 value to E5M3 (03 R75): every NaN raises nv, as its table says, though 03 R63 gives a quiet NaN no flag (log 78). -/
def e5m3Of (mode : RMode) (x : FVal) : Nat × Flags :=
  match x with
  | .nan _ => (0xFF, fNV)
  | .zero _ => (0, 0)
  | .inf true => (0xFF, fNV)
  | .inf false => (0xFE, fOF)
  | .fin neg m e =>
    let mode := if gtDy m e 14 13 then mode.det else mode
    let q := ulpOf 4 (-14) m e
    let r := roundAt mode neg q isOdd m e
    if r.1 = 0 then (0, fUF ||| fNX)
    else if neg then (0xFF, fNV)
    else if gtDy r.1 q 14 13 then (0xFE, fOF ||| fNX)
    else
      let code := if r.1 < 8 then r.1 else (q + 3 + 15).toNat * 8 + (r.1 - 8)
      (code, (if r.2 then fNX else 0) ||| (if r.2 && isTiny mode neg 4 (-14) (fun _ => isOdd) m e then fUF else 0))

/-- One draw: sixteen steps of the generator; the bits drawn and the new state (03 R68). -/
def draw16 (s : W32) : Nat × W32 :=
  (List.range 16).foldl (fun a j =>
    let b := a.2.getLsbD 0
    let n := a.2 >>> 1
    (a.1 + (if b then 2 ^ j else 0), if b then n ^^^ 0x80200003#32 else n)) (0, s)

/-- A conversion of FP32 to a 32- or 64-bit integer range (03 R64): value and flags. -/
def toIntSat (mode : RMode) (lo hi : Int) (x : FVal) : Int × Flags :=
  match x with
  | .nan _ => (0, fNV)
  | .inf s => (if s then lo else hi, fNV)
  | .zero _ => (0, 0)
  | .fin neg m e =>
    let r := roundAt mode neg 0 isOdd m e
    let v : Int := if neg then -(r.1 : Int) else r.1
    if v > hi then (hi, fNV) else if v < lo then (lo, fNV) else (v, if r.2 then fNX else 0)

/-- An integer to FP32 (03 R64). -/
def ofIntF (mode : RMode) (z : Int) : Nat × Flags := fp32.deliver mode (ofInt z 0 false, 0)

/-! ## FP32 with RNE, for the crossing, group and matrix units -/

/-- RNE sum. -/
def rAdd (x y : W32) : W32 := BitVec.ofNat 32 (fp32.add .rne x.toNat y.toNat).1
/-- RNE difference. -/
def rSub (x y : W32) : W32 := BitVec.ofNat 32 (fp32.sub .rne x.toNat y.toNat).1
/-- RNE product. -/
def rMul (x y : W32) : W32 := BitVec.ofNat 32 (fp32.mul .rne x.toNat y.toNat).1
/-- RNE quotient. -/
def rDiv (x y : W32) : W32 := BitVec.ofNat 32 (fp32.div .rne x.toNat y.toNat).1
/-- RNE square root. -/
def rSqrt (x : W32) : W32 := BitVec.ofNat 32 (fp32.sqrt .rne x.toNat).1
/-- The value of an FP32 word. -/
def val32 (x : W32) : FVal := fp32.decode x.toNat
/-- The canonical FP32 NaN. -/
abbrev nan32 : W32 := 0x7FC00000

/-- Maximum with NaN if either is NaN and +0 above −0 (13 R283; 07 R156). -/
def maxNan (x y : W32) : W32 :=
  let a := val32 x
  let b := val32 y
  if a.isNan || b.isNan then nan32
  else if fLt a b then y else if fLt b a then x
  else if a.neg then y else x

/-- The function of an atomic (13 R283). -/
def aop (f : Aop) (old b new : W32) : W32 :=
  match f with
  | .add => old + b
  | .and => old &&& b
  | .or => old ||| b
  | .xor => old ^^^ b
  | .min => if old.slt b then old else b
  | .max => if old.slt b then b else old
  | .minu => if old < b then old else b
  | .maxu => if old < b then b else old
  | .swap => b
  | .cas => if old = b then new else old
  | .fadd => rAdd old b
  | .fmax => maxNan old b

end Sys2Proof.Machine
end

