-- ==== Sys2Proof/Machine/Mem.lean ====
section
/-! DEFINITION. Memory: one list of cells for all the memories of the package, keyed by kind, unit and offset; the
full-empty bits and the poison marks beside it (05 R106 to R114, R125; 10 R219). -/

namespace Sys2Proof.Machine

open Sys2Proof

/-- The kinds of memory. -/
inductive Space where
  | localStore | shared | vault | hbm | cxl | host | remote | accum | drive
deriving DecidableEq, Repr

/-- The number of a kind in a memory key. -/
def Space.num (x : Space) : Nat :=
  match x with
  | .localStore => 0
  | .shared => 1
  | .vault => 2
  | .hbm => 3
  | .cxl => 4
  | .host => 5
  | .remote => 6
  | .accum => 7
  | .drive => 8

/-- The key of a byte: kind, unit (slot, core, quad, package, drive) and offset. -/
def pkey (x : Space) (unit off : Nat) : Nat := (x.num * 2 ^ 40 + unit) * 2 ^ 64 + off

/-- The kind number of a key. -/
def keyKind (k : Nat) : Nat := k / 2 ^ 104
/-- The unit of a key. -/
def keyUnit (k : Nat) : Nat := k / 2 ^ 64 % 2 ^ 40
/-- The offset of a key. -/
def keyOff (k : Nat) : Nat := k % 2 ^ 64

/-- What a byte that nothing has written reads as (log 2). -/
def unwritten : Byte := 0

/-- One byte. -/
def memGet (k : Nat) : List Host.Cell → Byte
  | [] => unwritten
  | (j, x) :: m => if k = j then x else if k < j then unwritten else memGet k m

/-- Memory with one byte written, in canonical form. -/
def memSet (k : Nat) (b : Byte) : List Host.Cell → List Host.Cell
  | [] => if b = unwritten then [] else [(k, b)]
  | (j, x) :: m =>
    if k = j then (if b = unwritten then m else (k, b) :: m)
    else if k < j then (if b = unwritten then (j, x) :: m else (k, b) :: (j, x) :: m)
    else (j, x) :: memSet k b m

/-- Every key lies above k. -/
def Memory.above (k : Nat) : List Host.Cell → Bool
  | [] => true
  | (j, _) :: m => decide (k < j) && Memory.above k m

/-- The canonical form: addresses strictly rising, no entry equal to what an unlisted address reads as. -/
def Memory.wf : List Host.Cell → Bool
  | [] => true
  | (k, x) :: m => decide (x ≠ unwritten) && Memory.above k m && Memory.wf m

/-- The bytes of a number, least significant first (00 R7). -/
def leBytes (n v : Nat) : List Byte := (List.range n).map fun i => BitVec.ofNat 8 (v / 2 ^ (8 * i))

/-- The number of some bytes, least significant first (00 R7). -/
def leNat (bs : List Byte) : Nat := bs.foldr (fun b a => b.toNat + 256 * a) 0

/-- n bytes from a key on. -/
def memBytes (m : List Host.Cell) (k n : Nat) : List Byte := (List.range n).map fun i => memGet (k + i) m

/-- n bytes from a key on, as a number. -/
def memRead (m : List Host.Cell) (k n : Nat) : Nat := leNat (memBytes m k n)

/-- Memory with bytes written from a key on. -/
def memStore (m : List Host.Cell) (k : Nat) : List Byte → List Host.Cell
  | [] => m
  | b :: bs => memStore (memSet k b m) (k + 1) bs

/-- Memory with a number written in n bytes. -/
def memWrite (m : List Host.Cell) (k n v : Nat) : List Host.Cell := memStore m k (leBytes n v)

/-- Memory with pairs of key and byte written in order. -/
def memPairs (m : List Host.Cell) (ps : List (Nat × Byte)) : List Host.Cell := ps.foldl (fun m p => memSet p.1 p.2 m) m

/-- Memory with a range cleared. -/
def memClear (m : List Host.Cell) (k n : Nat) : List Host.Cell := m.filter fun c => !(decide (k ≤ c.1) && decide (c.1 < k + n))

/-- Bytes of a poison granule of a kind (10 R219); 0 where the spec gives none. Of the accumulator store, whose granule is a row
of a tile, the words are marked one by one. -/
def granuleSize (kind : Nat) : Nat :=
  match kind with
  | 0 => 8
  | 1 => 8
  | 2 => 8
  | 3 => 32
  | 4 => 32
  | 7 => 4
  | _ => 0

/-- First key of the granule of a byte. -/
def granuleOf (k : Nat) : Nat :=
  let g := granuleSize (keyKind k)
  if g = 0 then k else k / g * g

/-- Consecutive keys. -/
def keysFrom (k n : Nat) : List Nat := (List.range n).map fun i => k + i

/-- The first poisoned granule among some bytes. -/
def poisoned (s : State) (keys : List Nat) : Option Nat :=
  (keys.map granuleOf).find? fun g => smem g s.poison

/-- The memory kind code of a fault.memory packet (10 R213). -/
def poisonKind (k : Nat) : Nat :=
  match keyKind k with
  | 0 => 0
  | 1 => 0
  | 2 => 1
  | 3 => 2
  | 4 => 3
  | 7 => 4
  | _ => 5

/-- Do the written bytes cover their granule whole? -/
def coversGranule (keys : List Nat) (g : Nat) : Bool :=
  (List.range (granuleSize (keyKind g))).all fun i => keys.contains (g + i)

/-- State with bytes written at their homes; a granule written whole loses its poison (10 R220). -/
def State.store (s : State) (ps : List (Nat × Byte)) : State :=
  let keys := ps.map Prod.fst
  let cured := (keys.map granuleOf).filter fun g => smem g s.poison && coversGranule keys g
  { s with mem := memPairs s.mem ps, poison := cured.foldl (fun p g => sdel g p) s.poison }

/-- State with a number written in n bytes at a key. -/
def State.storeLE (s : State) (k n v : Nat) : State :=
  s.store ((leBytes n v).zipIdx.map fun b => (k + b.2, b.1))

/-- State with a range zeroed; the granules zeroed whole lose their poison (10 R220). -/
def State.wipe (s : State) (k n : Nat) : State :=
  { s with
    mem := memClear s.mem k n
    poison := s.poison.filter fun g => !(decide (k ≤ g) && decide (g + granuleSize (keyKind g) ≤ k + n)) }

/-- A number read from n bytes at their home. -/
def State.loadLE (s : State) (k n : Nat) : Nat := memRead s.mem k n

/-- State with a word's full-empty bit set or cleared (05 R125). -/
def State.setFull (s : State) (k : Nat) (b : Bool) : State :=
  { s with full := if b then sadd k s.full else sdel k s.full }

/-- Is the word's bit full? -/
def State.isFull (s : State) (k : Nat) : Bool := smem k s.full

end Sys2Proof.Machine
end

