-- ==== Sys2Proof/Machine/Regs.lean ====
section
/-! DEFINITION. Reading and writing the registers of a slot (04 R86 to R99). -/

namespace Sys2Proof.Machine

open Sys2Proof

/-- Entry of the ring that a logical register occupies (04 R87). -/
def ringOf (j : Nat) : BitVec 6 := BitVec.ofNat 6 j

/-- The physical register of a scalar specifier, seen through the window (04 R86, R87). -/
def xReg (t : Slot) (n : Spec) : Reg :=
  if n.toNat < 8 then .g (n.truncate 3) else .ring (ringOf (16 * t.depth + (n.toNat - 8)))

/-- A global register: zero where it is invalid (04 R86, R93). -/
def readG (t : Slot) (n : PSpec) : Word := if n ≠ 0 ∧ t.gValid.getLsbD n.toNat then mget 0 n.toNat t.g else 0

/-- A ring entry: zero where it is invalid (04 R93). -/
def readRing (t : Slot) (j : BitVec 6) : Word := if t.ringValid.getLsbD j.toNat then mget 0 j.toNat t.ring else 0

/-- A scalar register (04 R86, R93). -/
def readX (t : Slot) (n : Spec) : Word :=
  match xReg t n with
  | .g m => readG t m
  | .ring j => readRing t j
  | _ => 0

/-- A vector register: zero where it is invalid (04 R93). -/
def readV (t : Slot) (n : Spec) : Vec := if t.vValid.getLsbD n.toNat then mget 0 n.toNat t.v else 0

/-- A predicate register: p0 reads all ones, an invalid one reads zero (04 R92, R93). -/
def readP (t : Slot) (n : PSpec) : W32 :=
  if n = 0 then BitVec.allOnes 32 else if t.pValid.getLsbD n.toNat then mget 0 n.toNat t.p else 0

/-- A timestamp pair beginning at a specifier (01 R24). -/
def readTime (t : Slot) (n : Spec) : Time := readX t n ++ readX t (n + 1)

/-- Lane i of a vector (04 R91). -/
def lane (v : Vec) (i : Nat) : W32 := v.extractLsb' (32 * i) 32

/-- A vector from its lanes. -/
def ofLanes (f : Nat → W32) : Vec :=
  BitVec.ofNat 1024 ((List.range 32).foldr (fun i a => (f i).toNat + 2 ^ 32 * a) 0)

/-- A 32-bit word from its bits. -/
def ofBits32 (f : Nat → Bool) : W32 :=
  BitVec.ofNat 32 ((List.range 32).foldr (fun i a => (if f i then 1 else 0) + 2 * a) 0)

/-- Lanes of the mask from the new value, the others from the old. -/
def mergeV (old new : Vec) (mask : W32) : Vec :=
  ofLanes fun i => if mask.getLsbD i then lane new i else lane old i

/-- Set a bit of a valid mask. -/
def setBit {w : Nat} (x : BitVec w) (i : Nat) : BitVec w := x ||| (1#w <<< i)

/-- A register write landing: the register becomes valid; g0 and p0 discard it (04 R86, R92, R93). -/
def applyWrite (t : Slot) (w : RegWrite) : Slot :=
  match w with
  | .g n x => if n = 0 then t else { t with g := mput n.toNat x t.g, gValid := setBit t.gValid n.toNat }
  | .ring j x => { t with ring := mput j.toNat x t.ring, ringValid := setBit t.ringValid j.toNat }
  | .v n x m => { t with v := mput n.toNat (mergeV (readV t n) x m) t.v, vValid := setBit t.vValid n.toNat }
  | .p n x m =>
    if n = 0 then t
    else { t with p := mput n.toNat ((x &&& m) ||| (readP t n &&& ~~~m)) t.p, pValid := setBit t.pValid n.toNat }

/-- Several writes in order. -/
def applyWrites (t : Slot) (ws : List RegWrite) : Slot := ws.foldl applyWrite t

/-- The register a write goes to. -/
def RegWrite.reg (w : RegWrite) : Reg :=
  match w with
  | .g n _ => .g n
  | .ring j _ => .ring j
  | .v n _ _ => .v n
  | .p n _ _ => .p n

/-- A write of a scalar specifier, placed through the window as it stands now. -/
def writeX (t : Slot) (n : Spec) (x : Word) : RegWrite :=
  match xReg t n with
  | .g m => .g m x
  | .ring j => .ring j x
  | _ => .g 0 x

/-- The writes of a pair of specifiers. -/
def writePair (t : Slot) (n : Spec) (x y : Word) : List RegWrite := [writeX t n x, writeX t (n + 1) y]

/-- The write that restores a register as it stands, valid or not as zero. -/
def snapReg (t : Slot) (r : Reg) : RegWrite :=
  match r with
  | .g n => .g n (readG t n)
  | .ring j => .ring j (readRing t j)
  | .v n => .v n (readV t n) (BitVec.allOnes 32)
  | .p n => .p n (readP t n) (BitVec.allOnes 32)

/-- Bytes of a register (04 R98). -/
def Reg.size (r : Reg) : Nat :=
  match r with
  | .g _ => 8
  | .ring _ => 8
  | .v _ => 128
  | .p _ => 4

/-- The value a register write carries. -/
def RegWrite.val (w : RegWrite) : Nat :=
  match w with
  | .g _ x => x.toNat
  | .ring _ x => x.toNat
  | .v _ x _ => x.toNat
  | .p _ x _ => x.toNat

/-- The bytes of a register write, least significant first (04 R91, R98). -/
def RegWrite.bytes (w : RegWrite) : List Byte := leBytes w.reg.size w.val

/-- The write of a whole register from its bytes. -/
def regOf (r : Reg) (bs : List Byte) : RegWrite :=
  match r with
  | .g n => .g n (toW (leNat bs))
  | .ring j => .ring j (toW (leNat bs))
  | .v n => .v n (BitVec.ofNat 1024 (leNat bs)) (BitVec.allOnes 32)
  | .p n => .p n (BitVec.ofNat 32 (leNat bs)) (BitVec.allOnes 32)

/-- Bytes of an aperture store land: the other bytes stay, zero where the register is invalid (04 R93, R98). -/
def landAp (t : Slot) (a : ApWrite) : Slot :=
  let old := (snapReg t a.reg).bytes
  applyWrite t (regOf a.reg (old.take a.off ++ a.bytes ++ old.drop (a.off + a.bytes.length)))

/-- Is the register one that never changes (g0, p0)? -/
def Reg.fixed (r : Reg) : Bool := r == .g 0 || r == .p 0

/-- Registers a flight will write. -/
def Flight.regs (f : Flight) : List Reg :=
  match f with
  | .value ws => ws.map RegWrite.reg
  | .timed ws _ => ws.map RegWrite.reg
  | .acquired ws _ => ws.map RegWrite.reg
  | .load d _ _ _ _ => [d]
  | .remote d _ _ _ => [d]
  | .atomic d _ _ _ _ _ => [d]
  | .fe (.fprobe d) _ => [d]
  | .fe _ _ => []

/-- Is a register busy (04 R96)? -/
def busy (t : Slot) (r : Reg) : Bool := t.flights.any fun f => f.regs.contains r

/-- Does a register have a fixed-latency write that has not landed (04 R94)? -/
def early (t : Slot) (r : Reg) : Bool := t.pend.any fun p => p.w.reg == r

/-- The guard of a scalar or non-lane instruction (11 R230). -/
def guardOn (t : Slot) (c : Ctl) : Bool := (readP t c.g).getLsbD 0 ^^ c.n

/-- The guard of lane i (11 R230). -/
def laneOn (t : Slot) (c : Ctl) (i : Nat) : Bool := (readP t c.g).getLsbD i ^^ c.n

/-- The lanes the guard enables. -/
def laneMask (t : Slot) (c : Ctl) : W32 := if c.n then ~~~(readP t c.g) else readP t c.g

/-- Land the fixed-latency results that are due (04 R94, R95). -/
def landDue (t : Slot) (now : Nat) : Slot :=
  { applyWrites t ((t.pend.filter fun p => decide (p.due ≤ now)).map Pend.w) with
    pend := t.pend.filter fun p => !decide (p.due ≤ now) }

/-- The writes of a result whose cycle has come (12 R253). -/
def Flight.dueWrites (now : Nat) (f : Flight) : Option (List RegWrite) :=
  match f with
  | .timed ws due => if due ≤ now then some ws else none
  | _ => none

/-- Land the results whose cycle has come: their busy bits clear (12 R253). -/
def landTimed (t : Slot) (now : Nat) : Slot :=
  { applyWrites t (t.flights.flatMap fun f => (f.dueWrites now).getD []) with
    flights := t.flights.filter fun f => (f.dueWrites now).isNone }

/-- Put a fixed-latency result in its place: earlier landings first, and of one cycle the later-issued one last
(04 R95). -/
def insPend (p : Pend) : List Pend → List Pend
  | [] => [p]
  | q :: l => if p.due < q.due then p :: q :: l else q :: insPend p l

/-- Land every fixed-latency result, in order. -/
def landAll (t : Slot) : Slot := { applyWrites t (t.pend.map Pend.w) with pend := [] }

/-- The generators at a seed (03 R68). -/
def seedGens (seed : W32) : Map W32 :=
  (List.range 32).map fun j =>
    let x := seed ^^^ BitVec.ofNat 32 j
    (j, if x = 0 then 0xFFFFFFFF else x)

end Sys2Proof.Machine
end

