-- ==== Sys2Proof/Machine/Place.lean ====
section
/-! DEFINITION. Places: keys of the tables of the state, coordinates, partitions and their shapes, the identity
register, the clock (00 R3, R6; 01 R11, R12; 04 R101). -/

namespace Sys2Proof

/-- The core of a slot. -/
def SlotRef.coreRef (r : SlotRef) : CoreRef := ⟨r.ctx, r.die, r.core⟩
/-- A slot of a core. -/
def CoreRef.slotRef (k : CoreRef) (n : Nat) : SlotRef := ⟨k.ctx, k.die, k.core, n⟩

/-- Quad of a core (00 R6). -/
def quadOf (core : Nat) : Nat := 8 * (core / 16 / 2) + core % 16 / 2
/-- Position of a core in its quad (00 R6). -/
def posOf (core : Nat) : Nat := 2 * (core / 16 % 2) + core % 16 % 2
/-- The core at a position of a quad (00 R6). -/
def coreAt (quad pos : Nat) : Nat := 16 * (2 * (quad / 8) + pos / 2) + 2 * (quad % 8) + pos % 2
/-- The quad of a core. -/
def CoreRef.quadRef (k : CoreRef) : QuadRef := ⟨k.ctx, k.die, quadOf k.core⟩
/-- The quad of a slot. -/
def SlotRef.quadRef (r : SlotRef) : QuadRef := ⟨r.ctx, r.die, quadOf r.core⟩
/-- Number of the supervisor core. -/
abbrev supCore : Nat := 256

/-- Wider or equal scope, by code. -/
def Scope.atLeast (s : Scope) (n : Nat) : Bool := decide (n ≤ s.bits.toNat)

end Sys2Proof

namespace Sys2Proof.Machine

open Sys2Proof

/-- Key of a die of a context. -/
def dieKey (cx d : Nat) : Nat := cx * 4 + d
/-- Key of a core of a context. -/
def coreKey (k : CoreRef) : Nat := dieKey k.ctx k.die * 512 + k.core
/-- Key of a slot. -/
def slotKey (r : SlotRef) : Nat := (dieKey r.ctx r.die * 512 + r.core) * 4 + r.slot
/-- Key of a quad of a context. -/
def quadKey (q : QuadRef) : Nat := dieKey q.ctx q.die * 128 + q.quad
/-- The quad of a key. -/
def quadOfKey (k : Nat) : QuadRef := ⟨k / 512, k / 128 % 4, k % 128⟩
/-- The slot of a key. -/
def slotOfKey (k : Nat) : SlotRef := ⟨k / 8192, k / 2048 % 4, k / 4 % 512, k % 4⟩
/-- Base of a slot's register stack as a task address (05 R107). -/
def stackBase (n : Nat) : Nat := 0x14000 + Config.stackBytes * n
/-- A slot that holds no task (04 R100): its stack pointer stands at the stack's base. -/
def emptySlot (n : Nat) : Slot := { rsp := toW (stackBase n) }
/-- A slot's state. -/
def State.slot (s : State) (r : SlotRef) : Slot := mget (emptySlot r.slot) (slotKey r) s.slots
/-- State with a slot replaced. -/
def State.setSlot (s : State) (r : SlotRef) (t : Slot) : State := { s with slots := mput (slotKey r) t s.slots }
/-- State with a slot changed. -/
def State.modSlot (s : State) (r : SlotRef) (f : Slot → Slot) : State := s.setSlot r (f (s.slot r))
/-- A core's state. -/
def State.core (s : State) (k : CoreRef) : Core := mget {} (coreKey k) s.cores
/-- State with a core changed. -/
def State.modCore (s : State) (k : CoreRef) (f : Core → Core) : State :=
  { s with cores := mput (coreKey k) (f (s.core k)) s.cores }
/-- A quad's state. -/
def State.quad (s : State) (q : QuadRef) : Quad := mget {} (quadKey q) s.quads
/-- State with a quad changed. -/
def State.modQuad (s : State) (q : QuadRef) (f : Quad → Quad) : State :=
  { s with quads := mput (quadKey q) (f (s.quad q)) s.quads }
/-- State of a die of a context. -/
def State.die (s : State) (cx d : Nat) : Die := mget {} (dieKey cx d) s.dies
/-- State with a die of a context changed. -/
def State.modDie (s : State) (cx d : Nat) (f : Die → Die) : State :=
  { s with dies := mput (dieKey cx d) (f (s.die cx d)) s.dies }
/-- A physical die's state. -/
def State.pdie (s : State) (d : Nat) : PDie := mget {} d s.pdies
/-- State with a physical die changed. -/
def State.modPdie (s : State) (d : Nat) (f : PDie → PDie) : State := { s with pdies := mput d (f (s.pdie d)) s.pdies }
/-- A context's state. -/
def State.ctx (s : State) (cx : Nat) : Ctx := mget {} cx s.ctxs
/-- State with a context changed. -/
def State.modCtx (s : State) (cx : Nat) (f : Ctx → Ctx) : State := { s with ctxs := mput cx (f (s.ctx cx)) s.ctxs }
/-- A partition's state. -/
def State.part (s : State) (p : Nat) : Part := mget {} p s.parts
/-- State with a partition changed. -/
def State.modPart (s : State) (p : Nat) (f : Part → Part) : State := { s with parts := mput p (f (s.part p)) s.parts }
/-- What is kept for another package. -/
def State.peer (s : State) (p : Nat) : Peer := mget {} p s.peers
/-- State with what is kept for another package changed. -/
def State.modPeer (s : State) (p : Nat) (f : Peer → Peer) : State := { s with peers := mput p (f (s.peer p)) s.peers }

/-- Key of a mailbox: 4 slot + class for a slot's, 16 + class for a core's. -/
def boxKey (k : CoreRef) (b : Nat) : Nat := coreKey k * 32 + b
/-- A mailbox. -/
def State.box (s : State) (k : CoreRef) (b : Nat) : Box := mget {} (boxKey k b) s.boxes
/-- State with a mailbox changed. -/
def State.modBox (s : State) (k : CoreRef) (b : Nat) (f : Box → Box) : State :=
  { s with boxes := mput (boxKey k b) (f (s.box k b)) s.boxes }

/-- The package time base (00 R3; 08 R182): ns of the arith cycles since reset, slewing left out (log 7). -/
def State.clock (s : State) : Word := toW ((s.now - s.pclock) * 5 / 4)

/-- The shape of a place (01 R11). -/
def Place.shape (p : Place) : Shape :=
  match p with
  | .rect _ _ w h => .rect w h
  | .dies m => .dies ((List.range 4).filter fun i => m.getLsbD i).length

/-- Does a relative core lie in the shape (01 R12)? -/
def Shape.hasCore (p : Shape) (d k : Nat) : Bool :=
  match p with
  | .rect w h => d == 0 && decide (k % 16 < 2 * w) && decide (k / 16 < 2 * h)
  | .dies n => decide (d < n) && decide (k < 256)

/-- Does a relative quad lie in the shape? -/
def Shape.hasQuad (p : Shape) (d q : Nat) : Bool :=
  match p with
  | .rect w h => d == 0 && decide (q % 8 < w) && decide (q / 8 < h)
  | .dies n => decide (d < n) && decide (q < 64)

/-- The dies of a shape. -/
def Shape.dieCount (p : Shape) : Nat :=
  match p with
  | .rect _ _ => 1
  | .dies n => n

/-- The relative quads of a shape on one die, rising. -/
def Shape.quadsOn (p : Shape) (d : Nat) : List Nat := (List.range 64).filter fun q => p.hasQuad d q
/-- The relative quads of a shape, rising. -/
def Shape.quads (p : Shape) : List (Nat × Nat) :=
  (List.range p.dieCount).flatMap fun d => (p.quadsOn d).map fun q => (d, q)
/-- The relative cores of a shape, rising. -/
def Shape.cores (p : Shape) : List (Nat × Nat) :=
  (List.range p.dieCount).flatMap fun d => ((List.range 256).filter fun k => p.hasCore d k).map fun k => (d, k)

/-- The dies of a die set, rising. -/
def dieList (m : BitVec 4) : List Nat := (List.range 4).filter fun i => m.getLsbD i

/-- Physical die of a relative die (01 R12). -/
def Place.physDie (p : Place) (d : Nat) : Nat :=
  match p with
  | .rect die _ _ _ => die
  | .dies m => (dieList m).getD d 0

/-- Physical core of a relative core (01 R12). -/
def Place.physCore (p : Place) (k : Nat) : Nat :=
  match p with
  | .rect _ nw _ _ => k + 2 * (nw % 8) + 16 * (2 * (nw / 8))
  | .dies _ => k

/-- Physical quad of a relative quad. -/
def Place.physQuad (p : Place) (q : Nat) : Nat :=
  match p with
  | .rect _ nw _ _ => q + nw
  | .dies _ => q

/-- Relative die and core of a physical core that lies in the place. -/
def Place.relCore (p : Place) (pd k : Nat) : Option (Nat × Nat) :=
  match p with
  | .rect die nw w h =>
    let x0 := 2 * (nw % 8)
    let y0 := 2 * (nw / 8)
    if pd = die ∧ x0 ≤ k % 16 ∧ k % 16 < x0 + 2 * w ∧ y0 ≤ k / 16 ∧ k / 16 < y0 + 2 * h
    then some (0, 16 * (k / 16 - y0) + (k % 16 - x0)) else none
  | .dies m => ((dieList m).findIdx? fun x => x == pd).map fun d => (d, k)

/-- Relative die and quad of a physical quad that lies in the place. -/
def Place.relQuad (p : Place) (pd q : Nat) : Option (Nat × Nat) :=
  (p.relCore pd (coreAt q 0)).map fun x => (x.1, quadOf x.2)

/-- Where a resident context runs. -/
def State.placeOf (s : State) (cx : Nat) : Option Place := (s.ctx cx).resident.bind fun p => (s.part p).place

/-- The shape a context's coordinates refer to: of its partition, or of its saved image (01 R13); a supervisor's
context 0 counts as four dies (log 105). -/
def State.shapeOf (s : State) (cx : Nat) : Shape :=
  match s.placeOf cx with
  | some p => p.shape
  | none => (s.ctx cx).shape.getD (.dies 4)

/-- Is the context resident? The supervisor cores, which run under no context, always are (01 R13). -/
def State.resident (s : State) (cx : Nat) : Bool := cx == 0 || (s.ctx cx).resident.isSome

/-- Physical die of a die of a context; the supervisor's die number is physical. -/
def State.physDie (s : State) (cx d : Nat) : Nat :=
  match s.placeOf cx with
  | some p => p.physDie d
  | none => d

/-- Physical core of a core of a context. -/
def State.physCore (s : State) (cx k : Nat) : Nat :=
  match s.placeOf cx with
  | some p => p.physCore k
  | none => k

/-- Physical quad of a quad of a context. -/
def State.physQuad (s : State) (cx q : Nat) : Nat :=
  match s.placeOf cx with
  | some p => p.physQuad q
  | none => q

/-- The partition that holds a physical core, with the core's relative coordinates. -/
def State.partAt (s : State) (pd k : Nat) : Option (Nat × Nat × Nat) :=
  s.parts.findSome? fun x => x.2.place.bind fun pl => (pl.relCore pd k).map fun y => (x.1, y.1, y.2)

/-- The core of the resident context at a physical core. -/
def State.coreAtPhys (s : State) (pd k : Nat) : Option CoreRef :=
  (s.partAt pd k).bind fun x =>
    let cx := (s.part x.1).ctx
    if cx = 0 then none else some ⟨cx, x.2.1, x.2.2⟩

/-- The identity register (04 R101), or what the supervisor wrote there (04 R105). -/
def State.cId (s : State) (r : SlotRef) : Word :=
  let sup := if r.core = supCore then 1 else 0
  let core := if r.core = supCore then 0 else r.core
  let t := s.slot r
  t.idw.getD (toW (r.slot + core * 2 ^ 2 + quadOf core * 2 ^ 10 + r.die * 2 ^ 16 + s.pkg * 2 ^ 18 + t.gen.toNat * 2 ^ 27
    + sup * 2 ^ 35))

/-- The instruction that a slot issues, as the origin of the work it starts (10 R215). -/
def State.origin (s : State) (r : SlotRef) (t : Slot) : Origin := { r := r, who := s.cId r, pc := t.pc, iword := t.iword }

/-- Physical identity of a slot in a packet (10 R212). -/
def State.pSlot (s : State) (r : SlotRef) : Nat :=
  r.slot + (s.physCore r.ctx r.core % 256) * 2 ^ 2 + s.physDie r.ctx r.die * 2 ^ 10

/-- The halt groups of its die that contain a core (04 R100, 10 R225). -/
def State.haltsOf (s : State) (k : CoreRef) : List Nat :=
  if k.ctx = 0 then [] else
  let pk := s.physCore k.ctx k.core
  (List.range 16).filter fun g =>
    ((mget {} g (s.pdie (s.physDie k.ctx k.die)).halts).mem.getD (pk / 64) 0).getLsbD (pk % 64)

/-- Is a core in a halt group that is stopping or stopped (10 R226)? -/
def State.coreHalted (s : State) (k : CoreRef) : Bool :=
  (s.haltsOf k).any fun g => decide ((mget {} g (s.pdie (s.physDie k.ctx k.die)).halts).st ≠ 0)

/-- Does a partition run: no switch of it, or one whose time T has not come (10 R222)? -/
def State.partUp (s : State) (p : Nat) : Bool :=
  let x := s.part p
  x.st == 0 || (x.st == 1 && !x.cur.any fun q => decide (q.t ≤ s.clock))

/-- Is the context resident and not being switched? -/
def State.enginesUp (s : State) (cx : Nat) : Bool :=
  match (s.ctx cx).resident with
  | some p => s.partUp p
  | none => false

/-- Does a context run: the supervisor cores always do? -/
def State.up (s : State) (cx : Nat) : Bool := cx == 0 || s.enginesUp cx

/-- May a waiting slot go on: resident, bound, not halted (10 R226)? -/
def State.mayGoOn (s : State) (r : SlotRef) : Bool :=
  s.up r.ctx && (s.slot r).st == .running && !s.coreHalted r.coreRef && (s.slot r).walk.isNone && (s.slot r).fault.isNone

/-- Is a context halted for its dispatcher: a stopping or stopped halt group has a core of it as a member? The manual does not say how
many of its cores must stand (02 R43; 10 R226; log 93). -/
def State.ctxHalted (s : State) (cx : Nat) : Bool :=
  match s.placeOf cx with
  | none => false
  | some pl =>
    (List.range pl.shape.dieCount).any fun d =>
      (s.pdie (pl.physDie d)).halts.any fun h =>
        decide (h.2.st ≠ 0) && (List.range 256).any fun pk =>
          (h.2.mem.getD (pk / 64) 0).getLsbD (pk % 64) && (pl.relCore (pl.physDie d) pk).isSome

/-- Does any scale-up link work (21 R379)? -/
def State.linkUp (s : State) : Bool := (List.range 32).any fun l => (mget {} l s.links).works

/-- The scale-up link that carries the traffic to a package: the destination's own, else the next working one in link-number order (21
R379). -/
def State.linkFor (s : State) (p : Nat) : Option Nat :=
  ((List.range 32).map fun i => (Config.linkOf p + i) % 32).find? fun l => (mget {} l s.links).works

/-- Has the traffic to a package moved to another link on which it sends nothing yet, because requests sent on the old one are neither
answered nor given up (21 R379)? -/
def State.linkMoves (s : State) (p : Nat) : Bool := let x := s.peer p; x.moving && x.out.any fun q => q.tries != 0

/-- May anything be sent to a package now: a link works, and its traffic is not moving from one to another (21 R379)? -/
def State.sendsTo (s : State) (p : Nat) : Bool := s.linkUp && !s.linkMoves p

/-- A flit to or from a package has passed its link's check: the replays of the flit before are over (21 R379). -/
def State.linkGood (s : State) (p : Nat) : State :=
  match s.linkFor p with
  | some l =>
    let x := mget {} l s.links
    if x.replays = 0 then s else { s with links := mput l { x with replays := 0 } s.links }
  | none => s

/-- The slot that a swapped-out task left. -/
def Swapped.slotRef (w : Swapped) (cx : Nat) : SlotRef := ⟨cx, w.die, w.core, w.num⟩

/-- Narrowest scope that holds two cores (00 R5). -/
def scopeOf (a b : CoreRef) : Scope :=
  if a = b then .core else if a.quadRef = b.quadRef then .quad else if a.die = b.die then .die else .pkg

end Sys2Proof.Machine
end

