-- ==== Sys2Proof/Machine/Tilth.lean ====
section
/-! DEFINITION. Counts and frontiers: summaries, delta buffers, batches, the root (01 R26, R28 to R33; 08 R170 to R176). -/

namespace Sys2Proof.Machine

open Sys2Proof

/-- A fresh number. -/
def State.newId (s : State) : Nat × State := (s.ids, { s with ids := s.ids + 1 })

/-- The summary of an edge applied to a time (01 R26). -/
def Edge.apply (e : Edge) (t : Time) : Time :=
  if t = Time.never then Time.never else
  let inc := t.toNat + e.n * 2 ^ (32 * (3 - e.k))
  match e.kind with
  | 0 => t
  | 1 => if inc ≥ 2 ^ 128 then Time.never else BitVec.ofNat 128 inc
  | 2 => if inc ≥ 2 ^ 128 ∨ inc = 2 ^ 128 - 1 then Time.never
         else BitVec.ofNat 128 (inc / 2 ^ (32 * (3 - e.k)) * 2 ^ (32 * (3 - e.k)))
  | _ => BitVec.ofNat 128 (t.toNat / 2 ^ (32 * (4 - e.k)) * 2 ^ (32 * (4 - e.k)))

/-- A change added to a list of counts: an entry of the same place, time and kind takes it (08 R170). -/
def addDelta (e : Delta) : List Delta → List Delta
  | [] => [e]
  | x :: l => if x.loc = e.loc ∧ x.time = e.time ∧ x.held = e.held then { x with d := x.d + e.d, org := if e.d < 0 then e.org else x.org } :: l else x :: addDelta e l

/-- Has the list an entry for the change? -/
def hasDelta (e : Delta) (l : List Delta) : Bool := l.any fun x => x.loc == e.loc && x.time == e.time && x.held == e.held

/-- The count of a kind at a place and time. -/
def countAt (l : List Delta) (loc : Nat) (t : Time) (held : Bool) : Int :=
  (l.filter fun x => x.loc == loc && x.time == t && x.held == held).foldl (fun a x => a + x.d) 0

/-- Entries that are not zero. -/
def dropZero (l : List Delta) : List Delta := l.filter fun x => decide (x.d ≠ 0)

/-- The least time with a count at each location, held counts left out for the settle frontier (01 R30, R33). -/
def leastTimes (l : List Delta) (settle : Bool) : Map Time :=
  (l.filter fun x => decide (x.d > 0) && !(settle && x.held)).foldl
    (fun m x => if x.time < mget Time.never x.loc m then mput x.loc x.time m else m) []

/-- One round of the frontier over all edges (01 R30). -/
def frontierRound (es : List Edge) (f : Map Time) : Map Time :=
  es.foldl (fun f e =>
    let v := e.apply (mget Time.never e.src f)
    if v < mget Time.never e.dst f then mput e.dst v f else f) f

/-- Rounds until nothing changes, within the bound the advancing cycles give (01 R27, R30). -/
def frontierFix (es : List Edge) : Nat → Map Time → Map Time
  | 0, f => f
  | n + 1, f =>
    let g := frontierRound es f
    if g = f then f else frontierFix es n g

/-- The frontier of counts over edges (01 R30, R33). -/
def frontier (es : List Edge) (l : List Delta) (settle : Bool) : Map Time :=
  frontierFix es Config.frontierRounds (leastTimes l settle)

/-! ## Overflow tables -/

/-- What one unit holds of a context: its key, the counts, those of them that stand in the overflow table, by place (08 R174). -/
structure Share where
  key : Nat
  counts : List Delta
  moved : Map Delta
deriving DecidableEq, Repr

/-- The dies of resident contexts that lie on a physical die, by key. -/
def State.diesOn (s : State) (pd : Nat) : Map Die :=
  s.dies.filter fun x => (s.ctx (x.1 / 4)).resident.isSome && s.physDie (x.1 / 4) (x.1 % 4) == pd

/-- The shares of a physical die's tilth unit: one for each resident context there. -/
def State.dieShares (s : State) (pd : Nat) : List Share := (s.diesOn pd).map fun x => ⟨x.1, x.2.counts, x.2.moved⟩

/-- The shares of the root. -/
def State.rootShares (s : State) : List Share :=
  (s.ctxs.filter fun x => x.2.resident.isSome).map fun x => ⟨x.1, x.2.counts, x.2.moved⟩

/-- On-chip entries of a unit in use, by all its contexts (08 R174). -/
def onChip (l : List Share) : Nat := l.foldl (fun n x => n + (x.counts.length - x.moved.length)) 0

/-- Places of an overflow table that a unit's entries take. -/
def places (l : List Share) : List Nat := l.flatMap fun x => x.moved.map Prod.fst

/-- On-chip entries of a die's tilth unit in use. -/
def State.chipUse (s : State) (pd : Nat) : Nat := onChip (s.dieShares pd)

/-- On-chip entries of the root in use. -/
def State.rootUse (s : State) : Nat := onChip s.rootShares

/-- Places of a die's overflow table in use; the root's entries stand in the table of die 0 (08 R174; log 48). -/
def State.overUsed (s : State) (pd : Nat) : List Nat := places (s.dieShares pd) ++ (if pd = 0 then places s.rootShares else [])

/-- Entries of a die's overflow table (08 R174). -/
def State.overSize (s : State) (pd : Nat) : Nat := min (s.pdie pd).toSize.toNat 1048576

/-- Is the die's table full, its overflow table too (08 R174)? -/
def State.tilthFull (s : State) (cx d : Nat) : Bool :=
  let pd := s.physDie cx d
  decide (s.chipUse pd ≥ Config.tilthOnChip) && decide ((s.overUsed pd).length ≥ s.overSize pd)

/-- Are two entries of one place, time and kind? -/
def Delta.same (a b : Delta) : Bool := a.loc == b.loc && a.time == b.time && a.held == b.held

/-- Has an entry the least time of its location, so that it never leaves the chip (08 R174)? -/
def leastOf (l : List Delta) (e : Delta) : Bool := !(l.any fun x => x.loc == e.loc && decide (x.time < e.time))

/-- Entries for which a die's unit has room, on the chip and in its overflow table (08 R174). -/
def State.tilthRoom (s : State) (pd : Nat) : Nat :=
  (Config.tilthOnChip - s.chipUse pd) + (s.overSize pd - (s.overUsed pd).length)

/-- Entries for which the root has room; its overflow entries stand in the table of die 0 (08 R174; log 48). -/
def State.rootRoom (s : State) : Nat :=
  (Config.tilthOnChip - s.rootUse) + (s.overSize 0 - (s.overUsed 0).length)

/-- Counts with a batch added. -/
def addBatch (counts es : List Delta) : List Delta := dropZero (es.foldl (fun l e => addDelta e l) counts)

/-- Does a die's unit accept a batch: it is not full, and what the batch adds has room (08 R174; log 109)? -/
def State.tilthTakes (s : State) (cx : Nat) (b : Batch) : Bool :=
  let l := (s.die cx b.die).counts
  !s.tilthFull cx b.die && decide ((addBatch l b.entries).length - l.length ≤ s.tilthRoom (s.physDie cx b.die))

/-- The entry of a unit that moves to the overflow table next, with its share: of the greatest time, but not the least of its location
(08 R174). -/
def overVictim (l : List Share) : Option (Nat × Delta) :=
  (l.flatMap fun x => (x.counts.filter fun e => !(x.moved.any fun y => y.2.same e) && !leastOf x.counts e).map fun e => (x.key, e)).foldl
    (fun a e => match a with
      | none => some e
      | some b => if b.2.time < e.2.time then some e else some b) none

/-- The lowest place that is not taken. -/
def freePlace (l : List Nat) : Nat := ((List.range (l.length + 1)).find? fun i => !l.contains i).getD l.length

/-- Entries of a unit moved to an overflow table, at most n, while the table has a place that others leave. -/
def overMoves (others : List Nat) (size : Nat) : Nat → List Share → List Share
  | 0, l => l
  | n + 1, l =>
    let used := others ++ places l
    if used.length ≥ size then l else
    match overVictim l with
    | none => l
    | some e => overMoves others size n (l.map fun x =>
        if x.key = e.1 then { x with moved := mput (freePlace used) e.2 x.moved } else x)

/-- A share whose overflow entries are those still in use, as they are now; one that has become the least of its location is back on
the chip (08 R174). -/
def Share.kept (x : Share) : Share :=
  { x with moved := x.moved.filterMap fun y => (x.counts.find? y.2.same).bind fun e =>
      if leastOf x.counts e then none else some (y.1, e) }

/-- The shares of a unit after counts have changed: what no longer fits on the chip is moved (08 R174). -/
def overSpill (others : List Nat) (size : Nat) (l : List Share) : List Share :=
  let l := l.map Share.kept
  overMoves others size (onChip l - Config.tilthOnChip) l

/-- An entry of an overflow table as 32 bytes (08 R174). -/
def Delta.bytes (e : Delta) : List Byte :=
  leBytes 16 e.time.toNat ++ leBytes 1 e.loc ++ leBytes 1 (if e.held then 3 else 1) ++ leBytes 6 0 ++
    leBytes 8 (BitVec.ofInt 64 e.d).toNat

/-- The bytes of a die's overflow table brought up to date: places left are marked not in use. -/
def State.writeOver (s : State) (pd : Nat) (old new : Map Delta) : State :=
  let at_ (i : Nat) : Nat := pkey .hbm 0 ((s.pdie pd).toBase.toNat + 32 * i)
  let s := old.foldl (fun s x => if (mfind x.1 new).isNone then s.storeLE (at_ x.1) 32 0 else s) s
  new.foldl (fun s x => if mfind x.1 old = some x.2 then s else s.store ((x.2.bytes).zipIdx.map fun b => (at_ x.1 + b.2, b.1))) s

/-- The overflow entries of some shares, by place. -/
def overTable (l : List Share) : Map Delta := l.foldl (fun m x => x.moved.foldl (fun m y => mput y.1 y.2 m) m) []

/-- A physical die's overflow entries after counts have changed (08 R174). -/
def State.spillDie (s : State) (pd : Nat) : State :=
  let l := s.dieShares pd
  if l.all (fun x => x.moved == []) && decide (onChip l ≤ Config.tilthOnChip) then s else
  let l' := overSpill (if pd = 0 then places s.rootShares else []) (s.overSize pd) l
  let s := s.writeOver pd (overTable l) (overTable l')
  l'.foldl (fun s x => s.modDie (x.key / 4) (x.key % 4) fun d => { d with moved := x.moved }) s

/-- The root's overflow entries after counts have changed (08 R174). -/
def State.spillRoot (s : State) : State :=
  let l := s.rootShares
  if l.all (fun x => x.moved == []) && decide (onChip l ≤ Config.tilthOnChip) then s else
  let l' := overSpill (places (s.dieShares 0)) (s.overSize 0) l
  let s := s.writeOver 0 (overTable l) (overTable l')
  l'.foldl (fun s x => s.modCtx x.key fun c => { c with moved := x.moved }) s

/-! ## Delta buffers and batches -/

/-- Empty a core's delta buffer into one batch (08 R171). An fdrop's batch goes even where a change cancelled out. While the unit is
full the flush waits, so the entries still take up the buffer (08 R174). -/
def State.flush (s : State) (k : CoreRef) (owner : Option (SlotRef × Nat × Time)) : State :=
  let c := s.core k
  if c.delta = [] then s else
  let b : Batch := { id := s.ids, die := k.die, entries := c.delta, owner := owner, core := k.core, stuck := s.tilthFull k.ctx k.die }
  let s := { s with ids := s.ids + 1 }
  let s := s.modCore k fun c => { c with delta := [] }
  s.modCtx k.ctx fun x => { x with inflight := x.inflight ++ [b] }

/-- Entries of a core's delta buffer in use: those of flushes that wait among them (08 R170, R174). -/
def State.deltaUse (s : State) (k : CoreRef) : Nat :=
  (s.ctx k.ctx).inflight.foldl (fun n b => if b.stuck ∧ b.die = k.die ∧ b.core = k.core then n + b.entries.length else n)
    (s.core k).delta.length

/-- A delta as its 32-bit field holds it (08 R170): where the number does not fit, a free value (log 6). -/
def delta32 (x : Int) : Int := if -2 ^ 31 ≤ x ∧ x < 2 ^ 31 then x else (Config.deltaSum x).toInt

/-- A count change of a core that an instruction starts (08 R170, R171). Supervisor cores hold no counts. -/
def State.countBy (s : State) (o : Origin) (k : CoreRef) (loc : Nat) (t : Time) (held : Bool) (d : Int) : State :=
  if k.ctx = 0 ∨ d = 0 then s else
  let e : Delta := ⟨loc, t, held, delta32 d, o⟩
  let s := if s.deltaUse k ≥ Config.deltaEntries ∧ !hasDelta e (s.core k).delta then s.flush k none else s
  s.modCore k fun c =>
    { c with
      delta := (addDelta e c.delta).map fun x => { x with d := delta32 x.d }
      deltaAt := if c.delta = [] then s.now else c.deltaAt }

/-- A count change of a core that no decrement of an instruction starts. -/
def State.count (s : State) (k : CoreRef) (loc : Nat) (t : Time) (held : Bool) (d : Int) : State := s.countBy {} k loc t held d

/-- Must changes at some places and times wait, because they find no room in the buffer and the tilth unit takes no batch (08 R174)? -/
def State.countsBlocked (s : State) (k : CoreRef) (l : List (Nat × Time)) : Bool :=
  let new := l.eraseDups.filter fun x => !hasDelta ⟨x.1, x.2, false, 0, {}⟩ (s.core k).delta
  decide (k.ctx ≠ 0) && decide (new ≠ []) && decide (s.deltaUse k + new.length > Config.deltaEntries) && s.tilthFull k.ctx k.die

/-- Must a change wait (08 R174)? -/
def State.countBlocked (s : State) (k : CoreRef) (loc : Nat) (t : Time) : Bool := s.countsBlocked k [(loc, t)]

/-- The number that the next batch of a core will carry; after a flush its messages wait for it (08 R172). -/
def State.lastBatch (s : State) : Nat := s.ids - 1

/-- A die's tilth unit accepts a batch: its table takes the entries, the root gets the batch (08 R174). -/
def State.dieAccept (s : State) (cx : Nat) (b : Batch) : State :=
  let s := s.modDie cx b.die fun d => { d with counts := addBatch d.counts b.entries }
  (s.spillDie (s.physDie cx b.die)).modCtx cx fun x => { x with toRoot := x.toRoot ++ [b] }

/-- A batch of one entry that a die's tilth unit carries itself (08 R386): behind those that the unit has still to accept, or while it
takes none, it waits (08 R171, R174). -/
def State.dieCount (s : State) (cx d loc : Nat) (t : Time) (n : Int) : Nat × State :=
  let b : Batch := { id := s.ids, die := d, entries := [⟨loc, t, false, n, {}⟩], owner := none }
  let s' := { s with ids := s.ids + 1 }
  (s.ids, if !s.tilthTakes cx b || ((s.ctx cx).inflight.any fun y => y.die == d) then
      s'.modCtx cx fun x => { x with inflight := x.inflight ++ [b] }
    else s'.dieAccept cx b)

/-- Has the die's tilth unit accepted a batch? -/
def State.dieHas (s : State) (cx id : Nat) : Bool := !(s.ctx cx).inflight.any fun b => b.id == id

/-- Has the root accepted a batch (08 R172, R386)? -/
def State.rootHas (s : State) (cx id : Nat) : Bool := s.dieHas cx id && !(s.ctx cx).toRoot.any fun b => b.id == id

/-- The entries of a batch applied in order: a decrement below zero is left out and reported (08 R175). -/
def applyBatch (counts : List Delta) (es : List Delta) : List Delta × List Delta :=
  es.foldl (fun a e =>
    if countAt a.1 e.loc e.time e.held + e.d < 0 then (a.1, a.2 ++ [e]) else (addDelta e a.1, a.2)) (counts, [])

/-- The root's copies of the frontiers computed anew (08 R175). -/
def Ctx.recompute (x : Ctx) : Ctx :=
  { x with f := frontier x.edges x.counts false, fset := frontier x.edges x.counts true }

/-- The die copy of a frontier (08 R176). -/
def State.frontierAt (s : State) (cx d loc : Nat) : Time := mget Time.never loc (s.die cx d).f

/-- The die copy of the settle frontier. -/
def State.settleAt (s : State) (cx d loc : Nat) : Time := mget Time.never loc (s.die cx d).fset

/-- An edge of a context. -/
def State.edge (s : State) (cx e : Nat) : Option Edge := (s.ctx cx).edges[e]?

/-- May a task at a place and time create work at another (01 R29)? -/
def State.reaches (s : State) (cx l0 : Nat) (t0 : Time) (l : Nat) (t : Time) : Bool :=
  (l == l0 && decide (t0 ≤ t)) ||
    (s.ctx cx).edges.any fun e => e.src == l0 && e.dst == l && decide (e.apply t0 ≤ t)

end Sys2Proof.Machine
end

