-- ==== Sys2Proof/Machine/Access.lean ====
section
/-! DEFINITION. The way of an access between a slot and memory: store buffers, read caches, landing of loads, releases
and acquires (05 R111, R112; 09 R184 to R190). -/

namespace Sys2Proof.Machine

open Sys2Proof

/-- The line of a byte. -/
def lineOf (k : Nat) : Nat := k / 64

/-- The newest byte the quad's store buffer holds for a key (05 R112). -/
def forwarded (q : Quad) (k : Nat) : Option Byte :=
  q.sb.foldl (fun a e => match mfind k e.bytes with
    | some b => some b
    | none => a) none

/-- The newest byte that is on its way over a bridge of a quad's die (05 R112; 09 R194). -/
def State.bridged (s : State) (q : QuadRef) (k : Nat) : Option Byte :=
  s.quads.foldl (fun a x =>
    if x.1 / 128 = dieKey q.ctx q.die then
      x.2.sb.foldl (fun a e => if e.out then ((mfind k e.bytes).map some).getD a else a) a
    else a) none

/-- The byte a read-cache copy gives: of HBM and CXL lines only; a copy is found by the task address of its line, in its
quad's context (05 R111). -/
def cached (q : Quad) (va k : Nat) : Option Byte :=
  if keyKind k = 3 ∨ keyKind k = 4 then
    (q.rcache.find? fun c => c.va == va / 64 * 64).bind fun c => mfind (64 * c.line + va % 64) c.bytes
  else none

/-- A byte as a task of the quad reads it at its address: forwarded, else cached, else as its home gives it. -/
def State.seeByte (s : State) (q : QuadRef) (va k : Nat) : Byte :=
  let x := s.quad q
  (forwarded x k).getD ((cached x va k).getD (memGet k s.mem))

/-- The bytes of some keys from a task address on, as a task of the quad reads them. -/
def State.seeBytes (s : State) (q : QuadRef) (va : Nat) (ks : List Nat) : List Byte :=
  ks.zipIdx.map fun x => s.seeByte q (va + x.2) x.1

/-- The register writes of a load whose bytes are read now (13 R277, R279, R280). -/
def State.loadWrites (s : State) (q : QuadRef) (dst : Reg) (parts : List LoadPart) (mask : W32) (bcast : Bool) :
    List RegWrite :=
  let val (p : LoadPart) : Nat := leNat (s.seeBytes q p.va p.keys)
  match dst with
  | .g n => parts.map fun p => .g n (toW (val p))
  | .ring j => parts.map fun p => .ring j (toW (val p))
  | .p n => parts.map fun p => .p n (BitVec.ofNat 32 (val p)) mask
  | .v n =>
    let tab : Map W32 := parts.foldl (fun m p => mput p.lane (BitVec.ofNat 32 (val p)) m) []
    let all := mget 0 0 tab
    [.v n (ofLanes fun i => if bcast then all else mget 0 i tab) mask]

/-- A flight with its value read: an acquiring load acquires when it lands (09 R188). -/
def State.sample (s : State) (q : QuadRef) (f : Flight) : Flight :=
  match f with
  | .load d ps m b none => .value (s.loadWrites q d ps m b)
  | .load d ps m b (some sc) => .acquired (s.loadWrites q d ps m b) sc
  | f => f

/-- The lines a flight still has to read. -/
def Flight.lines (f : Flight) : List Nat :=
  match f with
  | .load _ ps _ _ _ => ps.flatMap fun p => p.keys.map lineOf
  | _ => []

/-- The lines at whose homes an operation on its way has still to be executed (13 R282, R283). -/
def Flight.homeLines (f : Flight) : List Nat :=
  match f with
  | .atomic _ ks _ _ _ _ => ks.map lineOf
  | .fe _ k => [lineOf k]
  | _ => []

/-- Those lines of a slot. -/
def atomicLines (t : Slot) : List Nat := t.flights.flatMap Flight.homeLines

/-- Which of some flights are read before something that follows them reaches some lines: those that read one of the lines, and, going
back in issue order, those that share a line with one of them (09 R192, R193). -/
def readFirst (ls : List Nat) (fs : List Flight) : List Bool :=
  (fs.foldr (fun f (a : List Nat × List Bool) =>
    if f.lines.any fun l => a.1.contains l then (a.1 ++ f.lines, true :: a.2) else (a.1, false :: a.2)) (ls, [])).2

/-- Does an operation of the slot come first at the line of some bytes (09 R193, R198)? -/
def afterAtomic (t : Slot) (ks : List Nat) : Bool := (atomicLines t).any fun l => ks.any fun k => lineOf k == l

/-- Has a load of the slot in flight still to read a line of some bytes (09 R192)? -/
def loadsAhead (t : Slot) (ks : List Nat) : Bool := t.flights.any fun f => f.lines.any fun l => ks.any fun k => lineOf k == l

/-- The lines that a load reads at their homes behind what the die's bridges carry there: the load's request takes the same bridge,
in order (05 R112; 09 R184). -/
def State.behind (s : State) (q : QuadRef) (f : Flight) : List Nat :=
  match f with
  | .load _ ps _ _ _ =>
    let x := s.quad q
    (ps.flatMap fun p => (p.keys.zipIdx.filter fun k =>
      (forwarded x k.1).isNone && (cached x (p.va + k.2) k.1).isNone && (s.bridged q k.1).isSome).map fun k => lineOf k.1)
  | _ => []

/-- What a die's bridges carry for some lines reaches its homes: what follows from the die comes after it (05 R112). -/
def State.bridgeOut (s : State) (cx d : Nat) (ls : List Nat) : State :=
  let go (e : SbEnt) : Bool := e.out && ls.contains e.line
  let on := s.quads.filter fun x => x.1 / 128 == dieKey cx d && x.2.sb.any go
  on.foldl (fun s x =>
    let s := (x.2.sb.filter go).foldl (fun s e => s.store e.bytes) s
    { s with quads := mput x.1 { x.2 with sb := x.2.sb.filter fun e => !go e } s.quads }) s

/-- Some loads in flight of a slot reach their homes. -/
def State.arrived (s : State) (r : SlotRef) (fs : List Flight) : State :=
  s.bridgeOut r.ctx r.die (fs.flatMap (s.behind r.quadRef))

/-- Read the value of every load in flight of a slot: the accesses are performed (09 R187). -/
def State.sampleAll (s : State) (r : SlotRef) : State :=
  let s := s.arrived r (s.slot r).flights
  s.modSlot r fun t => { t with flights := t.flights.map (s.sample r.quadRef) }

/-- Read some loads in flight of a slot, by their places: they reach their homes, behind what the die's bridges carry there. -/
def State.samplePlaces (s : State) (r : SlotRef) (hits : List Bool) : State :=
  let hit (i : Nat) : Bool := hits.getD i false
  let s := s.arrived r (((s.slot r).flights.zipIdx.filter fun x => hit x.2).map Prod.fst)
  s.modSlot r fun t => { t with flights := t.flights.zipIdx.map fun x => if hit x.2 then s.sample r.quadRef x.1 else x.1 }

/-- Read the loads in flight of a slot that come before something of the same task at some lines (09 R192). -/
def State.sampleLines (s : State) (r : SlotRef) (ls : List Nat) : State := s.samplePlaces r (readFirst ls (s.slot r).flights)

/-- Does a result come at a time of its own: from another package, from the home that has still to execute an operation, or at a cycle
that the manual names (08 R181; 12 R253; 13 R282, R283)? -/
def Flight.lasting (f : Flight) : Bool :=
  match f with
  | .remote _ _ _ _ => true
  | .atomic _ _ _ _ _ _ => true
  | .fe _ _ => true
  | .timed _ _ => true
  | _ => false

/-- Has every result of a slot come that no event can land at once (04 R97; 12 R253)? -/
def resting (t : Slot) : Bool := t.flights.all fun f => !f.lasting

/-- Drop the quad's read cache (05 R111). -/
def State.dropReadCache (s : State) (q : QuadRef) : State := s.modQuad q fun x => { x with rcache := [] }

/-- Does a line of stores happen before what the slot's task does: its own, or one that it has acquired (09 R188)? -/
def SbEnt.mine (e : SbEnt) (r : SlotRef) : Bool := e.who == r || e.heirs.contains r

/-- Store-buffer entries split into those that go home for a slot, with every earlier entry of their lines, and those
that stay. -/
def splitSb (who : SlotRef) : List SbEnt → List SbEnt × List SbEnt
  | [] => ([], [])
  | e :: rest =>
    let p := splitSb who rest
    if e.mine who || rest.any fun x => x.mine who && x.line == e.line then (e :: p.1, p.2) else (p.1, e :: p.2)

/-- Is the line homed on another package? -/
def farEnt (e : SbEnt) : Bool := keyKind (e.line * 64) == 6

/-- Is a line homed on another die than the slot's (05 R107 to R109, R114; log 68)? HBM lines lie in their die's stacks. -/
def State.offDie (s : State) (r : SlotRef) (k : Nat) : Bool :=
  match keyKind k with
  | 0 => keyUnit k / 2048 % 4 != r.die
  | 1 => keyUnit k / 512 % 4 != r.die
  | 2 => keyUnit k / 128 % 4 != r.die
  | 3 => keyOff k / 2 ^ 37 % 4 != s.physDie r.ctx r.die
  | _ => false

/-- A slot's stores that go reach their homes, with the earlier stores of the quad to the same lines (05 R112); the others
stay. -/
def State.drainIf (s : State) (r : SlotRef) (go : SbEnt → Bool) : State :=
  let s := s.bridgeOut r.ctx r.die (((splitSb r (s.quad r.quadRef).sb).1.filter go).map SbEnt.line)
  let p := splitSb r (s.quad r.quadRef).sb
  let s := (p.1.filter go).foldl (fun s e => s.store e.bytes) s
  s.modQuad r.quadRef fun x => { x with sb := (p.1.filter fun e => !go e) ++ p.2 }

/-- Can a line of stores leave for its home now: one to another package only where its link sends (21 R379)? -/
def State.canLeave (s : State) (e : SbEnt) : Bool := !farEnt e || s.sendsTo (keyUnit (e.line * 64))

/-- A slot's stores reach their homes; those that a link holds back stay (05 R112; 21 R379). -/
def State.drain (s : State) (r : SlotRef) : State := s.drainIf r s.canLeave

/-- Has every result that comes from another package landed, and every operation at a home been executed (04 R97; 09 R187)? -/
def settled (t : Slot) : Bool := t.flights.all fun f => match f with
  | .remote _ _ _ _ => false
  | .atomic _ _ _ _ _ _ => false
  | .fe _ _ => false
  | _ => true

/-- Every store of a quad reaches its home, whoever issued it; those that a link holds back stay. -/
def State.drainQuad (s : State) (q : QuadRef) : State :=
  let go := s.canLeave
  let s := s.bridgeOut q.ctx q.die ((s.quad q).sb.map SbEnt.line)
  let s' := ((s.quad q).sb.filter go).foldl (fun s e => s.store e.bytes) s
  s'.modQuad q fun x => { x with sb := x.sb.filter fun e => !go e }

/-- Every store of a quad to some lines reaches its home, behind those that the die's bridges carry, and the quad's copies of the
lines go: what follows acts there (09 R184, R192). -/
def State.drainLines (s : State) (q : QuadRef) (ls : List Nat) : State :=
  let s := s.bridgeOut q.ctx q.die ls
  let sb := (s.quad q).sb
  let s := (sb.filter fun e => ls.contains e.line).foldl (fun s e => s.store e.bytes) s
  s.modQuad q fun x =>
    { x with sb := x.sb.filter fun e => !ls.contains e.line, rcache := x.rcache.filter fun c => !ls.contains c.line }

/-- Do the links hold back a store that happens before a release at a scope: one to another package (05 R112; 09 R187; 21 R379; log
89)? -/
def State.linksHold (s : State) (r : SlotRef) (sc : Scope) : Bool :=
  sc.atLeast 2 && (splitSb r (s.quad r.quadRef).sb).1.any fun e => !s.canLeave e

/-- Is an acquiring access of the slot still in flight (09 R188)? -/
def acquiring (t : Slot) : Bool := t.flights.any fun f => match f with
  | .load _ _ _ _ (some _) => true
  | .acquired _ _ => true
  | .remote _ _ _ (some _) => true
  | .atomic _ _ _ _ _ (some _) => true
  | _ => false

/-- Has everything that a later ordering point of the slot carries come: results of other packages, operations at their homes, and the
acquires, after whose releases it follows (09 R187, R188)? -/
def quiet (t : Slot) : Bool := settled t && !acquiring t

/-- Can a release at a scope be made now: what it carries has come, and the links hold back no store of the task (05 R112; 09 R187,
R188)? -/
def State.mayRelease (s : State) (r : SlotRef) (sc : Scope) : Bool := quiet (s.slot r) && !s.linksHold r sc

/-- A slot's stores to lines of other dies leave the store buffer for the bridges (05 R112; 09 R194). -/
def State.toBridge (s : State) (r : SlotRef) : State :=
  let off (e : SbEnt) : Bool := s.offDie r (64 * e.line) && !e.out
  let ls := ((splitSb r (s.quad r.quadRef).sb).1.filter off).map SbEnt.line
  if ls = [] then s else
  let s := s.bridgeOut r.ctx r.die ls
  let p := splitSb r (s.quad r.quadRef).sb
  s.modQuad r.quadRef fun x => { x with sb := (p.1.map fun e => { e with out := e.out || ls.contains e.line }) ++ p.2 }

/-- The store-buffer entries of a die's quads changed. -/
def State.mapSb (s : State) (cx d : Nat) (f : SbEnt → SbEnt) : State :=
  { s with quads := s.quads.map fun (x : Nat × Quad) =>
    if x.1 / 128 = dieKey cx d ∧ x.2.sb ≠ [] then (x.1, { x.2 with sb := x.2.sb.map f }) else x }

/-- The wider of two scopes. -/
def wider (a b : Scope) : Scope := if a.bits.toNat < b.bits.toNat then b else a

/-- The stores that happen before a task's release are released at its scope (09 R188). -/
def State.markReleased (s : State) (r : SlotRef) (sc : Scope) : State :=
  s.mapSb r.ctx r.die fun e => if e.mine r then { e with rel := some ((e.rel.map (wider sc)).getD sc) } else e

/-- Does an acquire of a slot at a scope match a release of a line of stores (09 R186, R188)? One that waits in a store buffer has
been released to its quad at the widest, one on a bridge to its die (05 R112). -/
def SbEnt.matches_ (e : SbEnt) (r : SlotRef) (sc : Scope) : Bool :=
  let from_ := e.who :: e.heirs
  match e.rel with
  | none => false
  | some rl =>
    from_.any (fun w => w.coreRef == r.coreRef) ||
      (rl.atLeast 1 && sc.atLeast 1 && from_.any fun w => w.quadRef == r.quadRef) || (e.out && rl.atLeast 2 && sc.atLeast 2)

/-- The stores that a matching release made happen before a task's acquire happen before what the task does next, its releases among
it: happens-before is transitive (09 R188, R191). -/
def State.inherit (s : State) (r : SlotRef) (sc : Scope) : State :=
  s.mapSb r.ctx r.die fun e => if !e.mine r && e.matches_ r sc then { e with heirs := e.heirs ++ [r] } else e

/-- What the die's bridges carry of the stores that happen before a task's release (05 R112). -/
def State.carried (s : State) (r : SlotRef) : List Nat :=
  s.quads.flatMap fun x =>
    if x.1 / 128 = dieKey r.ctx r.die then (x.2.sb.filter fun e => e.out && e.mine r).map SbEnt.line else []

/-- Every earlier access of a task is performed at a scope (09 R187; 05 R112): loads have their values; from die scope on
stores are at their homes, but that one homed on another die may be on its way over a bridge, where its die sees it, until pkg
scope asks for it (09 R194). The stores are those that happen before, whichever task's they are. -/
def State.perform (s : State) (r : SlotRef) (sc : Scope) : State :=
  let s := (s.sampleAll r).markReleased r sc
  if sc.atLeast 3 then (s.bridgeOut r.ctx r.die (s.carried r)).drain r
  else if sc.atLeast 2 then (s.drainIf r fun e => s.canLeave e && !s.offDie r (64 * e.line)).toBridge r
  else s

/-- A release (09 R188): what a fence before it asks for is performed too. -/
def State.release (s : State) (r : SlotRef) (sc : Scope) : State :=
  let t := s.slot r
  let sc := ([t.fence, t.fenceE].filterMap id).foldl (fun a b => wider a b) sc
  (s.perform r sc).modSlot r fun t => { t with fence := none, fenceAll := false, fenceE := none }

/-- Does a fence hold an instruction back, by what it touches: a load, a store, an engine that it releases (09 R189)? -/
def Slot.fenced (t : Slot) (x : Bool × Bool × Bool) : Bool :=
  (t.fence.isSome && (x.2.1 || (x.1 && t.fenceAll))) || (t.fenceE.isSome && x.2.2)

/-- What fences held back is performed before an instruction that they order (09 R189; log 86). -/
def State.meetFence (s : State) (r : SlotRef) (x : Bool × Bool × Bool) : State :=
  let t := s.slot r
  match t.fence, t.fenceE with
  | some sc, e =>
    if x.2.1 || (x.1 && t.fenceAll) || (e.isSome && x.2.2) then s.release r sc else s
  | none, some sc => if x.2.2 then s.release r sc else s
  | none, none => s

/-- An acquire whose own value has landed: from die scope on the read cache is dropped (09 R188). -/
def State.acquire (s : State) (r : SlotRef) (sc : Scope) : State :=
  let s := s.inherit r sc
  if sc.atLeast 2 then s.dropReadCache r.quadRef else s

/-- Keys of bytes grouped by line, with a value each. -/
def byLine (ps : List (Nat × Byte)) : List (Nat × List (Nat × Byte)) :=
  ps.foldl (fun m p => mput (lineOf p.1) (mput p.1 p.2 (mget [] (lineOf p.1) m)) m) []

/-- Does a store go straight to its home: the issuing core's own local store (05 R108)? -/
def ownLocal (r : SlotRef) (k : Nat) : Bool :=
  (keyKind k == 0 && keyUnit k == slotKey r) || (keyKind k == 1 && keyUnit k == coreKey r.coreRef)

/-- A task's store: to its own core at once, behind what the quad's store buffer holds for the line, else through the store buffer;
the quad's cached copy of the line is dropped (05 R111, R112). Loads in flight of the task to the same lines are read first. -/
def State.put (s : State) (r : SlotRef) (ps : List (Nat × Byte)) : State :=
  let s := s.sampleLines r (ps.map fun p => lineOf p.1)
  let own := ps.filter fun p => ownLocal r p.1
  let far := ps.filter fun p => !ownLocal r p.1
  let s := if own = [] then s else (s.drainLines r.quadRef (own.map fun p => lineOf p.1)).store own
  if far = [] then s else
  let ents := (byLine far).map fun e => { who := r, line := e.1, bytes := e.2 : SbEnt }
  s.modQuad r.quadRef fun x =>
    { x with sb := x.sb ++ ents, rcache := x.rcache.filter fun c => !(ents.any fun e => e.line == c.line) }

/-- Has the store buffer room for a store (05 R112)? -/
def State.sbRoom (s : State) (r : SlotRef) (ps : List (Nat × Byte)) : Bool :=
  let far := ps.filter fun p => !ownLocal r p.1
  decide (((s.quad r.quadRef).sb.filter fun e => !e.out).length + (byLine far).length ≤ Config.storeEntries)

/-- Is a poisoned granule still poisoned for a task: no stores on their way cover it whole (10 R220)? -/
def State.hot (s : State) (r : SlotRef) (g : Nat) : Bool :=
  !(List.range (granuleSize (keyKind g))).all fun i =>
    (forwarded (s.quad r.quadRef) (g + i)).isSome || (s.bridged r.quadRef (g + i)).isSome

end Sys2Proof.Machine
end

