-- ==== Sys2Proof/Machine/Home.lean ====
section
/-! DEFINITION. What is done at the home of a word when an access gets there: the step of an ldf, full-empty operations, atomics; how
results land; and how an instruction leaves the issue port (04 R96, R97, R99; 13 R281 to R283). -/

namespace Sys2Proof.Machine

open Sys2Proof

/-! ## Leaving the issue port -/

/-- The address of the next instruction: in sequence, or the next step or pass of a repetition (12 R272). -/
def advance (t : Slot) (len : Nat) : Slot :=
  match t.rep with
  | none => { t with pc := t.pc + toW len }
  | some x =>
    if x.pos + 1 < x.len then { t with pc := t.pc + toW len, rep := some { x with pos := x.pos + 1 } }
    else if x.pass + 1 < x.passes then { t with pc := x.start, rep := some { x with pos := 0, pass := x.pass + 1 } }
    else { t with pc := t.pc + toW len, rep := none }

/-- The aperture stores after one more instruction of the task: the third one lands them, and until then a direct read gives the
old value (04 R99; log 87). It lands over what was written to the register directly meanwhile (log 96). -/
def ageAperture (t : Slot) : Slot :=
  let due := t.aperture.filter fun a => decide (a.after ≤ 1)
  { due.foldl landAp t with
    aperture := (t.aperture.filter fun a => !decide (a.after ≤ 1)).map fun a => { a with after := a.after - 1 } }

/-- An instruction leaves the issue port: the pc goes on, the stall count runs (02 R58), the instruction counts for
04 R99. -/
def retire (t : Slot) (now : Nat) (w : BitVec 2) (len : Nat) : Slot :=
  let t := advance (ageAperture t) len
  { t with
    ready := now + w.toNat + 1, issued := t.issued + 1, starve := 0,
    recent := t.recent.filter fun x => decide (t.issued ≤ x.1 + 3) }

/-- Note the registers an instruction is about to write as they stand, for aperture loads that follow too closely
(04 R99). -/
def noteRecent (t : Slot) (ws : List Reg) : Slot :=
  { t with recent := t.recent ++ ws.map fun x => (t.issued, snapReg t x) }

/-- Variable-latency results of an instruction that issues now: their registers are busy until they land (04 R96). -/
def State.fly (s : State) (r : SlotRef) (f : Flight) : State := s.modSlot r fun t => { t with flights := t.flights ++ [f] }

/-! ## Full-empty words -/

/-- The scope of an access's acquire or release, if it has one. -/
def acqOf (o : Ord) (sc : Scope) : Option Scope :=
  match o with
  | .acq => some sc
  | .acqrel => some sc
  | _ => none
/-- The flight of a value that a load takes from a window: with an acquire where the load has one (13 R277, R279). -/
def winFlight (acq : Option Scope) (ws : List RegWrite) : Flight :=
  match acq with
  | none => .value ws
  | some sc => .acquired ws sc

/-- The words an ldf names. -/
def ldfWords (z : BitVec 1) (k : Nat) : List Nat := if z = 1 then [k, k + 4] else [k]

/-- The step of an ldf at the home: the words are read, and emptied where it takes (13 R281). -/
def State.ldfStep (s : State) (r : SlotRef) (dst : Reg) (k : Nat) (z : BitVec 1) (take : Bool) (acq : Option Scope) : State :=
  let n := if z = 1 then 8 else 4
  let ks := keysFrom k n
  let s := (s.sampleLines r (ks.map lineOf)).drainLines r.quadRef (ks.map lineOf)
  let v := leNat (ks.map fun k => memGet k s.mem)
  let s := if take then (ldfWords z k).foldl (fun s k => s.setFull k false) s else s
  s.fly r (winFlight acq [regOf dst (leBytes dst.size v)])

/-- A waiting ldf whose words are all full makes its step, and its wait is over (13 R281). -/
def State.serveLdf (s : State) (r : SlotRef) : State :=
  match (s.slot r).wait with
  | some w =>
    match w.instr with
    | .ldf c d _ o sc z take =>
      let k := w.info.key
      let t := { s.slot r with wait := none }
      if ((ldfWords z k).all s.isFull) && s.mayGoOn r && (poisoned s (keysFrom k (if z = 1 then 8 else 4))).isNone then
        (s.setSlot r (retire (noteRecent t [xReg t d]) s.now c.w w.len)).ldfStep r (xReg t d) k z take (acqOf o sc)
      else s
    | _ => s
  | none => s

/-- The slots with an ldf waiting at the home of a word, in the order of their first arrival (13 R281). -/
def State.ldfWaiters (s : State) (k : Nat) : List SlotRef :=
  let l := s.slots.filterMap fun x => x.2.wait.bind fun w =>
    if w.info.cause = 7 ∧ w.info.key ≤ k ∧ k < w.info.key + 4 * w.info.i1 then some (w.seq, slotOfKey x.1) else none
  (l.mergeSort fun a b => decide (a.1 ≤ b.1)).map Prod.snd

/-- A word becomes full: each waiting ldf reaches the home again in turn, and one that finds every word full makes its step
(13 R281; log 70). -/
def State.fill (s : State) (k : Nat) : State :=
  let s := s.setFull k true
  (s.ldfWaiters k).foldl (fun s r => s.serveLdf r) s

/-- A completion word becomes full where it carries a full-empty bit (05 R125). -/
def State.setFullIf (s : State) (c : Bool) (k : Nat) : State := if c then s.fill k else s

/-! ## Operations at a home -/

/-- An atomic at its word's home, in one step: the old value, which it returns, and the package (13 R283). -/
def State.atomicStep (s : State) (r : SlotRef) (ks : List Nat) (f : Aop) (b new : W32) : W32 × State :=
  let s := s.drainLines r.quadRef (ks.map lineOf)
  let old : W32 := BitVec.ofNat 32 (leNat (ks.map fun k => memGet k s.mem))
  (old, s.store (ks.zip (leBytes 4 (aop f old b new).toNat)))

/-- A word in a scalar register, as a write of it. -/
def Reg.word (d : Reg) (x : W32) : List RegWrite := [regOf d (leBytes d.size x.toNat)]

/-- A full-empty operation at its word's home, in one step: what it writes to a register, and the package (13 R282). -/
def State.feStep (s : State) (r : SlotRef) (op : FeOp) (k : Nat) : List RegWrite × State :=
  let s := s.drainLines r.quadRef [lineOf k]
  match op with
  | .fset => ([], s.fill k)
  | .fclr => ([], s.setFull k false)
  | .stf x => ([], (s.storeLE k 4 x.toNat).fill k)
  | .fprobe d => (d.word (if s.isFull k then 1 else 0), s)

/-- An operation on its way executed at its home: its result, on the way back, and the package (13 R282, R283). -/
def State.homeOp (s : State) (r : SlotRef) (f : Flight) : Option (Flight × State) :=
  match f with
  | .atomic d ks g b new acq =>
    let x := s.atomicStep r ks g b new
    some (winFlight acq (d.word x.1), x.2)
  | .fe op k =>
    let x := s.feStep r op k
    some (.value x.1, x.2)
  | _ => none

/-- The operation in a place of a slot's flights executed at its home. -/
def State.homeAt (s : State) (r : SlotRef) (i : Nat) : State :=
  match ((s.slot r).flights[i]?).bind (s.homeOp r) with
  | some x => x.2.modSlot r fun t => { t with flights := t.flights.set i x.1 }
  | none => s

/-- The operations of a slot at some lines that their homes have still to execute are executed, in order, behind its earlier loads
there (09 R192; 13 R282, R283). -/
def State.homeIf (s : State) (r : SlotRef) (go : Nat → Bool) : State :=
  let s := s.sampleLines r ((atomicLines (s.slot r)).filter go)
  (List.range (s.slot r).flights.length).foldl (fun s i =>
    if ((s.slot r).flights[i]?).any fun f => f.homeLines.any go then s.homeAt r i else s) s

/-- Every operation of a slot that a home has still to execute is executed. -/
def State.atomicsHome (s : State) (r : SlotRef) : State := s.homeIf r fun _ => true

/-- The accesses on their way to some lines, whichever task's, come first: loads have their values, operations have been executed. -/
def State.sampleEverywhere (s : State) (ls : List Nat) : State :=
  s.slots.foldl (fun s x => if x.2.flights = [] then s else
    let r := slotOfKey x.1
    (s.homeIf r ls.contains).sampleLines r ls) s

/-! ## Landing -/

/-- Land one flight of a slot: earlier loads of the same lines are read first, with those that come before them (09 R192), an operation
is executed at its home, then the value goes to the register and the busy bit clears (04 R96). A remote result that has not come lands
nothing. -/
def State.landOne (s : State) (r : SlotRef) (i : Nat) : State :=
  match (s.slot r).flights[i]? with
  | none => s
  | some f =>
    let s := (s.samplePlaces r (readFirst (f.lines ++ f.homeLines) ((s.slot r).flights.take i) ++ [true])).homeAt r i
    let t := s.slot r
    let rest := t.flights.eraseIdx i
    match t.flights[i]? with
    | some (.timed ws due) => if due ≤ s.now then s.setSlot r { applyWrites t ws with flights := rest } else s
    | some (.value ws) => s.setSlot r { applyWrites t ws with flights := rest }
    | some (.acquired ws sc) => (s.setSlot r { applyWrites t ws with flights := rest }).acquire r sc
    | _ => s

/-- The writes of a result that can land now. -/
def Flight.readyWrites (f : Flight) : List RegWrite :=
  match f with
  | .value ws => ws
  | .acquired ws _ => ws
  | _ => []

/-- Land every result of a slot that can land, in order, with its aperture stores (04 R97, R99; 09 R188). The result of another
package has to come first, and that of a division lands at its cycle (12 R253). -/
def State.landSlot (s : State) (r : SlotRef) : State :=
  let s := s.arrived r (s.slot r).flights
  let t := s.slot r
  let fs := t.flights.map (s.sample r.quadRef)
  let u := t.aperture.foldl landAp (applyWrites (landAll t) (fs.flatMap Flight.readyWrites))
  let s := s.setSlot r { u with flights := t.flights.filter Flight.lasting, aperture := [], recent := [] }
  fs.foldl (fun s f => match f with
    | .acquired _ sc => s.acquire r sc
    | _ => s) s

/-- Land what can land of a slot that has results on their way, its operations at homes executed. -/
def State.landBusy (s : State) (r : SlotRef) : State :=
  if (s.slot r).flights = [] ∧ (s.slot r).pend = [] ∧ (s.slot r).aperture = [] then s else (s.atomicsHome r).landSlot r

end Sys2Proof.Machine
end

