-- ==== Sys2Proof/Machine/Ops.lean ====
section
/-! DEFINITION. Taking a fault and what surrounds it: packets and their queue, reports and notices, halt groups, the
return from a frozen slot (06 R141; 10 R209 to R218, R225 to R227); and the frame of every instruction: readiness, guard,
retirement, waiting (02 R58; 04 R94 to R97; 11 R231, R232). -/

namespace Sys2Proof.Machine

open Sys2Proof

/-- A packet from its fields (10 R212). -/
def mkPacket (cls cause pkind : Nat) (wdp : Bool) (snap : Nat) (more : Bool) (ctx pslot : Nat) (who pc : Word) (iword aux : W32)
    (addr idx : Word) (tail : BitVec 128) : Packet :=
  let b2 := pkind + (if wdp then 4 else 0)
  let b3 := snap + (if more then 8 else 0)
  tail ++ idx ++ addr ++ aux ++ iword ++ pc ++ who ++ BitVec.ofNat 16 pslot ++ BitVec.ofNat 16 ctx ++ BitVec.ofNat 8 b3
    ++ BitVec.ofNat 8 b2 ++ BitVec.ofNat 8 cause ++ BitVec.ofNat 8 cls

/-- Bytes of a packet (10 R212). -/
def packetBytes (p : Packet) : List Byte := leBytes 64 p.toNat

/-- Wake the slots of a supervisor core from park (06 R141). -/
def State.wakeSup (s : State) (pd : Nat) : State :=
  (List.range 4).foldl (fun s n => s.modSlot ⟨0, pd, supCore, n⟩ (fun t => { t with wake := true })) s

/-- Has the supervisor queue of a die room (06 R141)? -/
def State.sqRoom (s : State) (pd : Nat) : Bool :=
  decide ((s.pdie pd).sqTail - (s.pdie pd).sqHead ≠ BitVec.ofNat 32 Config.packetQueue)

/-- Write a packet at the tail of a die's supervisor queue (06 R141). -/
def State.pushPacket (s : State) (pd : Nat) (p : Packet) : State :=
  let q := s.pdie pd
  let at_ := pkey .hbm 0 (q.sqBase.toNat + 64 * (q.sqTail.toNat % Config.packetQueue))
  let s := s.store ((packetBytes p).zipIdx.map fun b => (at_ + b.2, b.1))
  let s := s.modPdie pd fun d => { d with sqTail := d.sqTail + 1 }
  s.wakeSup pd

/-- A packet with no frozen slot: queued, or held by the die in order of origin (06 R141). -/
def State.offer (s : State) (pd : Nat) (p : Packet) : State :=
  if s.sqRoom pd && (s.pdie pd).heldPkts.isEmpty then s.pushPacket pd p
  else s.modPdie pd fun d => { d with heldPkts := d.heldPkts ++ [p], offered := if d.heldPkts = [] then s.now else d.offered }

/-- A report (10 R215): who and pc name the slot and instruction that started the work. -/
def State.report (s : State) (pd : Nat) (ctx : Nat) (r : SlotRef) (who pc : Word) (iword : W32) (tr : Trap) : State :=
  let tail := tr.tail.getD (0, 0)
  s.offer pd (mkPacket tr.cls tr.cause 1 false tail.1 false ctx (s.pSlot r) who pc iword tr.aux tr.addr tr.idx tail.2)

/-- A notice (10 R215): the context whose queue or table it tells of, 0 for none, its cause, and the queue, unit, quad or
partition concerned (log 63). -/
def State.notice (s : State) (pd ctx : Nat) (cause : Nat) (addr : Word) : State :=
  s.offer pd (mkPacket 0 cause 2 false 0 false ctx 0 0 0 0 0 addr 0 0)

/-! ## Fields of the shadow set -/

/-- A register of a shadow set. -/
def mcReg (mc : List Word) (n : Nat) : Word := mc.getD n 0
/-- A field of a register of a shadow set. -/
def mcF (mc : List Word) (n lo k : Nat) : Nat := bits (mcReg mc n) lo k

/-- Arith cycles over which the rows of a stream enter (15 R318). -/
def enterCycles (mc : List Word) (b : Bank) : Nat :=
  let m := mcF mc 3 0 11
  let xk := mcF mc 4 5 3
  let wk := bits b.mc7 5 3
  if xk ≠ 0 ∨ wk ≠ 0 then 4 * m
  else if mcF mc 4 0 3 ≤ 4 ∧ bits b.mc7 0 3 ≤ 4 then cdiv m 2
  else m

/-- Rows whose cycle to land has come, of a running stream: two a cycle where they enter so, else one in so many cycles (15 R318). -/
def rowsDue (a : Arr) (x : ArrRun) (now : Nat) : Nat :=
  let e := enterCycles x.cmd.mc a.active
  let m := mcF x.cmd.mc 3 0 11
  let t := now - (x.finish - (e + 263))
  let n := t - 264 + 1
  if t < 264 then 0 else min m (if e < m then 2 * n else n * m / (max e 1))

/-- Rows landed of a running stream (15 R318, R323). -/
def rowsLanded (a : Arr) : Nat := ((a.run.find? fun x => x.cmd.kind == 2).map ArrRun.done).getD 0

/-- The snapshot of work a task of a physical die released, with its code, or none where it is complete (10 R214). -/
def State.snapOf (s : State) (r : SlotRef) (die : Nat) (h : Held) : Option (Nat × BitVec 128) :=
  let d := s.die r.ctx r.die
  match h with
  | .ring a n => some (4, n ++ a)
  | .copy id es => (mfind id d.scheds).bind fun sc =>
      let n := sc.entries.zipIdx.find? fun e => es.contains e.2 && !sc.done.contains e.2
      n.map fun e =>
        let ch := mget {} e.1.chan d.chans
        let cnt := mget 0 e.1.chan sc.counters
        let at_ : Nat × Nat := if ch.queue.head? = some id ∧ ch.run = some e.2 then (ch.bytes % 2 ^ 32, ch.mark.toNat) else (0, 0)
        (1, BitVec.ofNat 128 (e.1.chan % 32 + e.1.chan / 32 * 2 ^ 8 + e.2 * 2 ^ 16 + at_.1 * 2 ^ 32 + at_.2 * 2 ^ 64
          + cnt * 2 ^ 96))
  | .matrix qd q id =>
      let a := (s.quad ⟨r.ctx, qd, q⟩).arr
      let one (c : ArrCmd) (rows : Nat) : Nat × BitVec 128 :=
        (2, BitVec.ofNat 128 (q + bits (c.mc.getD 5 0) 0 8 * 2 ^ 8 + rows * 2 ^ 32 + bits (c.mc.getD 3 0) 0 11 * 2 ^ 64))
      match a.run.find? fun x => x.cmd.id == id with
      | some x => some (one x.cmd x.done)
      | none => (a.queue.find? fun c => c.id == id).map fun c => one c 0
  | .silt id =>
      ((s.pdie die).silt.find? fun q => q.id == id).map fun q =>
        (3, BitVec.ofNat 128 (4 * die + q.drive % 4 + q.drive * 2 ^ 8 + q.cid.getD 0 * 2 ^ 16
          + q.status % 65536 * 2 ^ 32 + (if q.cid.isSome then 1 else 0) * 2 ^ 48 + q.lba * 2 ^ 64))

/-- The snapshots of the work that a task of a physical die holds, in their order: a ring entry first, then the oldest copy entry,
matrix stream and silt request in issue order (10 R214). -/
def State.snapsOf (s : State) (r : SlotRef) (die : Nat) (held : List Held) : List (Nat × BitVec 128) :=
  let all := held.filterMap (s.snapOf r die)
  let rings := all.filter fun x => x.1 == 4
  let rest := all.filter fun x => x.1 != 4
  let firsts := rest.foldl (fun l x => if l.any fun y => y.1 == x.1 then l else l ++ [x]) []
  (rings.take 1 ++ firsts).take 4

/-- The snapshots of a slot (10 R214). -/
def State.snapshots (s : State) (r : SlotRef) : List (Nat × BitVec 128) := s.snapsOf r (s.physDie r.ctx r.die) (s.slot r).held

/-- Halt groups named by a cross-trigger mask (10 R225, 21 R374). -/
def trigList (m : Word) : List (Nat × Nat) :=
  (List.range 64).filterMap fun i => if m.getLsbD i then some (i / 16, i % 16) else none

/-- Stop one halt group, which counts as stopping until the cycle is over (21 R374): its members' delta buffers are flushed and results land, so that no busy bit is left (08
R171; 10 R216, R226). -/
def State.stopGroup (s : State) (pd g : Nat) : State :=
  let h := mget {} g (s.pdie pd).halts
  let s := s.modPdie pd fun d => { d with halts := mput g { h with st := 1, since := s.clock } d.halts }
  (List.range 256).foldl (fun s pk =>
    if (h.mem.getD (pk / 64) 0).getLsbD (pk % 64) then
      match s.coreAtPhys pd pk with
      | some k => (List.range 4).foldl (fun s n => s.landBusy (k.slotRef n)) (s.flush k none)
      | none => s
    else s) s

/-- Stop a halt group and the groups its cross-trigger reaches (10 R225, R226). -/
def State.haltStop (s : State) : Nat → List (Nat × Nat) → State
  | 0, _ => s
  | _ + 1, [] => s
  | n + 1, (pd, g) :: rest =>
    let h := mget {} g (s.pdie pd).halts
    if h.st ≠ 0 then s.haltStop n rest
    else (s.stopGroup pd g).haltStop n (rest ++ trigList h.trig)

/-- Groups named at once by one stop: every group can be named once by every other. -/
abbrev haltFuel : Nat := 64 * 65

/-- Stop some halt groups of a die. -/
def State.haltGroups (s : State) (pd : Nat) (gs : List Nat) : State := s.haltStop haltFuel (gs.map fun g => (pd, g))

/-- A watchdog that runs out with the cycle of a faulting instruction stays pending (10 R210). -/
def wdogAtFault (t : Slot) (runs : Bool) (tr : Trap) : Slot :=
  if tr.cls ≠ 0x0D ∧ t.wdog = 1 ∧ t.st = .running ∧ runs then { t with wdog := 0, wdogPend := true } else t

/-- The slot at a fault: frozen with its pc at the instruction and npc at the address after it in memory (10 R211, R217). -/
def freezeAt (t : Slot) (pc : Word) (len : Nat) (brk : Bool) (snaps : List (Nat × BitVec 128)) : Slot :=
  { t with
    st := .frozen, pc := pc, npc := pc + toW len, wait := none, walk := none, reply := none, fault := none,
    fdrop := none, snaps := snaps, brk := brk }

/-- The snapshots a fault shows (10 R214): a ring entry first, then that of the fault's own tail, where it has one, then the
rest of the slot's work. A tail without a snapshot leaves them all for the debug window (log 88). -/
def shownSnaps (tr : Trap) (snaps : List (Nat × BitVec 128)) : List (Nat × BitVec 128) :=
  match tr.tail with
  | some x =>
    if x.1 = 0 then snaps
    else (snaps.filter fun y => y.1 == 4) ++ x :: snaps.filter fun y => y.1 != 4 && y.1 != x.1
  | none => snaps

/-- Bytes 48 to 63 of a fault's packet with their code, and whether the debug window shows further snapshots (10 R212,
R214). -/
def packetTail (tr : Trap) (snaps : List (Nat × BitVec 128)) : (Nat × BitVec 128) × Bool :=
  let l := shownSnaps tr snaps
  match tr.tail with
  | some (0, b) => ((0, b), !l.isEmpty)
  | _ => (l.getD 0 (0, 0), decide (l.length > 1))

/-- The packet of a fault (10 R212). -/
def State.faultPacket (s : State) (r : SlotRef) (pc : Word) (tr : Trap) : Packet :=
  let t := s.slot r
  let x := packetTail tr (s.snapshots r)
  mkPacket tr.cls tr.cause (if r.core = supCore then 1 else 0) t.wdogPend x.1.1 x.2 r.ctx
    (s.pSlot r) (s.cId r) pc t.iword tr.aux tr.addr tr.idx x.1.2

/-- Where the packet of a frozen slot goes (06 R141; 21 R373): to the supervisor queue of its die, or it stays with the slot
while that queue is full; that of a supervisor slot to the host. -/
def State.sendPacket (s : State) (r : SlotRef) (p : Packet) : State :=
  let pd := s.physDie r.ctx r.die
  if r.core = supCore then
    { (s.modPdie pd fun d => { d with srep := p }) with supf := true, ucie := s.ucie ++ [BitVec.ofNat 16 (0x100 + pd)] }
  else if s.sqRoom pd then s.pushPacket pd p
  else s.modSlot r fun t => { t with packet := some p, ready := s.now + Config.packetPeriod }

/-- A slot freezes at a fault (10 R211, R212, R217): earlier results land; the packet goes out; a member fault under stopf stops
its halt groups (10 R225). -/
def State.freeze (s : State) (r : SlotRef) (pc : Word) (len : Nat) (tr : Trap) : State :=
  let s := (s.landSlot r).modSlot r fun t => wdogAtFault t (!s.ctxHalted r.ctx) tr
  let p := s.faultPacket r pc tr
  let shown := (shownSnaps tr (s.snapshots r)).take 4
  let s := (s.modSlot r fun t => freezeAt t pc len (decide (tr.cls = 0x0E)) shown).sendPacket r p
  let pd := s.physDie r.ctx r.die
  s.haltGroups pd ((s.haltsOf r.coreRef).filter fun g => (mget {} g (s.pdie pd).halts).stopf)

/-- Taking a fault: the slot freezes, once results of other packages have come, operations at homes have been executed and divisions have
landed (04 R97); until then it issues nothing and keeps the fault. -/
def State.takeFault (s : State) (r : SlotRef) (pc : Word) (len : Nat) (tr : Trap) : State :=
  if resting (s.slot r) then s.freeze r pc len tr
  else s.modSlot r fun t => { t with fault := some (pc, len, tr), wait := none, walk := none, fdrop := none }

/-- A slot whose fault waited for results freezes when they have landed (04 R97). -/
def State.freezeLate (s : State) (r : SlotRef) : State :=
  match (s.slot r).fault with
  | some (pc, len, tr) =>
    let s := s.atomicsHome r
    if resting (s.slot r) then s.freeze r pc len tr else s
  | none => s

/-- The return from a fault: the slot issues at an address again (10 R217). -/
def State.unfreeze (s : State) (r : SlotRef) (pc : Word) : State :=
  let s := match (s.slot r).packet with
    | some p => s.offer (s.physDie r.ctx r.die) p
    | none => s
  s.modSlot r fun t =>
    { t with st := .running, pc := pc, ready := s.now, starve := 0, snaps := [], brk := false, packet := none }

/-- dsts of a physical core's slot (10 R217). -/
def State.dsts (s : State) (pd k n : Nat) : Nat :=
  match s.partAt pd k with
  | none => 0
  | some x =>
    if (s.part x.1).ctx = 0 then 5 else
    let kr : CoreRef := ⟨(s.part x.1).ctx, x.2.1, x.2.2⟩
    let t := s.slot (kr.slotRef n)
    let h := s.coreHalted kr
    match t.st with
    | .empty => 0
    | .running => if h then 3 else 1
    | .frozen => if h then 4 else 2

/-! ## Traps by name -/

/-- fault.illegal with the offending operand (10 R213). -/
def illegal (cause : Nat) (n : Spec) (x : Word) : Trap := { cls := 0x01, cause := cause, addr := x, aux := n.setWidth 32 }
/-- fault.rsvfield cause 2 with the offending operand. -/
def rsvIn (n : Spec) (x : Word) : Trap := { cls := 0x02, cause := 2, addr := x, aux := n.setWidth 32 }
/-- fault.misaligned with address and size (10 R213). -/
def misaligned (cause : Nat) (a : Nat) (n : Nat) : Trap := { cls := 0x03, cause := cause, addr := toW a, aux := BitVec.ofNat 32 n }
/-- Code of an access kind in a packet (10 R213). -/
def Access.code (x : Access) : Nat :=
  match x with
  | .read => 0
  | .write => 1
  | .fetch => 2
  | .atomic => 3
/-- fault.translation with address, level and access kind (10 R213). -/
def transFault (cause : Nat) (a level : Nat) (x : Access) : Trap :=
  { cls := 0x04, cause := cause, addr := toW a, aux := BitVec.ofNat 32 (level + 4 * Access.code x) }
/-- fault.frontier with location and time (10 R213). -/
def frontierFault (cause loc : Nat) (t : Time) : Trap :=
  { cls := 0x08, cause := cause, addr := t.extractLsb' 64 64, aux := BitVec.ofNat 32 loc, idx := t.extractLsb' 0 64 }
/-- fault.group (10 R213). -/
def groupFault (cause : Nat) (a : Word) (sib : Nat) : Trap :=
  { cls := 0x09, cause := cause, addr := a, aux := BitVec.ofNat 32 sib }
/-- fault.memory with the granule (10 R213). -/
def memFault (g : Nat) (a : Nat) : Trap := { cls := 0x0C, cause := 1, addr := toW a, aux := BitVec.ofNat 32 (poisonKind g) }
/-- Specifier of a register seen through a window of depth d; call's write of the callee's w15 by that name (10 R213; 11
R238). -/
def specOf (d : Nat) (x : Reg) : Nat :=
  match x with
  | .g n => n.toNat
  | .ring j =>
    let i := (j.toNat + 64 - 16 * d % 64) % 64
    8 + (if i < 24 then i else i % 16)
  | .v n => n.toNat + 32
  | .p n => n.toNat + 64
/-- fault.stall with the register (10 R213). -/
def stallFault (cause : Nat) (t : Slot) (x : Reg) : Trap := { cls := 0x0B, cause := cause, aux := BitVec.ofNat 32 (specOf t.depth x) }
/-- fault.wait of an expired wait (10 R213). -/
def waitFault (w : WaitInfo) (lim : Nat) : Trap :=
  { cls := 0x07, cause := w.cause, addr := w.addr, aux := BitVec.ofNat 32 (sat32 lim),
    idx := BitVec.ofNat 32 w.i1 ++ BitVec.ofNat 32 w.i0, tail := if w.cause = 9 then some (0, w.hi.setWidth 128) else none }

/-! ## The frame of an instruction -/

/-- How the body of an instruction ends: a state; a trap, with no effect of the body; a bounded wait with its limit
operand, from the state at issue or from one that keeps a part of the effect; or a state in which the instruction has
not issued and will be tried again. -/
inductive Res where
  | ok (s : State)
  | trap (tr : Trap)
  | wait (lim : Word) (w : WaitInfo)
  | hold (s : State) (lim : Word) (w : WaitInfo)
  | stay (s : State)

/-- A body: the slot, its state when the instruction issued, and the package with the instruction retired. -/
abbrev Body := SlotRef → Slot → State → Res

/-- The limit of a bounded wait: 0 selects c.wlimit, whose 0 means none (11 R231). -/
def waitLimit (t : Slot) (lim : Word) : Nat := if lim = 0 then t.wlimit.toNat else lim.toNat

/-- A slot enters a bounded wait; its pc stays at the instruction. -/
def State.startWait (s : State) (r : SlotRef) (i : Instr) (len : Nat) (lim : Word) (w : WaitInfo) : State :=
  { s with ids := s.ids + 1 }.modSlot r fun t =>
    let n := waitLimit t lim
    { t with wait := some { seq := s.ids, instr := i, len := len, lim := n, left := n, info := w, old := t.pend.map fun (p : Pend) => snapReg t p.w.reg },
             starve := 0 }

/-- What may not issue inside a repetition (12 R274). -/
def inRep (t : Slot) (forbidden : Bool) : Bool := forbidden && t.rep.isSome

/-- Sources and destinations that are busy hold the instruction back (04 R96). -/
def notReady (t : Slot) (rs : List Reg) : Bool := rs.any fun x => !x.fixed && busy t x

/-- The stall fault that c.check raises for a register with a write still to land (04 R95). -/
def stallOf (t : Slot) (reads writes : List Reg) : Option Trap :=
  if t.check.getLsbD 0 then
    match reads.find? fun x => !x.fixed && early t x with
    | some x => some (stallFault 1 t x)
    | none => (writes.find? fun x => !x.fixed && early t x).map (stallFault 2 t)
  else none

/-- What a body's end makes of the package. -/
def finishRes (s0 : State) (r : SlotRef) (i : Instr) (len : Nat) (x : Res) : State :=
  match x with
  | .ok s => s
  | .trap tr => s0.takeFault r (s0.slot r).pc len tr
  | .wait lim w => s0.startWait r i len lim w
  | .hold s lim w => s.startWait r i len lim w
  | .stay s => s

/-- What an instruction touches as the orderings of 09 R189 see it: does it read memory, does it write memory, does it release an
engine? fdrop counts as a write: the frontier that it lets pass carries the stores before a fence (09 R201). -/
def touches (i : Instr) : Bool × Bool × Bool :=
  match i with
  | .ld .. => (true, false, false)
  | .ldo .. => (true, false, false)
  | .vld .. => (true, false, false)
  | .vldx .. => (true, false, false)
  | .ldf _ _ _ _ _ _ k => (true, k, false)
  | .fprobe .. => (true, false, false)
  | .rstat .. => (true, false, false)
  | .ret .. => (true, false, false)
  | .st .. => (false, true, false)
  | .sto .. => (false, true, false)
  | .vst .. => (false, true, false)
  | .vstx .. => (false, true, false)
  | .stf .. => (false, true, false)
  | .fset .. => (false, true, false)
  | .fclr .. => (false, true, false)
  | .fdrop .. => (false, true, false)
  | .amo .. => (true, true, false)
  | .racq .. => (true, true, false)
  | .rpub .. => (true, true, false)
  | .rtake .. => (true, true, false)
  | .rrel .. => (true, true, false)
  | .call .. => (false, true, false)
  | .callr .. => (false, true, false)
  | .jpost .. => (true, false, true)
  | .gfork .. => (true, false, false)
  | .qdef .. => (true, false, false)
  | .sread .. => (true, false, true)
  | .swrite .. => (true, false, true)
  | .sflush .. => (true, false, true)
  | .cadv .. => (false, false, true)
  | _ => (false, false, false)

/-- An instruction that passed its guard: one that a fence orders waits for what is on its way before the fence; early reads and writes fault
under c.check, else what a fence before it holds back is performed and its body runs. -/
def runBody (i : Instr) (c : Ctl) (len : Nat) (reads writes : List Reg) (body : Body) (s : State) : State :=
  let r := s.cur
  if (s.slot r).fenced (touches i) && !quiet (s.slot r) then s else
  let s := s.meetFence r (touches i)
  let t := s.slot r
  match stallOf t reads writes with
  | some tr => s.takeFault r t.pc len tr
  | none => finishRes s r i len (body r t (s.setSlot r (retire (noteRecent t writes) s.now c.w len)))

/-- The frame of every encoded instruction: not ready while a register is busy; the guard read too early faults under
c.check; a false guard spends the cycle and the stall count and nothing else (11 R232); a true one runs the body. -/
def issue (i : Instr) (c : Ctl) (len : Nat) (forbidden : Bool) (reads writes : Slot → List Reg) (on : Slot → Bool)
    (body : Body) (s : State) : Host.Outcome State Fault Refusal :=
  let r := s.cur
  let t := s.slot r
  let g : Reg := .p c.g
  if notReady t (g :: reads t ++ writes t) then .next s
  else if inRep t forbidden then .next (s.takeFault r t.pc len { cls := 0x01, cause := 5 })
  else match stallOf t [g] [] with
    | some tr => .next (s.takeFault r t.pc len tr)
    | none =>
      if on t then .next (runBody i c len (reads t) (writes t) body s)
      else .next (s.setSlot r (retire t s.now c.w len))

/-- Is the guard the never form: p0 with N = 1 (14 R296)? -/
def neverForm (c : Ctl) : Bool := c.g == 0 && c.n

/-- The frame of a vector instruction: with no lane on it still reads its sources in full, which may be too early; only the never
form reads none (14 R296). -/
def issueLanes (i : Instr) (c : Ctl) (len : Nat) (reads writes : Slot → List Reg) (on : Slot → Bool) (body : Body) (s : State) :
    Host.Outcome State Fault Refusal :=
  let t := s.slot s.cur
  let idle := !on t && !neverForm c && !notReady t (.p c.g :: reads t ++ writes t)
  match if idle then stallOf t (.p c.g :: reads t) [] else none with
  | some tr => .next (s.takeFault s.cur t.pc len tr)
  | none => issue i c len false reads writes on body s

/-- Fixed-latency results of an instruction that issues now (04 R94). -/
def State.later (s : State) (r : SlotRef) (lat : Nat) (ws : List RegWrite) : State :=
  s.modSlot r fun t => { t with pend := ws.foldl (fun l w => insPend ⟨w, s.now + lat⟩ l) t.pend }

/-- A body that cannot fail. -/
def okBody (f : SlotRef → Slot → State → State) : Body := fun r t s => .ok (f r t s)

end Sys2Proof.Machine
end

