-- ==== Sys2Proof/Machine/Xlate.lean ====
section
/-! DEFINITION. Task addresses: the map of the task view, alignment, translation, walks, and the addresses that device
agents use (05 R106 to R121, R384, R385). -/

namespace Sys2Proof.Machine

open Sys2Proof

/-- What a task address names (05 R115; 10 R216; 21 R374). -/
inductive Region where
  | localStore (off : Nat)
  | shared (off : Nat)
  | aperture (off : Nat)
  | vault (off : Nat)
  | inter (off : Nat)
  | anyVault (d q off : Nat)
  | anyShared (d k off : Nat)
  | debug (off : Nat)
  | ctl (off : Nat)
  | trans
  | nothing
deriving DecidableEq, Repr

/-- The region of a task address: the first row that matches. The supervisor core sees its debug window and the control
space besides. -/
def region (sup : Bool) (a : Nat) : Region :=
  if a < 0x8000 then .localStore a
  else if 0x10000 ≤ a ∧ a < 0x30000 then .shared (a - 0x10000)
  else if 0x30000 ≤ a ∧ a < 0x32000 then .aperture (a - 0x30000)
  else if 0x1000000 ≤ a ∧ a < 0x2000000 then .vault (a - 0x1000000)
  else if 0x2000000 ≤ a ∧ a < 0x2080000 then .inter (a - 0x2000000)
  else if 0x100000000 ≤ a ∧ a < 0x200000000 then .anyVault (a / 2 ^ 30 % 4) (a / 2 ^ 24 % 64) (a % 2 ^ 24)
  else if 0x200000000 ≤ a ∧ a < 0x208000000 then .anyShared (a / 2 ^ 25 % 4) (a / 2 ^ 17 % 256) (a % 2 ^ 17)
  else if 0x100000000000 ≤ a ∧ a < 0x10000000000000 then .trans
  else if sup ∧ 0x8000000 ≤ a ∧ a < 0xC000000 then .debug (a - 0x8000000)
  else if sup ∧ 0x10000000 ≤ a ∧ a < 0x14000000 then .ctl (a - 0x10000000)
  else .nothing

/-- Unit number of a core's shared region, of a slot's local store, of a quad's vault. -/
def sharedKey (k : CoreRef) (off : Nat) : Nat := pkey .shared (coreKey k) off
/-- Key of a byte of a slot's task-local store. -/
def localKey (r : SlotRef) (off : Nat) : Nat := pkey .localStore (slotKey r) off
/-- Key of a byte of a quad's vault. -/
def vaultKey (q : QuadRef) (off : Nat) : Nat := pkey .vault (quadKey q) off

/-- Key of a byte of the interleaved window (05 R109). -/
def interKey (q : QuadRef) (off : Nat) : Nat :=
  sharedKey ⟨q.ctx, q.die, coreAt q.quad (off / 4 % 4)⟩ (4 * (off / 16) + off % 4)

/-- Page size of a level, as a power of two (05 R117). -/
def levelBits (l : Nat) : Nat :=
  match l with
  | 0 => 41
  | 1 => 30
  | 2 => 21
  | _ => 16

/-- Entries of a table of a level (05 R117). -/
def levelEntries (l : Nat) : Nat :=
  match l with
  | 0 => 2048
  | 1 => 2048
  | 2 => 512
  | _ => 32

/-- Level of a leaf by its page size. -/
def bitsLevel (b : Nat) : Nat := if b = 30 then 1 else if b = 21 then 2 else 3

/-- kind of a page-table entry (05 R118). -/
def pteKind (e : Word) : Nat := bits e 0 3
/-- Frame or table address of an entry. -/
def pteAddr (e : Word) : Nat := bits e 8 44 * 256
/-- tier of an entry. -/
def pteTier (e : Word) : Nat := bits e 52 2

/-- Does the last row of 05 R119 match: an entry no walk may use? -/
def pteReserved (level : Nat) (e : Word) : Bool :=
  match pteKind e with
  | 0 => false
  | 1 => decide (level = 3) || decide (bits e 3 5 ≠ 0) || decide (bits e 52 12 ≠ 0) ||
      decide (pteAddr e % (8 * levelEntries (level + 1)) ≠ 0)
  | 2 => decide (level = 0) || (e.getLsbD 7 && decide (pteTier e ≠ 0)) || e.getLsbD 63 ||
      (decide (pteTier e ≠ 3) && decide (bits e 54 9 ≠ 0)) || decide (pteAddr e % 2 ^ levelBits level ≠ 0)
  | 3 => decide (level = 0) || decide (bits e 6 2 ≠ 0) || e.getLsbD 11 || decide (bits e 52 12 ≠ 0)
  | 4 => decide (level = 0) || decide (bits e 6 2 ≠ 0) || decide (bits e 20 44 ≠ 0)
  | 5 => decide (level = 0)
  | _ => true

/-- How a walk ends: at an entry of a level with its home, or at a fault cause (05 R119). -/
inductive WalkEnd where
  | leaf (level home : Nat) (pte : Word)
  | bad (cause level : Nat)
deriving DecidableEq, Repr

/-- A walk from a table on (05 R117, R119). -/
def State.walkFrom (s : State) (va : Nat) : Nat → Nat → Nat → WalkEnd
  | 0, level, _ => .bad 4 level
  | n + 1, level, table =>
    let home := pkey .hbm 0 (table + 8 * (va / 2 ^ levelBits level % levelEntries level))
    let e := toW (s.loadLE home 8)
    if pteReserved level e then .bad 4 level
    else match pteKind e with
    | 0 => .bad 1 level
    | 1 => s.walkFrom va n (level + 1) (pteAddr e)
    | 5 => .bad 3 level
    | _ => .leaf level home e

/-- A walk for an address of a context (05 R117). -/
def State.walkVa (s : State) (cx va : Nat) : WalkEnd := s.walkFrom va 4 0 (s.ctx cx).ptbase.toNat

/-- Does an entry permit an access (05 R118; 13 R276)? -/
def permits (e : Word) (x : Access) : Bool :=
  match x with
  | .read => e.getLsbD 3
  | .write => e.getLsbD 4
  | .fetch => e.getLsbD 5
  | .atomic => e.getLsbD 3 && e.getLsbD 4

/-- Does the access write? -/
def writes (x : Access) : Bool := x == .write || x == .atomic

/-- The key of a byte behind a kind-2 entry (05 R118); an address beyond a tier's size is memory of the tier (log 111). -/
def frameKey (e : Word) (pbits va : Nat) : Nat :=
  let a := pteAddr e + va % 2 ^ pbits
  match pteTier e with
  | 0 => pkey .hbm 0 a
  | 1 => pkey .cxl 0 a
  | 2 => pkey .host 0 a
  | _ => pkey .remote (bits e 54 9) a

/-- The cached translation of an address (05 R120). -/
def tlbFind (l : List TlbEnt) (va : Nat) : Option TlbEnt := l.find? fun e => e.va == va / 2 ^ e.bits

/-- How an access resolves: to bytes of memory, to the aperture, the debug window or the control space, to a fault, or to
a walk that has to complete first. -/
inductive Acc where
  | keys (ks : List Nat)
  | aperture (off : Nat)
  | debug (off : Nat)
  | ctl (off : Nat)
  | fault (tr : Trap)
  | walk (va : Nat) (x : Access)
deriving DecidableEq, Repr

/-- The translation a quad finds cached: in its own TLB, else in its die's (05 R120). -/
def State.tlbOf (s : State) (q : QuadRef) (va : Nat) : Option TlbEnt :=
  match tlbFind (s.quad q).tlb va with
  | some e => some e
  | none => tlbFind (((s.pdie (s.physDie q.ctx q.die)).tlb2.filter fun e => e.1 == q.ctx).map Prod.snd) va

/-- A translated access: permission from the cached entry, a first write through a clean entry held for the walker (05
R116, R120). A supervisor's is of context 0 (log 105). -/
def State.transAccess (s : State) (r : SlotRef) (a n : Nat) (x : Access) : Acc :=
  match s.tlbOf r.quadRef a with
  | none => .walk a x
  | some e =>
    if !permits e.pte x then .fault (transFault 2 a (bitsLevel e.bits) x)
    else if writes x && !e.pte.getLsbD 6 then .walk a x
    else .keys (keysFrom (frameKey e.pte e.bits a) n)

/-- An access of n bytes with its alignment, checked in the order of 05 R116: partition coordinates, alignment, range. What
these windows name for a supervisor is log 105's. -/
def State.access (s : State) (r : SlotRef) (a n al : Nat) (x : Access) : Acc :=
  let sh := s.shapeOf r.ctx
  let mis := decide (a % al ≠ 0)
  match region (r.core == supCore) a with
  | .anyVault d q off =>
    if !sh.hasQuad d q then .fault { cls := 0x01, cause := 4, addr := toW a }
    else if mis then .fault (misaligned 1 a n) else .keys (keysFrom (vaultKey ⟨r.ctx, d, q⟩ off) n)
  | .anyShared d k off =>
    if !sh.hasCore d k then .fault { cls := 0x01, cause := 4, addr := toW a }
    else if mis then .fault (misaligned 1 a n) else .keys (keysFrom (sharedKey ⟨r.ctx, d, k⟩ off) n)
  | .aperture off => if mis then .fault (misaligned 2 a n) else .aperture off
  | reg =>
    if mis then .fault (misaligned 1 a n)
    else match reg with
    | .localStore off => .keys (keysFrom (localKey r off) n)
    | .shared off => .keys (keysFrom (sharedKey r.coreRef off) n)
    | .vault off => .keys (keysFrom (vaultKey r.quadRef off) n)
    | .inter off => .keys ((List.range n).map fun i => interKey r.quadRef (off + i))
    | .trans => s.transAccess r a n x
    | .debug off => .debug off
    | .ctl off => .ctl off
    | _ => .fault (transFault 1 a 0 x)

/-- Walks of a physical die in flight, whatever their contexts (05 R120). -/
def State.walksOn (s : State) (pd : Nat) : Nat :=
  (s.slots.filter fun x => let r := slotOfKey x.1; x.2.walk.isSome && s.up r.ctx && s.physDie r.ctx r.die == pd).length

/-- A walk starts for the slot; the instruction issues when it has completed. While 256 walks run on the die the miss
waits (05 R120). -/
def State.startWalk (s : State) (r : SlotRef) (va : Nat) (x : Access) (len : Nat) : State :=
  if (s.slot r).walk.isSome || decide (s.walksOn (s.physDie r.ctx r.die) ≥ 256) then s
  else s.modSlot r fun t => { t with walk := some (va, x, len), iword := if x = .fetch then 0 else t.iword }

/-- A line of the task-local store that zeroing has not reached (01 R19). -/
def zeroing (t : Slot) (r : SlotRef) (ks : List Nat) : Bool :=
  match t.zero with
  | none => false
  | some done => ks.any fun k => keyKind k == 0 && keyUnit k == slotKey r && decide (keyOff k / 64 * 64 ≥ done)

/-- Do a slot's accesses to some bytes wait: for zeroing, for its own atomic at their line (01 R19; 09 R193)? -/
def barred (t : Slot) (r : SlotRef) (ks : List Nat) : Bool := zeroing t r ks || afterAtomic t ks

/-- Is an address one of a window that only ordinary loads and stores reach (04 R98; 13 R276)? -/
def windowAt (r : SlotRef) (a : Nat) : Bool :=
  match region (r.core == supCore) a with
  | .aperture _ => true
  | .debug _ => true
  | .ctl _ => true
  | _ => false

/-! ## Addresses handed to device agents -/

/-- First address of the space in which an agent holds an interleaved-window address: quad, then offset. -/
abbrev interBase : Nat := 2 ^ 60

/-- An address handed to an agent, fixed in the issuer's view (05 R384); none where the agent refuses it. A range that runs past
the end of the issuing core's region or quad's vault goes on in the next of the partition window (log 74). -/
def handOver (r : SlotRef) (a : Nat) : Option Nat :=
  match region false a with
  | .shared off => some (0x200000000 + r.die * 2 ^ 25 + r.core * 2 ^ 17 + off)
  | .vault off => some (0x100000000 + r.die * 2 ^ 30 + quadOf r.core * 2 ^ 24 + off)
  | .inter off => some (interBase + (r.die * 64 + quadOf r.core) * 2 ^ 20 + off)
  | .anyVault _ _ _ => some a
  | .anyShared _ _ _ => some a
  | .trans => some a
  | _ => none

/-- An address handed over by the host: partition windows and translated space only (05 R384). -/
def hostHand (a : Nat) : Option Nat :=
  match region false a with
  | .anyVault _ _ _ => some a
  | .anyShared _ _ _ => some a
  | .trans => some a
  | _ => none

/-- How an agent's access ends: bytes; class and cause of a failure with the walk level; or a page to wait for. -/
inductive AgentAcc where
  | keys (ks : List Nat)
  | bad (cls cause level : Nat)
  | page (level home : Nat) (pte : Word)
deriving DecidableEq, Repr

/-- One byte's key for an agent of a context (05 R385). -/
def State.agentByte (s : State) (cx a : Nat) (x : Access) : AgentAcc :=
  let sh := s.shapeOf cx
  if a ≥ interBase then
    let b := a - interBase
    if b ≥ 2 ^ 28 ∨ b % 2 ^ 20 ≥ 2 ^ 19 then .bad 4 1 0
    else .keys [interKey ⟨cx, b / 2 ^ 26, b / 2 ^ 20 % 64⟩ (b % 2 ^ 20)]
  else match region false a with
  | .anyVault d q off => if sh.hasQuad d q then .keys [vaultKey ⟨cx, d, q⟩ off] else .bad 1 4 0
  | .anyShared d k off => if sh.hasCore d k then .keys [sharedKey ⟨cx, d, k⟩ off] else .bad 1 4 0
  | .trans =>
    match s.walkVa cx a with
    | .bad c l => .bad 4 c l
    | .leaf l home e =>
      if pteKind e = 4 then .page l home e
      else if !permits e x then .bad 4 2 l
      else if pteKind e = 2 then .keys [frameKey e (levelBits l) a] else .page l home e
  | _ => .bad 4 1 0

/-- Bytes of an agent's access in order; the first failure ends it (05 R385). -/
def State.agentAccess (s : State) (cx a : Nat) (x : Access) : Nat → AgentAcc
  | 0 => .keys []
  | n + 1 =>
    match s.agentByte cx a x with
    | .keys k =>
      match s.agentAccess cx (a + 1) x n with
      | .keys ks => .keys (k ++ ks)
      | e => e
    | e => e

/-- An agent's access to n bytes that do not cross a page. -/
def State.agentRun (s : State) (cx a n : Nat) (x : Access) : AgentAcc :=
  if a ≥ interBase then s.agentAccess cx a x n
  else match s.agentByte cx a x with
  | .keys ks => .keys (ks.flatMap fun k => keysFrom k n)
  | e => e

/-- A write by an agent marks the page dirty (05 R118). -/
def State.agentDirty (s : State) (cx a : Nat) : State :=
  match region false a with
  | .trans => match s.walkVa cx a with
    | .leaf _ home e => if pteKind e = 2 ∧ !e.getLsbD 6 then s.storeLE home 8 (e ||| 64#64).toNat else s
    | _ => s
  | _ => s

/-- Does a word carry a full-empty bit (05 R125)? A vault block the driver marked, or a tier-0 frame whose entry has fe. -/
def State.carriesFull (s : State) (r : SlotRef) (va k : Nat) : Bool :=
  match keyKind k with
  | 2 =>
    let u := keyUnit k
    let cx := u / 512
    let pq := s.physQuad cx (u % 128)
    mget false (pq * 256 + keyOff k / 65536) (s.pdie (s.physDie cx (u / 128 % 4))).femark
  | 3 => match s.tlbOf r.quadRef va with
    | some e => e.pte.getLsbD 7 && decide (pteTier e.pte = 0)
    | none => match s.walkVa r.ctx va with
      | .leaf _ _ e => e.getLsbD 7 && decide (pteTier e = 0)
      | _ => false
  | _ => false

/-- Does an address resolve to something that carries no full-empty bit (05 R125)? One that does not resolve may carry one. -/
def State.noFull (s : State) (r : SlotRef) (a : Nat) : Bool :=
  match region (r.core == supCore) a with
  | .vault off => !s.carriesFull r a (vaultKey r.quadRef off)
  | .anyVault d q off => (s.shapeOf r.ctx).hasQuad d q && !s.carriesFull r a (vaultKey ⟨r.ctx, d, q⟩ off)
  | .anyShared d k _ => (s.shapeOf r.ctx).hasCore d k
  | .nothing => false
  | .trans =>
    let no (e : Word) : Bool := pteKind e != 4 && !(pteKind e == 2 && e.getLsbD 7 && pteTier e == 0)
    match s.tlbOf r.quadRef a with
    | some e => no e.pte
    | none => match s.walkVa r.ctx a with
      | .leaf _ _ e => no e
      | .bad _ _ => false
  | _ => true

/-- May a completion word stand at an address (05 R125; 15 R328, R333)? One that resolves must carry a full-empty bit; one that
does not resolve is settled when it is written (05 R385; log 59). -/
def State.cwOk (s : State) (r : SlotRef) (a : Nat) : Bool :=
  match handOver r (a / 4 * 4) with
  | none => false
  | some h =>
    match s.agentRun r.ctx h 4 .write with
    | .keys (k :: _) => s.carriesFull r a k
    | _ => true

end Sys2Proof.Machine
end

