-- ==== Sys2Proof/Machine/Operands.lean ====
section
/-! DEFINITION. Operand forms: immediates, the address of each memory form, access sizes, descriptors and selectors (11
R236 to R243). -/

namespace Sys2Proof.Machine

open Sys2Proof

/-- A signed imm9 (11 R237). -/
def simm9 (i : BitVec 9) : Word := i.signExtend 64
/-- A signed imm14 (11 R237). -/
def simm14 (i : BitVec 14) : Word := i.signExtend 64
/-- Byte distance of a J-layout offset or of adpc (11 R237). -/
def off19 (o : BitVec 19) : Word := o.signExtend 64 <<< 1
/-- Byte distance of adpc. -/
def off14 (i : BitVec 14) : Word := i.signExtend 64 <<< 1
/-- Bytes of sz in ld, st, ldo, sto (11 R238). -/
def szBytes (z : BitVec 2) : Nat := 2 ^ z.toNat
/-- Unit of a vld or vst form (13 R279). -/
def vUnit (z : BitVec 2) : Nat :=
  match z.toNat with
  | 0 => 128
  | 1 => 64
  | 2 => 32
  | _ => 4
/-- Lanes a vld or vst form moves (13 R279). -/
def vLanes (z : BitVec 2) : Nat := vUnit z / 4
/-- Bytes of a gather or scatter element (13 R280). -/
def XSize.bytes (e : XSize) : Nat :=
  match e with
  | .w32 => 4
  | .w16 => 2
  | .w8 => 1
/-- Address of ld and st, vld and vst, ldf, feop, amo: the base register (13 R277). -/
def addrM (t : Slot) (a : Spec) : Nat := (readX t a).toNat
/-- Address of ldo and sto: base and scaled offset (13 R278). -/
def addrO (t : Slot) (a : Spec) (z : BitVec 2) (f : BitVec 7) : Nat :=
  (readX t a + (f.signExtend 64 <<< z.toNat)).toNat
/-- Address of a gathered or scattered element: base and scaled lane (13 R280). -/
def addrX (t : Slot) (a b : Spec) (e : XSize) (i : Nat) : Nat :=
  (readX t a + toW ((lane (readV t b) i).toNat * XSize.bytes e)).toNat

/-- No registers. -/
def noRegs (_ : Slot) : List Reg := []
/-- One scalar register. -/
def rX (a : Spec) (t : Slot) : List Reg := [xReg t a]
/-- Two scalar registers. -/
def rXX (a b : Spec) (t : Slot) : List Reg := [xReg t a, xReg t b]
/-- Three scalar registers. -/
def rXXX (a b d : Spec) (t : Slot) : List Reg := [xReg t a, xReg t b, xReg t d]
/-- A pair of scalar registers. -/
def rPair (a : Spec) (t : Slot) : List Reg := [xReg t a, xReg t (a + 1)]

/-- edge of a message descriptor (11 R243). -/
def dEdge (x : Word) : Nat := bits x 32 10
/-- cls of a message descriptor. -/
def dCls (x : Word) : Nat := bits x 30 2
/-- gen of a message descriptor. -/
def dGen (x : Word) : Nat := bits x 22 8
/-- pkg of a message descriptor. -/
def dPkg (x : Word) : Nat := bits x 13 9
/-- die of a message descriptor. -/
def dDie (x : Word) : Nat := bits x 11 2
/-- core of a message descriptor. -/
def dCore (x : Word) : Nat := bits x 3 8
/-- cm of a message descriptor: a core mailbox. -/
def dCm (x : Word) : Bool := x.getLsbD 2
/-- slot of a message descriptor. -/
def dSlot (x : Word) : Nat := bits x 0 2
/-- The mailbox a descriptor names: a core's by class, or a slot's. -/
def dBox (x : Word) : Nat := if dCm x then 16 + dCls x else 4 * dSlot x + dCls x

end Sys2Proof.Machine
end

