-- ==== Sys2Proof/Machine/Flags.lean ====
section
/-! DEFINITION. Flags: the floating-point flags of c.fflags (03 R65) and the predicates that compares write (04 R92). -/

namespace Sys2Proof.Machine

open Sys2Proof

/-- OR some flags into c.fflags (03 R65; 11 R230). -/
def State.flag (s : State) (r : SlotRef) (f : BitVec 5) : State := s.modSlot r fun t => { t with fflags := t.fflags ||| f }

/-- A compare writes its condition to pd and the complement to pe, in the lanes of the mask; where both are one register
the complement remains (04 R92). -/
def cmpWrites (p e : PSpec) (cond mask : W32) : List RegWrite := [.p p cond mask, .p e (~~~cond) mask]

/-- All bits of a predicate, by one condition (12 R259). -/
def allLanes (b : Bool) : W32 := if b then BitVec.allOnes 32 else 0

end Sys2Proof.Machine
end

