-- ==== Sys2Proof/Machine/Scalar.lean ====
section
/-! DEFINITION. Scalar arithmetic, immediates, constants, compares and predicate logic (12 R251 to R261). -/

namespace Sys2Proof.Machine

open Sys2Proof

/-- rd takes a function of ra and rb, readable after lat cycles (12 R252). -/
def alu (i : Instr) (c : Ctl) (d a b : Spec) (lat : Nat) (f : Word → Word → Word) (s : State) :
    Host.Outcome State Fault Refusal :=
  issue i c 4 false (rXX a b) (rX d) (guardOn · c)
    (okBody fun r t s => s.later r lat [writeX t d (f (readX t a) (readX t b))]) s

/-- rd takes a function of ra, readable after one cycle (12 R254, R255). -/
def alu1 (i : Instr) (c : Ctl) (d a : Spec) (f : Word → Word) (s : State) : Host.Outcome State Fault Refusal :=
  issue i c 4 false (rX a) (rX d) (guardOn · c) (okBody fun r t s => s.later r 1 [writeX t d (f (readX t a))]) s

/-- rd takes a function of ra and rb that lands 34 arith cycles after issue, or 3 where rb is 0 (12 R253). -/
def aluVar (i : Instr) (c : Ctl) (d a b : Spec) (f : Word → Word → Word) (s : State) :
    Host.Outcome State Fault Refusal :=
  issue i c 4 false (rXX a b) (rX d) (guardOn · c)
    (okBody fun r t s => s.fly r (.timed [writeX t d (f (readX t a) (readX t b))]
      (s.now + if readX t b = 0 then 3 else 34))) s

/-- High half of the signed product (12 R252). -/
def mulHigh (a b : Word) : Word := BitVec.ofInt 64 (a.toInt * b.toInt / 2 ^ 64)
/-- High half of the unsigned product. -/
def mulHighU (a b : Word) : Word := BitVec.ofNat 64 (a.toNat * b.toNat / 2 ^ 64)
/-- Signed division as 03 R61 has it: by zero all ones, and the least number by −1 is itself. -/
def divS (a b : Word) : Word := if b = 0 then BitVec.allOnes 64 else BitVec.ofInt 64 (a.toInt.tdiv b.toInt)
/-- Unsigned division: by zero all ones (03 R61). -/
def divU (a b : Word) : Word := if b = 0 then BitVec.allOnes 64 else BitVec.ofNat 64 (a.toNat / b.toNat)
/-- Signed remainder: by zero the dividend (03 R61). -/
def remS (a b : Word) : Word := if b = 0 then a else BitVec.ofInt 64 (a.toInt.tmod b.toInt)
/-- Unsigned remainder: by zero the dividend (03 R61). -/
def remU (a b : Word) : Word := if b = 0 then a else BitVec.ofNat 64 (a.toNat % b.toNat)
/-- Leading zero bits (12 R254). -/
def clz (a : Word) : Word := toW ((List.range 64).foldl (fun n i => if a.getLsbD i then 63 - i else n) 64)
/-- Trailing zero bits (12 R254). -/
def ctz (a : Word) : Word := toW ((List.range 64).foldr (fun i n => if a.getLsbD i then i else n) 64)
/-- One bits (12 R254). -/
def popc (a : Word) : Word := toW ((List.range 64).foldl (fun n i => if a.getLsbD i then n + 1 else n) 0)
/-- Bits reversed (12 R254). -/
def brev (a : Word) : Word := toW ((List.range 64).foldl (fun n i => 2 * n + (if a.getLsbD i then 1 else 0)) 0)
/-- Bytes reversed (12 R254). -/
def bswap (a : Word) : Word := toW ((List.range 8).foldl (fun n i => 256 * n + bits a (8 * i) 8) 0)

def execAdd (c : Ctl) (d a b : Spec) := alu (.add c d a b) c d a b 1 (· + ·)
def execSub (c : Ctl) (d a b : Spec) := alu (.sub c d a b) c d a b 1 (· - ·)
def execAnd (c : Ctl) (d a b : Spec) := alu (.and c d a b) c d a b 1 (· &&& ·)
def execOr (c : Ctl) (d a b : Spec) := alu (.or c d a b) c d a b 1 (· ||| ·)
def execXor (c : Ctl) (d a b : Spec) := alu (.xor c d a b) c d a b 1 (· ^^^ ·)
def execAndn (c : Ctl) (d a b : Spec) := alu (.andn c d a b) c d a b 1 fun x y => x &&& ~~~y
def execShl (c : Ctl) (d a b : Spec) := alu (.shl c d a b) c d a b 1 fun x y => x <<< (y.toNat % 64)
def execShr (c : Ctl) (d a b : Spec) := alu (.shr c d a b) c d a b 1 fun x y => x >>> (y.toNat % 64)
def execSra (c : Ctl) (d a b : Spec) := alu (.sra c d a b) c d a b 1 fun x y => x.sshiftRight (y.toNat % 64)
def execMul (c : Ctl) (d a b : Spec) := alu (.mul c d a b) c d a b 2 (· * ·)
def execMulh (c : Ctl) (d a b : Spec) := alu (.mulh c d a b) c d a b 2 mulHigh
def execMulhu (c : Ctl) (d a b : Spec) := alu (.mulhu c d a b) c d a b 2 mulHighU
def execMin (c : Ctl) (d a b : Spec) := alu (.min c d a b) c d a b 1 fun x y => if x.slt y then x else y
def execMax (c : Ctl) (d a b : Spec) := alu (.max c d a b) c d a b 1 fun x y => if x.slt y then y else x
def execMinu (c : Ctl) (d a b : Spec) := alu (.minu c d a b) c d a b 1 fun x y => if x < y then x else y
def execMaxu (c : Ctl) (d a b : Spec) := alu (.maxu c d a b) c d a b 1 fun x y => if x < y then y else x
def execDiv (c : Ctl) (d a b : Spec) := aluVar (.div c d a b) c d a b divS
def execDivu (c : Ctl) (d a b : Spec) := aluVar (.divu c d a b) c d a b divU
def execRem (c : Ctl) (d a b : Spec) := aluVar (.rem c d a b) c d a b remS
def execRemu (c : Ctl) (d a b : Spec) := aluVar (.remu c d a b) c d a b remU
def execClz (c : Ctl) (d a : Spec) := alu1 (.clz c d a) c d a clz
def execCtz (c : Ctl) (d a : Spec) := alu1 (.ctz c d a) c d a ctz
def execPopc (c : Ctl) (d a : Spec) := alu1 (.popc c d a) c d a popc
def execBrev (c : Ctl) (d a : Spec) := alu1 (.brev c d a) c d a brev
def execSext8 (c : Ctl) (d a : Spec) := alu1 (.sext8 c d a) c d a fun x => (x.setWidth 8).signExtend 64
def execSext16 (c : Ctl) (d a : Spec) := alu1 (.sext16 c d a) c d a fun x => (x.setWidth 16).signExtend 64
def execSext32 (c : Ctl) (d a : Spec) := alu1 (.sext32 c d a) c d a fun x => (x.setWidth 32).signExtend 64
def execZext32 (c : Ctl) (d a : Spec) := alu1 (.zext32 c d a) c d a fun x => (x.setWidth 32).setWidth 64
def execBswap (c : Ctl) (d a : Spec) := alu1 (.bswap c d a) c d a bswap
def execRol (c : Ctl) (d a b : Spec) := alu (.rol c d a b) c d a b 1 fun x y => x.rotateLeft (y.toNat % 64)
def execAddw (c : Ctl) (d a b : Spec) := alu (.addw c d a b) c d a b 1 fun x y => ((x + y).setWidth 32).signExtend 64
def execAddi (c : Ctl) (d a : Spec) (i : BitVec 9) := alu1 (.addi c d a i) c d a fun x => x + simm9 i
def execAndi (c : Ctl) (d a : Spec) (i : BitVec 9) := alu1 (.andi c d a i) c d a fun x => x &&& simm9 i
def execOri (c : Ctl) (d a : Spec) (i : BitVec 9) := alu1 (.ori c d a i) c d a fun x => x ||| simm9 i
def execXori (c : Ctl) (d a : Spec) (i : BitVec 9) := alu1 (.xori c d a i) c d a fun x => x ^^^ simm9 i
def execShli (c : Ctl) (d a : Spec) (n : BitVec 6) := alu1 (.shli c d a n) c d a fun x => x <<< n.toNat
def execShri (c : Ctl) (d a : Spec) (n : BitVec 6) := alu1 (.shri c d a n) c d a fun x => x >>> n.toNat
def execSrai (c : Ctl) (d a : Spec) (n : BitVec 6) := alu1 (.srai c d a n) c d a fun x => x.sshiftRight n.toNat

/-- li (12 R256). -/
def execLi (c : Ctl) (d : Spec) (i : BitVec 14) : State → Host.Outcome State Fault Refusal :=
  issue (.li c d i) c 4 false noRegs (rX d) (guardOn · c) (okBody fun r t s => s.later r 1 [writeX t d (simm14 i)])

/-- lis shifts rd left by 14 and puts the immediate in (12 R257). -/
def execLis (c : Ctl) (d : Spec) (i : BitVec 14) : State → Host.Outcome State Fault Refusal :=
  issue (.lis c d i) c 4 false (rX d) (rX d) (guardOn · c)
    (okBody fun r t s => s.later r 1 [writeX t d ((readX t d <<< 14) ||| i.setWidth 64)])

/-- adpc (12 R258). -/
def execAdpc (c : Ctl) (d : Spec) (i : BitVec 14) : State → Host.Outcome State Fault Refusal :=
  issue (.adpc c d i) c 4 false noRegs (rX d) (guardOn · c) (okBody fun r t s => s.later r 1 [writeX t d (t.pc + off14 i)])

/-- The condition of pcmp (12 R259). -/
def pcond (f : PCond) (a b : Word) : Bool :=
  match f with
  | .eq => a == b
  | .ne => a != b
  | .lt => a.slt b
  | .ge => !a.slt b
  | .ltu => decide (a < b)
  | .geu => !decide (a < b)
  | .tst => a &&& b != 0

/-- pcmp writes all 32 bits of both predicates (12 R259). -/
def execPcmp (c : Ctl) (p e : PSpec) (a b : Spec) (f : PCond) : State → Host.Outcome State Fault Refusal :=
  issue (.pcmp c p e a b f) c 4 false (rXX a b) (fun _ => [.p p, .p e]) (guardOn · c)
    (okBody fun r t s => s.later r 1 (cmpWrites p e (allLanes (pcond f (readX t a) (readX t b))) (BitVec.allOnes 32)))

/-- A predicate takes a value in the lanes the guard enables (12 R260). -/
def plog (i : Instr) (c : Ctl) (p : PSpec) (reads : Slot → List Reg) (f : Slot → W32) : State → Host.Outcome State Fault Refusal :=
  issue i c 4 false reads (fun _ => [.p p]) (fun t => laneMask t c != 0)
    (okBody fun r t s => s.later r 1 [.p p (f t) (laneMask t c)])

def execPand (c : Ctl) (p q u : PSpec) :=
  plog (.pand c p q u) c p (fun _ => [.p q, .p u]) fun t => readP t q &&& readP t u
def execPor (c : Ctl) (p q u : PSpec) :=
  plog (.por c p q u) c p (fun _ => [.p q, .p u]) fun t => readP t q ||| readP t u
def execPxor (c : Ctl) (p q u : PSpec) :=
  plog (.pxor c p q u) c p (fun _ => [.p q, .p u]) fun t => readP t q ^^^ readP t u
def execPandn (c : Ctl) (p q u : PSpec) :=
  plog (.pandn c p q u) c p (fun _ => [.p q, .p u]) fun t => readP t q &&& ~~~readP t u
def execPnot (c : Ctl) (p q : PSpec) := plog (.pnot c p q) c p (fun _ => [.p q]) fun t => ~~~readP t q
def execPset (c : Ctl) (p : PSpec) (a : Spec) := plog (.pset c p a) c p (rX a) fun t => (readX t a).setWidth 32

/-- A scalar takes a value of predicates (12 R261). -/
def pscalar (i : Instr) (c : Ctl) (a : Spec) (ps : List PSpec) (f : Slot → Word) : State → Host.Outcome State Fault Refusal :=
  issue i c 4 false (fun _ => ps.map Reg.p) (rX a) (guardOn · c) (okBody fun r t s => s.later r 1 [writeX t a (f t)])

def execPget (c : Ctl) (q : PSpec) (a : Spec) := pscalar (.pget c q a) c a [q] fun t => (readP t q).setWidth 64
def execPcnt (c : Ctl) (q u : PSpec) (a : Spec) :=
  pscalar (.pcnt c q u a) c a [q, u] fun t => popc ((readP t q &&& readP t u).setWidth 64)
def execPfirst (c : Ctl) (q u : PSpec) (a : Spec) :=
  pscalar (.pfirst c q u a) c a [q, u] fun t =>
    let x := readP t q &&& readP t u
    toW ((List.range 32).foldr (fun i n => if x.getLsbD i then i else n) 32)

end Sys2Proof.Machine
end

