-- ==== Sys2Proof/Machine/Control.lean ====
section
/-! DEFINITION. Branches, calls and the register window, brk, park, rsync, rep (04 R87 to R89; 12 R262 to R275). -/

namespace Sys2Proof.Machine

open Sys2Proof

/-- br (12 R263). -/
def execBr (c : Ctl) (o : BitVec 19) : State → Host.Outcome State Fault Refusal :=
  issue (.br c o) c 4 true noRegs noRegs (guardOn · c)
    (okBody fun r t s => s.modSlot r fun u => { u with pc := t.pc + off19 o })

/-- The eight logical registers from j on, as ring registers. -/
def groupRegs (j : Nat) : List Reg := (List.range 8).map fun i => .ring (ringOf (j + i))

/-- Groups of eight from lo to need (04 R88). -/
def spillGroups (lo need : Nat) : Nat := if need > lo then cdiv (need - lo) 8 else 0

/-- One group spilled at c.rsp (04 R88): an invalid register as zero. -/
def spillOne (r : SlotRef) (s : State) : State :=
  let t := s.slot r
  let ps := (List.range 8).flatMap fun i =>
    (leBytes 8 (readRing t (ringOf (t.lo + i))).toNat).zipIdx.map fun b =>
      (sharedKey r.coreRef (t.rsp.toNat - 0x10000 + 8 * i + b.2), b.1)
  (s.put r ps).modSlot r fun t => { t with rsp := t.rsp + 64, lo := t.lo + 8 }

/-- The keys of the group a fill brings back (04 R88). -/
def fillKeys (r : SlotRef) (t : Slot) : List Nat := keysFrom (sharedKey r.coreRef (t.rsp.toNat - 0x10000 - 64)) 64

/-- One group filled from below c.rsp: every filled register becomes valid (04 R88, R93). -/
def fillOne (r : SlotRef) (s : State) : State :=
  let t := s.slot r
  let v := s.seeBytes r.quadRef (t.rsp.toNat - 64) (fillKeys r t)
  let ws := (List.range 8).map fun i => RegWrite.ring (ringOf (t.lo - 8 + i)) (toW (leNat ((v.drop (8 * i)).take 8)))
  s.modSlot r fun t => { applyWrites t ws with rsp := t.rsp - 64, lo := t.lo - 8 }

/-- The keys of the groups that a call spills from c.rsp on (04 R88). -/
def spillKeys (r : SlotRef) (t : Slot) (n : Nat) : List Nat := keysFrom (sharedKey r.coreRef (t.rsp.toNat - 0x10000)) (64 * n)

/-- May a spill or a fill of some bytes not go yet: an acquire in flight lets no later access issue, an operation or a load in flight
comes first at its line (09 R188, R192, R193)? -/
def moveWaits (t : Slot) (ks : List Nat) : Bool := ks != [] && (acquiring t || afterAtomic t ks || loadsAhead t ks)

/-- A call to a target (12 R264): spills, or fault.rstack with nothing moved; the window moves; the return address goes to
the callee's w15; the slot issues nothing for eight cycles a group. -/
def callTo (len : Nat) (target : Slot → Word) : Body := fun r t s =>
  let d := t.depth
  let need := 16 * (d + 1) + 24 - 64
  let n := spillGroups t.lo need
  let busyGroup := (List.range n).any fun g => (groupRegs (t.lo + 8 * g)).any (busy t)
  if n > 0 ∧ t.rsp.toNat + 8 * (need - t.lo) > stackBase r.slot + Config.stackBytes then
    .trap { cls := 0x06, cause := 1, addr := t.rsp, aux := BitVec.ofNat 32 d }
  else if busyGroup || moveWaits t (spillKeys r t n) then .stay (s.setSlot r t)
  else
    let s := if n > 0 then iter n (fun _ s => spillOne r s) (s.modSlot r landAll) else s
    .ok (s.modSlot r fun u =>
      { applyWrite u (.ring (ringOf (16 * (d + 1) + 15)) (t.pc + toW len)) with
        depth := d + 1, pc := target t, ready := u.ready + 8 * n })

/-- The callee's w15, which a call writes (04 R87). -/
def calleeW15 (t : Slot) : List Reg := [.ring (ringOf (16 * (t.depth + 1) + 15))]

/-- call (12 R264). -/
def execCall (c : Ctl) (o : BitVec 19) : State → Host.Outcome State Fault Refusal :=
  issue (.call c o) c 4 true noRegs calleeW15 (guardOn · c) (callTo 4 fun t => t.pc + off19 o)

/-- A jump refuses an odd target (11 R233). -/
def oddTarget (x : Word) : Option Trap := if x.getLsbD 0 then some (misaligned 1 x.toNat 2) else none

/-- jr (12 R265). -/
def execJr (c : Ctl) (a : Spec) : State → Host.Outcome State Fault Refusal :=
  issue (.jr c a) c 4 true (rX a) noRegs (guardOn · c) fun r t s =>
    match oddTarget (readX t a) with
    | some tr => .trap tr
    | none => .ok (s.modSlot r fun u => { u with pc := readX t a })

/-- callr: the target is read through the caller's window (12 R265). -/
def execCallr (c : Ctl) (a : Spec) : State → Host.Outcome State Fault Refusal :=
  issue (.callr c a) c 4 true (rX a) calleeW15 (guardOn · c) fun r t s =>
    match oddTarget (readX t a) with
    | some tr => .trap tr
    | none => callTo 4 (fun u => readX u a) r t s

/-- Specifier of w15. -/
abbrev w15 : Spec := 23

/-- ret (12 R266). -/
def execRet (c : Ctl) : State → Host.Outcome State Fault Refusal :=
  issue (.ret c) c 4 true (rX w15) noRegs (guardOn · c) fun r t s =>
    let target := readX t w15
    if t.depth = 0 then .trap { cls := 0x01, cause := 5 }
    else match oddTarget target with
    | some tr => .trap tr
    | none =>
      let d := t.depth - 1
      let n := if t.lo > 16 * d then cdiv (t.lo - 16 * d) 8 else 0
      let busyGroup := (List.range n).any fun g => (groupRegs (t.lo - 8 * (g + 1))).any (busy t)
      let keys := (List.range n).flatMap fun g => (fillKeys r { t with rsp := t.rsp - toW (64 * g) })
      if busyGroup || moveWaits t keys then .stay (s.setSlot r t)
      else match (keys.map granuleOf).find? fun g => smem g s.poison && s.hot r g with
      | some g => .trap (memFault g (0x10000 + keyOff g))
      | none =>
        let s := if n > 0 then iter n (fun _ s => fillOne r s) (s.modSlot r landAll) else s
        .ok (s.modSlot r fun u => { u with depth := d, pc := target, ready := u.ready + 8 * n })

/-- brk freezes the slot at the brk (12 R268). -/
def execBrk (c : Ctl) : State → Host.Outcome State Fault Refusal :=
  issue (.brk c) c 4 false noRegs noRegs (guardOn · c) fun _ _ _ => .trap { cls := 0x0E, cause := 1 }

/-- park waits for the wake flag and clears it (12 R270). -/
def bodyPark (a : Spec) : Body := fun r t s =>
  if t.wake then .ok (s.modSlot r fun u => { u with wake := false })
  else .wait (readX t a) { cause := 15, addr := 0, i0 := 0, i1 := 0 }

/-- park (12 R270). -/
def execPark (c : Ctl) (a : Spec) : State → Host.Outcome State Fault Refusal :=
  issue (.park c a) c 4 true (rX a) noRegs (guardOn · c) (bodyPark a)

/-- rsync (12 R271): the slot issues again when the pending fixed-latency writes have landed; aperture stores are in their
registers by then, over an earlier write of the same register. -/
def syncAperture (u : Slot) (now : Nat) : Slot :=
  let under (p : Pend) : Bool := u.aperture.any fun a => a.reg == p.w.reg
  let due := u.pend.foldl (fun m p => max m p.due) 0
  let u := { applyWrites u ((u.pend.filter under).map Pend.w) with pend := u.pend.filter fun p => !under p }
  let u := { u.aperture.foldl landAp u with aperture := [], recent := [] }
  { u with ready := max u.ready (max now due) }

/-- rsync (12 R271). -/
def execRsync (c : Ctl) : State → Host.Outcome State Fault Refusal :=
  issue (.rsync c) c 4 false noRegs noRegs (guardOn · c) (okBody fun r _ s => s.modSlot r fun u => syncAperture u s.now)

end Sys2Proof.Machine
end

