-- ==== Sys2Proof/Machine/CtlRegs.lean ====
section
/-! DEFINITION. Control registers and the debug window (04 R100 to R105; 10 R216, R217). -/

namespace Sys2Proof.Machine

open Sys2Proof

/-- c.grp (04 R101); outside a group what the supervisor wrote in its fields (04 R105). -/
def grpWord (t : Slot) : Word :=
  match t.grp with
  | none => toW t.grpw
  | some g => toW (g.1 + g.2 * 2 ^ 12 + 2 ^ 63)

/-- c.part (04 R101). -/
def State.partWord (s : State) (cx : Nat) : Word :=
  match s.shapeOf cx with
  | .rect w h => toW ((w - 1) + (h - 1) * 16)
  | .dies n => toW ((n - 1) + 256)

/-- c.halt (04 R100): the halt groups of its die that contain the core. -/
def State.haltWord (s : State) (k : CoreRef) : Word := toW ((s.haltsOf k).foldl (fun a g => a + 2 ^ g) 0)

/-- A control register of a slot (04 R100). -/
def State.ctlReg (s : State) (r : SlotRef) (n : Nat) : Word :=
  let t := s.slot r
  match n with
  | 0x000 => s.cId r
  | 0x001 => t.ctxw.getD (toW r.ctx)
  | 0x002 => toW t.loc
  | 0x003 => t.time.extractLsb' 64 64
  | 0x004 => t.time.extractLsb' 0 64
  | 0x005 => t.arg
  | 0x006 => t.rec_
  | 0x007 => t.card
  | 0x008 => t.round
  | 0x009 => t.b8fmt
  | 0x00A => t.check
  | 0x00B => t.wlimit
  | 0x00C => t.rsp
  | 0x00D => t.fflags.setWidth 64
  | 0x00E => toW t.depth
  | 0x010 => s.clock
  | 0x011 => t.cycles
  | 0x012 => t.seed
  | 0x013 => t.wdog
  | 0x014 => grpWord t
  | 0x015 => s.haltWord r.coreRef
  | 0x016 => s.partWord r.ctx
  | 0x017 => t.stageReg
  | 0x018 => t.mtime.extractLsb' 64 64
  | 0x019 => t.mtime.extractLsb' 0 64
  | 0x01A => t.msrc
  | n =>
    if 0x040 ≤ n ∧ n < 0x060 then mget 0 (n - 0x040) t.mc
    else if 0x060 ≤ n ∧ n < 0x080 then mget 0 (n - 0x060) (s.quad r.quadRef).arr.desc
    else 0

/-- The bits of a word kept. -/
def keep (n : Nat) (x : Word) : Word := toW (bits x 0 n)

/-- Write of a control register by mtc, with its refusals (04 R100; 03 R66, R69; 15 R335): none where the value is
illegal. RO registers and unassigned numbers ignore it. -/
def mtcWrite (t : Slot) (n : Nat) (x : Word) : Option Slot :=
  match n with
  | 0x008 => if bits x 0 3 ≥ 5 then none else some { t with round := keep 3 x }
  | 0x009 => if bits x 0 3 = 0 then none else some { t with b8fmt := keep 6 x }
  | 0x00A => some { t with check := keep 1 x }
  | 0x00B => some { t with wlimit := x }
  | 0x00D => some { t with fflags := x.setWidth 5 }
  | 0x012 => some { t with seed := keep 32 x, gens := seedGens (x.setWidth 32) }
  | 0x013 => some { t with wdog := x }
  | _ => some t

/-- Write of a control register by the debug window: RO registers too, but for c.clock, c.halt and c.part; reserved bits are
ignored, and c.seed leaves the generators as they are (04 R100, R105). -/
def debugCtl (t : Slot) (n : Nat) (x : Word) : Slot :=
  match n with
  | 0x000 => { t with idw := some (keep 36 x) }
  | 0x001 => { t with ctxw := some (keep 16 x) }
  | 0x002 => { t with loc := bits x 0 8 }
  | 0x003 => { t with time := x ++ t.time.extractLsb' 0 64 }
  | 0x004 => { t with time := t.time.extractLsb' 64 64 ++ x }
  | 0x005 => { t with arg := x }
  | 0x006 => { t with rec_ := x }
  | 0x007 => { t with card := x }
  | 0x00C => { t with rsp := x }
  | 0x00E => { t with depth := x.toNat }
  | 0x011 => { t with cycles := x }
  | 0x012 => { t with seed := keep 32 x }
  | 0x014 => { t with grp := if x.getLsbD 63 then some (bits x 0 12, bits x 12 6) else none, grpw := bits x 0 18 }
  | 0x017 => { t with stageReg := x &&& 0x8000000000000007 }
  | 0x018 => { t with mtime := x ++ t.mtime.extractLsb' 0 64 }
  | 0x019 => { t with mtime := t.mtime.extractLsb' 64 64 ++ x }
  | 0x01A => { t with msrc := keep 43 x }
  | n =>
    if 0x040 ≤ n ∧ n < 0x060 then { t with mc := mput (n - 0x040) x t.mc }
    else (mtcWrite t n x).getD t

/-- The slot behind a debug-window address of a die's supervisor (10 R216): none where no context runs there. -/
def State.debugSlot (s : State) (pd off : Nat) : Option SlotRef :=
  (s.coreAtPhys pd (off / 2 ^ 18 % 256)).map fun k => k.slotRef (off / 2 ^ 16 % 4)

/-- Is the slot open to the window: frozen or halted (10 R216)? -/
def State.debugOpen (s : State) (r : SlotRef) : Bool := (s.slot r).st == .frozen || s.coreHalted r.coreRef

/-- dctl as read: dsts and done (10 R217). -/
def State.dctlWord (s : State) (pd off : Nat) : Word :=
  let k := off / 2 ^ 18 % 256
  let n := off / 2 ^ 16 % 4
  toW (16 * s.dsts pd k n) ||| mget 0 (0x50000000 + (pd * 256 + k) * 4 + n) s.regs

/-- An aligned 8-byte word of a slot's view (10 R216). -/
def State.debugWord (s : State) (r : SlotRef) (o : Nat) : Word :=
  let t := s.slot r
  let j := o / 8
  if o < 0x200 then readRing t (BitVec.ofNat 6 j)
  else if o < 0x240 then readG t (BitVec.ofNat 3 (j - 64))
  else if o < 0x260 then
    let n := (o - 0x240) / 4
    (if n + 1 < 8 then readP t (BitVec.ofNat 3 (n + 1)) else 0) ++ readP t (BitVec.ofNat 3 n)
  else if o = 0x260 then t.ringValid
  else if o = 0x268 then toW ((t.gValid ||| 1#8).toNat + t.vValid.toNat * 2 ^ 8 + (t.pValid ||| 1#8).toNat * 2 ^ 40)
  else if o = 0x278 then toW (t.depth % 65536 + t.lo % 65536 * 65536)
  else if o = 0x280 then t.pc
  else if o = 0x288 then t.npc
  else if 0x400 ≤ o ∧ o < 0x800 then s.ctlReg r ((o - 0x400) / 8)
  else if 0x1000 ≤ o ∧ o < 0x2000 then (readV t (BitVec.ofNat 5 ((o - 0x1000) / 128))).extractLsb' (8 * (o % 128)) 64
  else if 0x2000 ≤ o ∧ o < 0x2080 then mget 0 ((o - 0x2000) / 4 + 1) t.gens ++ mget 0 ((o - 0x2000) / 4) t.gens
  else if o = 0x2100 then toW ((List.range 4).foldr (fun i a => (t.snaps.getD i (0, 0)).1 + 256 * a) 0)
  else if 0x2110 ≤ o ∧ o < 0x2150 then (t.snaps.getD ((o - 0x2110) / 16) (0, 0)).2.extractLsb' (8 * ((o - 0x2110) % 16)) 64
  else if 0x8000 ≤ o then toW (s.loadLE (localKey r (o - 0x8000)) 8)
  else 0

/-- Bytes of the debug window (10 R216): zero but for dctl where the slot is closed. -/
def State.debugRead (s : State) (pd off n : Nat) : List Byte :=
  (List.range n).map fun i =>
    let a := off + i
    let o := a % 65536
    let w := if o / 8 * 8 = 0x290 then s.dctlWord pd a
      else match s.debugSlot pd a with
        | some r => if s.debugOpen r then s.debugWord r (o / 8 * 8) else 0
        | none => 0
    w.extractLsb' (8 * (o % 8)) 8

/-- A byte written in a predicate register of a slot's view: that register alone becomes valid (04 R93; 10 R216). -/
def State.debugPred (s : State) (r : SlotRef) (o : Nat) (b : Byte) : State :=
  let n : PSpec := BitVec.ofNat 3 ((o - 0x240) / 4)
  s.modSlot r fun t =>
    let old := readP t n
    let i := 8 * (o % 4)
    applyWrite t (.p n ((old &&& ~~~(255#32 <<< i)) ||| (b.setWidth 32 <<< i)) (BitVec.allOnes 32))

/-- A write of an aligned word of a slot's view; the written register becomes valid (04 R93, R105). -/
def State.debugPut (s : State) (r : SlotRef) (o : Nat) (x : Word) : State :=
  let j := o / 8
  if o < 0x200 then s.modSlot r fun t => applyWrite t (.ring (BitVec.ofNat 6 j) x)
  else if o < 0x240 then s.modSlot r fun t => applyWrite t (.g (BitVec.ofNat 3 (j - 64)) x)
  else if o = 0x260 then s.modSlot r fun t => { t with ringValid := x }
  else if o = 0x268 then
    s.modSlot r fun t => { t with gValid := x.setWidth 8, vValid := x.extractLsb' 8 32, pValid := x.extractLsb' 40 8 }
  else if o = 0x278 then s.modSlot r fun t => { t with depth := bits x 0 16, lo := bits x 16 16 }
  else if o = 0x288 then s.modSlot r fun t => { t with npc := x }
  else if 0x400 ≤ o ∧ o < 0x800 then
    let n := (o - 0x400) / 8
    if 0x060 ≤ n ∧ n < 0x080 then
      s.modQuad r.quadRef fun q => { q with arr := { q.arr with desc := mput (n - 0x060) x q.arr.desc } }
    else s.modSlot r fun t => debugCtl t n x
  else if 0x1000 ≤ o ∧ o < 0x2000 then
    let n := BitVec.ofNat 5 ((o - 0x1000) / 128)
    let l := o % 128 / 4
    s.modSlot r fun t => applyWrite t
      (.v n (ofLanes fun i => if i = l then x.setWidth 32 else x.extractLsb' 32 32) (BitVec.ofNat 32 (3 * 2 ^ l)))
  else if 0x2000 ≤ o ∧ o < 0x2080 then
    let n := (o - 0x2000) / 4
    s.modSlot r fun t => { t with gens := mput (n + 1) (x.extractLsb' 32 32) (mput n (x.setWidth 32) t.gens) }
  else s

/-- A word with some of its bytes replaced. -/
def patch (old : Word) (i : Nat) (b : Byte) : Word :=
  (old &&& ~~~(255#64 <<< (8 * i))) ||| (b.setWidth 64 <<< (8 * i))

/-- Bytes written in the debug window, word by word; a write of dctl goes to the agenda as its command (10 R217). -/
def State.debugWrite (s : State) (pd off : Nat) (bs : List Byte) : State :=
  let k := off / 2 ^ 18 % 256
  let n := off / 2 ^ 16 % 4
  if off % 65536 / 8 * 8 = 0x290 then
    let v := leNat bs
    let key := 0x50000000 + (pd * 256 + k) * 4 + n
    let s := if v / 8 % 2 = 1 then { s with regs := mput key 0 s.regs } else s
    { s with agenda := .dctl pd k n (v % 8) :: s.agenda }
  else match s.debugSlot pd off with
  | none => s
  | some r =>
    if !s.debugOpen r then s else
    let o := off % 65536
    if o ≥ 0x8000 then s.store ((keysFrom (localKey r (o - 0x8000)) bs.length).zip bs) else
    let at_ (i : Nat) : Nat := (off + i) % 65536 / 8 * 8
    let words := (List.range bs.length).foldl (fun l i => if l.getLast? = some (at_ i) then l else l ++ [at_ i]) []
    words.foldl (fun s o =>
      let bytes := bs.zipIdx.filter fun b => at_ b.2 == o
      if 0x240 ≤ o ∧ o < 0x260 then bytes.foldl (fun s b => s.debugPred r ((off + b.2) % 65536) b.1) s
      else s.debugPut r o (bytes.foldl (fun w b => patch w ((off + b.2) % 8) b.1) (s.debugWord r o))) s

end Sys2Proof.Machine
end

