-- ==== Sys2Proof/Machine/CtlSpace.lean ====
section
/-! DEFINITION. The device control space as read: every register of 21 R372 to R374, by offset, for the host and for
each supervisor core with selectors of its own. -/

namespace Sys2Proof.Machine

open Sys2Proof

/-- Number of an agent of the control space. -/
def agentNum (a : Agent) : Nat :=
  match a with
  | .host => 0
  | .sup pd => pd + 1

/-- The registers an agent keeps for itself (21 R374). -/
inductive Sel where
  | cx | d | jq | hg | rt | cap | dl | fe | rdAddr | rdSeq | cap0 | rtBad | capBad | rdBad
deriving DecidableEq, Repr

/-- Key of such a register. -/
def selKey (a : Agent) (x : Sel) : Nat :=
  let n := match x with
    | .cx => 0
    | .d => 1
    | .jq => 2
    | .hg => 3
    | .rt => 4
    | .cap => 5
    | .dl => 6
    | .fe => 7
    | .rdAddr => 8
    | .rdSeq => 9
    | .cap0 => 10
    | .rtBad => 11
    | .capBad => 12
    | .rdBad => 13
  agentNum a * 16 + n

/-- A selector of an agent. -/
def State.sel (s : State) (a : Agent) (x : Sel) : Word := mget 0 (selKey a x) s.sels
/-- State with a selector of an agent set. -/
def State.setSel (s : State) (a : Agent) (x : Sel) (v : Word) : State := { s with sels := mput (selKey a x) v s.sels }
/-- The selected die. -/
def State.selDie (s : State) (a : Agent) : Nat := (s.sel a .d).toNat
/-- The selected halt group. -/
def State.selHalt (s : State) (a : Agent) : Halt := mget {} (s.sel a .hg).toNat (s.pdie (s.selDie a)).halts

/-- The core of a context at a physical core, for a read: the partition that holds it gives the coordinates; none where the context
does not exist or has another shape (07 R154, R158; log 21). -/
def State.coreSeen (s : State) (cx pd k : Nat) : Option CoreRef :=
  let x := s.ctx cx
  if !x.exist then none else
  (s.partAt pd k).bind fun y =>
    match (s.part y.1).place with
    | some pl => if x.shape.all fun sh => sh == pl.shape then some ⟨cx, y.2.1, y.2.2⟩ else none
    | none => none

/-- The core of a context at a physical core, for a write: none while the context is resident (07 R154, R158; log 21). -/
def State.coreOfCtx (s : State) (cx pd k : Nat) : Option CoreRef := if (s.ctx cx).resident.isSome then none else s.coreSeen cx pd k

/-- jqcfg as read: tickets of 1,024 read as 0 in the 10-bit field (log 22). -/
def jqWord (q : JobQ) : Word := toW (q.ctx % 65536 + q.tickets % 1024 * 65536 + q.depth % 16 * 2 ^ 28)

/-- dstat as read (21 R373). -/
def State.dstat (s : State) : Word :=
  let b (x : Bool) (n : Nat) : Nat := if x then 2 ^ n else 0
  toW (s.boot * 2 ^ 12 + b s.rr 8 + b s.supf 7 + b s.thr 6 + b s.trip 5 +
    (List.range 4).foldl (fun a d => a + b (decide ((s.pdie d).fenced ≠ 0)) d) 0)

/-- pswctl as read (10 R221). -/
def pswWord (p : Part) : Word :=
  toW (p.res * 2 ^ 36 + (if p.queued.isSome then 2 ^ 35 else 0) + p.st * 2 ^ 32 + p.prio.toNat * 2 ^ 16 + p.tctx.toNat)

/-- A register of a partition's block. -/
def partRead (p : Part) (o : Nat) : Word :=
  match o with
  | 0x00 => p.pshape
  | 0x10 => toW p.pstat
  | 0x18 => toW p.ctx
  | 0x20 => p.pswtime
  | 0x28 => pswWord p
  | 0x30 => p.foBase
  | 0x38 => p.foSize
  | _ => 0

/-- A register of a host queue. -/
def hostqRead (q : HostQ) (o : Nat) : Word :=
  match o with
  | 0x00 => q.base
  | 0x08 => q.cfg
  | 0x10 => q.tail.setWidth 64
  | 0x18 => q.head.setWidth 64
  | 0x20 => q.cmp
  | 0x28 => q.ctail ++ q.chead
  | _ => 0

/-- The registers of the context window. -/
def ctxRead (x : Ctx) (o : Nat) : Word :=
  match o with
  | 0x140 => x.ptbase
  | 0x148 => x.saveba
  | 0x150 => x.cxgraph
  | 0x158 => toW ((if x.privch then 1 else 0) + (if x.svcn then 2 else 0))
  | 0x160 => x.dround
  | 0x168 => x.db8fmt
  | 0x170 => x.dcheck
  | 0x178 => x.dwlimit
  | 0x180 => x.dseed
  | 0x188 => x.hsbase
  | _ => 0

/-- The registers of the selected die and of what is selected on it. -/
def State.dieRead (s : State) (a : Agent) (o : Nat) : Word :=
  let pd := s.selDie a
  let d := s.pdie pd
  let h := s.selHalt a
  let jq := mget {} (s.sel a .jq).toNat d.jobs
  let rt := (s.sel a .rt).toNat
  let cap := (s.sel a .cap).toNat
  let dl := mget {} (s.sel a .dl).toNat d.dls
  let cx := (s.sel a .cx).toNat
  let core := ((s.coreSeen cx pd (rt % 256)).map s.core).getD {}
  match o with
  | 0x408 => d.sqBase
  | 0x410 => d.sqHead.setWidth 64
  | 0x418 => d.sqTail.setWidth 64
  | 0x420 => d.toBase
  | 0x428 => d.toSize
  | 0x4A0 => s.sel a .jq
  | 0x4A8 => jqWord jq
  | 0x4B0 => jq.base
  | 0x500 => s.sel a .hg
  | 0x508 => h.mem.getD 0 0
  | 0x510 => h.mem.getD 1 0
  | 0x518 => h.mem.getD 2 0
  | 0x520 => h.mem.getD 3 0
  | 0x528 => toW ((if h.eng then 1 else 0) + (if h.stopf then 2 else 0))
  | 0x530 => h.trig
  | 0x540 => toW h.st
  | 0x600 => s.sel a .rt
  | 0x608 => (mget 0 (rt / 256) core.groups).setWidth 64
  | 0x610 => (mget 0 (rt / 256) core.reach).setWidth 64
  | 0x618 => s.sel a .rtBad
  | 0x700 => s.sel a .cap
  | 0x708 =>
    match s.coreSeen cx pd (coreAt (cap % 64) 0) with
    | some k => (mget 0 (cap / 64) (s.quad k.quadRef).caps).extractLsb' 0 64
    | none => 0
  | 0x710 =>
    match s.coreSeen cx pd (coreAt (cap % 64) 0) with
    | some k => (mget 0 (cap / 64) (s.quad k.quadRef).caps).extractLsb' 64 64
    | none => 0
  | 0x718 => s.sel a .capBad
  | 0x800 => s.sel a .dl
  | 0x808 => dl.base
  | 0x810 => dl.head.setWidth 64
  | 0x818 => dl.tail.setWidth 64
  | 0x820 => dl.disc.setWidth 64
  | 0x900 => s.sel a .rdAddr
  | 0x908 => s.sel a .rdSeq
  | 0x918 => s.sel a .rdBad
  | 0xA00 => s.sel a .fe
  | 0xA08 => if mget false ((s.sel a .fe).toNat % 64 * 256 + (s.sel a .fe).toNat / 64) d.femark then 1 else 0
  | o =>
    if 0x440 ≤ o ∧ o < 0x4A0 then
      let f := mget {} ((o - 0x440) / 0x20) d.free
      match (o - 0x440) % 0x20 with
      | 0x00 => f.base
      | 0x08 => f.tail.setWidth 64
      | 0x10 => f.head.setWidth 64
      | 0x18 => f.low
      | _ => 0
    else 0

/-- Does an offset answer now? In recovery and in the boot ROM only the boot block does, with the status register and the
HBM window through which the host loads an image (21 R380; log 40). -/
def State.answers (s : State) (off : Nat) : Bool :=
  s.boot == 2 || off == 0 || (decide (0x30000 ≤ off) && decide (off < 0x40000)) || off == 0x1000000 || decide (0x2000000 ≤ off)

/-- A register of the control space as an agent reads it; unlisted offsets read as zero, and an access that is not aligned gives
nothing: the host's ends in a completer abort (21 R372, R374; log 23). -/
def State.ctlRead (s : State) (a : Agent) (off : Nat) : Word :=
  if off % 8 ≠ 0 ∨ !s.answers off then 0
  else if off < 0x10000 then
    if off = 0 then s.dstat
    else if 0x10 ≤ off ∧ off < 0x30 then (s.pdie ((off - 0x10) / 8)).fenced
    else if 0x40 ≤ off ∧ off < 0x140 then
      ((s.pdie ((off - 0x40) / 0x40)).srep).extractLsb' (8 * ((off - 0x40) % 0x40)) 64
    else if 0x200 ≤ off ∧ off < 0x220 then (s.pdie ((off - 0x200) / 8)).swcmd
    else if 0x240 ≤ off ∧ off < 0x260 then (s.pdie ((off - 0x240) / 8)).corrected
    else if off = 0x260 then s.cerrth
    else 0
  else if off < 0x10400 then partRead (s.part ((off - 0x10000) / 0x40)) (off % 0x40)
  else if off = 0x20000 then s.pwrcfg
  else if off = 0x20008 then s.pwrstat
  else if off = 0x30008 then s.bver
  else if off = 0x30010 then s.bstage
  else if off = 0x30128 then (if s.adone then 1 else 0)
  else if 0x30100 ≤ off ∧ off < 0x30120 then mget 0 off s.regs
  else if 0x30200 ≤ off ∧ off < 0x30400 then
    if s.attest = [] then 0 else Config.attestWord s.attest ((off - 0x30200) / 8)
  else if 0x40000 ≤ off ∧ off < 0x40040 then mget 0 off s.regs
  else if 0x100000 ≤ off ∧ off < 0x104000 then hostqRead (mget {} ((off - 0x100000) / 0x40) s.hostqs) (off % 0x40)
  else if off = 0x1000000 then s.hwin
  else if off = 0x1000100 then s.sel a .cx
  else if off = 0x1000110 then s.cxstat
  else if 0x1000140 ≤ off ∧ off < 0x1000190 then ctxRead (s.ctx (s.sel a .cx).toNat) (off - 0x1000000)
  else if off = 0x1000400 then s.sel a .d
  else if 0x1000408 ≤ off ∧ off < 0x1000B00 then s.dieRead a (off - 0x1000000)
  else if 0x2000000 ≤ off ∧ off < 0x4000000 then
    toW (s.loadLE (pkey .hbm 0 (s.hwin.toNat % 2 ^ 27 * 2 ^ 25 + (off - 0x2000000))) 8)
  else 0

/-- Bytes of the control space as a supervisor core loads them: an aligned word; any other access reads as zero (21 R372;
log 23). -/
def State.ctlBytes (s : State) (pd off n : Nat) : List Byte :=
  if n = 8 ∧ off % 8 = 0 then leBytes 8 (s.ctlRead (.sup pd) off).toNat else List.replicate n 0

end Sys2Proof.Machine
end

