-- ==== Sys2Proof/Machine/MemOps.lean ====
section
/-! DEFINITION. Loads, stores, gathers, scatters and the ordering they carry; the register aperture; the watermark of a
running copy entry (04 R98, R99; 08 R179; 13 R276 to R280). -/

namespace Sys2Proof.Machine

open Sys2Proof

/-! ## Watermarks -/

/-- Bytes of the dense box of a copy entry (07 R167). -/
def CEnt.boxBytes (e : CEnt) : Nat := e.ext.foldl (· * ·) 1 * 2 ^ e.lay.esz

/-- The address by which a byte is compared with a destination: a byte of the interleaved window by the core that holds
it, a core-relative byte in the view of its core (05 R109, R115, R384). -/
def plainAddr (a : Nat) : Nat :=
  if a ≥ interBase then
    let b := a - interBase
    let off := b % 2 ^ 20
    0x200000000 + b / 2 ^ 26 * 2 ^ 25 + coreAt (b / 2 ^ 20 % 64) (off / 4 % 4) * 2 ^ 17 + 4 * (off / 16) + off % 4
  else a

/-- Box offsets of a byte in the destination of an entry that the poster's die d holds (07 R167; 08 R179). -/
def CEnt.boxOffsets (e : CEnt) (d a : Nat) : List Nat :=
  let n := e.boxBytes
  let a := plainAddr a
  if e.mode = 1 then
    match region false a with
    | .anyShared dd k off =>
      if dd = d ∧ e.dst.toNat ≤ off then
        ((List.range e.npat).filter fun i => e.pat.getD i 0 == k).filterMap fun i =>
          let x := off - e.dst.toNat
          let j := (x / e.blk * e.npat + i) * e.blk + x % e.blk
          if j < n then some j else none
      else []
    | _ => []
  else if e.dst.toNat ≥ interBase then
    match region false a with
    | .anyShared dd k off =>
      let b := e.dst.toNat - interBase
      let x := 16 * (off / 4) + 4 * posOf k + off % 4
      let lo := b % 2 ^ 20
      if dd = b / 2 ^ 26 ∧ quadOf k = b / 2 ^ 20 % 64 ∧ lo ≤ x ∧ x < lo + n then [x - lo] else []
    | _ => []
  else if e.dst.toNat ≤ a ∧ a < e.dst.toNat + n then [a - e.dst.toNat] else []

/-- The entry that a channel runs. -/
def Die.running (x : Die) (ch : Chan) : Option CEnt :=
  match ch.run, ch.queue with
  | some i, sid :: _ => (mfind sid x.scheds).bind fun sc => sc.entries[i]?
  | _, _ => none

/-- The wait of an access whose bytes lie above a running entry's watermark, or none (08 R179). -/
def State.markWait (s : State) (r : SlotRef) (as : List Nat) : Option WaitInfo :=
  let as := as.filterMap (handOver r)
  (List.range (s.shapeOf r.ctx).dieCount).findSome? fun d =>
    let x := s.die r.ctx d
    x.chans.findSome? fun c =>
      (x.running c.2).bind fun e =>
        let offs := (as.flatMap (e.boxOffsets d)).filter fun o => decide (o ≥ c.2.mark.toNat)
        if offs = [] then none
        else some { cause := 6, addr := toW c.1, i0 := c.2.mark.toNat, i1 := offs.foldl max 0 }

/-- Does a byte lie in the box of a running copy entry (08 R179)? -/
def State.underCopy (s : State) (r : SlotRef) (a : Nat) : Bool :=
  match handOver r a with
  | none => false
  | some a => (List.range (s.shapeOf r.ctx).dieCount).any fun d =>
      let x := s.die r.ctx d
      x.chans.any fun c => ((x.running c.2).map fun e => !(e.boxOffsets d a).isEmpty).getD false

/-! ## The aperture -/

/-- What an aperture access names: nothing, or bytes of a register; none where it is misaligned (04 R98). -/
def apTarget (t : Slot) (off n : Nat) : Option (Option (Reg × Nat)) :=
  if off % n ≠ 0 then none
  else if off < 0x100 then (if n > 8 then none else some (some (xReg t (BitVec.ofNat 5 (off / 8)), off % 8)))
  else if off < 0x120 then (if n > 4 then none else some (some (.p (BitVec.ofNat 3 ((off - 0x100) / 4)), off % 4)))
  else if off < 0x1000 then some none
  else some (some (.v (BitVec.ofNat 5 ((off - 0x1000) / 128)), off % 128))

/-- The bytes of a register as an aperture load sees them: as it stood before a direct write that fewer than three
instructions separate from the load (04 R99; log 87), and without an aperture store that is still on its way (log 96). -/
def apBytes (t : Slot) (x : Reg) : List Byte :=
  match t.recent.find? fun n => n.2.reg == x && decide (t.issued ≤ n.1 + 3) with
  | some n => n.2.bytes
  | none => (snapReg t x).bytes

/-- Bytes an aperture load reads. -/
def apRead (t : Slot) (tg : Option (Reg × Nat)) (n : Nat) : List Byte :=
  match tg with
  | none => List.replicate n 0
  | some (x, o) => ((apBytes t x).drop o).take n

/-- Put an aperture store on its way: later than three more instructions of the task (04 R99). -/
def apWrite (t : Slot) (tg : Option (Reg × Nat)) (lo : Nat) (bs : List Byte) : Slot :=
  match tg with
  | none => t
  | some (x, o) => { t with aperture := t.aperture ++ [{ reg := x, off := o + lo, bytes := bs, after := 3 }] }

/-- Is the register an aperture access names busy? -/
def apBusy (t : Slot) (tg : Option (Reg × Nat)) : Bool :=
  match tg with
  | none => false
  | some (x, _) => busy t x

/-- Does an access of n bytes wait for the register it names in the aperture (04 R98)? -/
def apHolds (t : Slot) (n : Nat) (w : Acc) : Bool :=
  match w with
  | .aperture off => ((apTarget t off n).map (apBusy t)).getD false
  | _ => false

/-! ## Accesses -/

/-- The fault of an access that consumes a poisoned granule (10 R213, R220). -/
def poisonTrap (s : State) (a : Nat) (ks : List Nat) (bad : Nat → Bool) : Option Trap :=
  (ks.zipIdx.find? fun k => let g := granuleOf k.1; smem g s.poison && bad g).map fun k =>
    let g := granuleOf k.1
    let n := max 1 (granuleSize (keyKind g))
    memFault g ((a + k.2) / n * n)

/-- The slot put back to where the instruction had not issued. -/
def notYet (r : SlotRef) (t : Slot) (s : State) : Res := .stay (s.setSlot r t)

/-- The fault of a coordinate outside the partition names the operand it came from (10 R213). -/
def blame (ra : Spec) (x : Word) (tr : Trap) : Trap :=
  if tr.cls = 0x01 ∧ tr.cause = 4 then { tr with addr := x, aux := ra.setWidth 32 } else tr

/-- Has the slot an atomic for another package that waits to be sent (08 R181)? -/
def State.unsent (s : State) (t : Slot) : Bool := t.flights.any fun f => match f with
  | .remote _ p n _ => ((s.peer p).out.drop Config.linkWindow).any fun q => q.seq == n
  | _ => false

/-- Does an access to a byte of another package wait: for the slot's atomics that have not gone out, for a link to which its traffic is
moving (08 R181; 21 R379)? -/
def State.farWaits (s : State) (t : Slot) (k : Nat) : Bool := keyKind k == 6 && (s.unsent t || s.linkMoves (keyUnit k))

/-- An access through base ra that has to resolve to memory: later accesses wait for an acquire in flight (09 R188), a miss
walks first, a line that zeroing has not reached waits (01 R19), as does one with an atomic of the task to come (09 R193), an access
to another package follows the task's atomics there;
other targets go to win. -/
def withKeys (r : SlotRef) (t : Slot) (s : State) (ra : Spec) (a n al : Nat) (x : Access) (len : Nat) (win : Acc → Res)
    (k : List Nat → Res) : Res :=
  if acquiring t then notYet r t s else
  match s.access r a n al x with
  | .fault tr => .trap (blame ra (readX t ra) tr)
  | .walk va x => .stay ((s.setSlot r t).startWalk r va x len)
  | .keys ks =>
    if barred t r ks || s.farWaits t (ks.getD 0 0) then notYet r t s else k ks
  | w => win w

/-- An access of an instruction that reaches memory alone: a window is refused before alignment is looked at (10 R210; 13 R276). -/
def withMem (r : SlotRef) (t : Slot) (s : State) (ra : Spec) (a n al : Nat) (x : Access) (k : List Nat → Res) : Res :=
  let bad : Res := .trap (illegal 3 ra (toW a))
  if !acquiring t && windowAt r a then bad else withKeys r t s ra a n al x 4 (fun _ => bad) k

/-- A release at a scope where there is one, once it can be made (05 R112; 09 R187, R188). -/
def withRelease (r : SlotRef) (t : Slot) (s : State) (sc : Option Scope) (k : State → Res) : Res :=
  match sc with
  | none => k s
  | some sc => if s.mayRelease r sc then k (s.release r sc) else notYet r t s

/-- Consecutive task addresses. -/
def addrsFrom (a n : Nat) : List Nat := (List.range n).map fun i => a + i

/-- Reading memory: bytes above a watermark wait under c.wlimit, then poison faults (08 R179; 10 R220). -/
def readGate (r : SlotRef) (s : State) (a : Nat) (ks : List Nat) (k : Res) : Res :=
  match s.markWait r (addrsFrom a ks.length) with
  | some w => .wait 0 w
  | none => match poisonTrap s a ks (s.hot r) with
    | some tr => .trap tr
    | none => k

/-- Writing memory: bytes above a watermark wait, then a granule that is poisoned and not covered faults, a full store buffer
waits without fault (05 R112; 08 R179; 10 R220). -/
def writeGate (r : SlotRef) (t : Slot) (s : State) (a : Nat) (as : List Nat) (ps : List (Nat × Byte)) (k : Res) : Res :=
  let ks := ps.map Prod.fst
  match s.markWait r as with
  | some w => .wait 0 w
  | none => match poisonTrap s a ks (fun g => s.hot r g && !coversGranule ks g) with
    | some tr => .trap tr
    | none => if s.sbRoom r ps then k else notYet r t s

/-- Physical die of a supervisor slot. -/
def supDie (r : SlotRef) : Nat := r.die

/-- The fault of a debug-window access to a poisoned granule of a slot's local store, in the supervisor's view (10 R216,
R220). -/
def State.debugPoison (s : State) (pd a off n : Nat) (bad : Nat → Bool) : Option Trap :=
  match s.debugSlot pd off with
  | some r =>
    if s.debugOpen r && decide (off % 65536 ≥ 0x8000) then poisonTrap s a (keysFrom (localKey r (off % 65536 - 0x8000)) n) bad
    else none
  | none => none

/-- An access that loads n bytes at a from outside memory: the aperture, the debug window, the control space. -/
def winRead (r : SlotRef) (t : Slot) (s : State) (a n : Nat) (w : Acc) (k : List Byte → Res) : Res :=
  match w with
  | .aperture off =>
    match apTarget t off n with
    | none => .trap (misaligned 2 a n)
    | some tg => if apBusy t tg then notYet r t s else k (apRead t tg n)
  | .debug off =>
    match s.debugPoison (supDie r) a off n (fun _ => true) with
    | some tr => .trap tr
    | none => k (s.debugRead (supDie r) off n)
  | .ctl off => k (s.ctlBytes (supDie r) off n)
  | _ => notYet r t s

/-- A store of pieces (offset from a, bytes) of an access of n bytes to the aperture, the debug window or the control
space. -/
def winWrite (r : SlotRef) (t : Slot) (s : State) (a n : Nat) (pieces : List (Nat × List Byte)) (w : Acc)
    (k : State → Res) : Res :=
  match w with
  | .aperture off =>
    match apTarget t off n with
    | none => .trap (misaligned 2 a n)
    | some tg =>
      if apBusy t tg then notYet r t s
      else k (s.modSlot r fun u => pieces.foldl (fun u p => apWrite u tg p.1 p.2) u)
  | .debug off =>
    let bad := pieces.findSome? fun p => s.debugPoison (supDie r) (a + p.1) (off + p.1) p.2.length fun g =>
      !coversGranule (pieces.flatMap fun p => match s.debugSlot (supDie r) off with
        | some q => keysFrom (localKey q ((off + p.1) % 65536 - 0x8000)) p.2.length
        | none => []) g
    match bad with
    | some tr => .trap tr
    | none => k (pieces.foldl (fun s p => s.debugWrite (supDie r) (off + p.1) p.2) s)
  | .ctl off =>
    if n = 8 ∧ off % 8 = 0 then
      k { s with agenda := .ctl (.sup (supDie r)) off (toW (leNat (pieces.flatMap Prod.snd))) :: s.agenda }
    else k s
  | _ => notYet r t s

/-- The scope of a release. -/
def relOf (o : Ord) (sc : Scope) : Option Scope :=
  match o with
  | .rel => some sc
  | .acqrel => some sc
  | _ => none

/-- An acquire at a scope, where there is one. -/
def State.acquireAt (s : State) (r : SlotRef) (sc : Option Scope) : State :=
  match sc with
  | some x => s.acquire r x
  | none => s

/-- The base register's increment, readable in the next arith cycle (log 69); a load into the base register itself hides it (13
R277). -/
def bump (r : SlotRef) (t : Slot) (s : State) (pi : Bool) (a n : Nat) (ra : Spec) (dst : Option Reg) : State :=
  if pi && dst != some (xReg t ra) then s.later r 1 [writeX t ra (toW (a + n))] else s

/-- A scalar load (13 R277, R278). -/
def bodyLoad (d ra : Spec) (z : BitVec 2) (addr : Slot → Nat) (acq : Option Scope) (pi : Bool) : Body := fun r t s =>
  let a := addr t
  let n := szBytes z
  let dst := xReg t d
  let fin (s : State) (f : Flight) : Res := .ok ((bump r t s pi a n ra (some dst)).fly r f)
  withKeys r t s ra a n n .read 4
    (fun w => winRead r t s a n w fun bs => fin s (winFlight acq [writeX t d (toW (leNat bs))]))
    fun ks => readGate r s a ks (fin s (.load dst [⟨0, ks, a⟩] 0 false acq))

/-- A scalar store (13 R277, R278). -/
def bodyStore (d ra : Spec) (z : BitVec 2) (addr : Slot → Nat) (rel : Option Scope) (pi : Bool) : Body := fun r t s =>
  let a := addr t
  let n := szBytes z
  let bs := leBytes n (readX t d).toNat
  withKeys r t s ra a n n .write 4
    (fun w => if apHolds t n w then notYet r t s
      else withRelease r t s rel fun s => winWrite r t s a n [(0, bs)] w fun s => .ok (bump r t s pi a n ra none))
    fun ks =>
      let ps := ks.zip bs
      writeGate r t s a (addrsFrom a n) ps
        (withRelease r t s rel fun s => .ok (bump r t (s.put r ps) pi a n ra none))

/-- Lanes a vector access moves (13 R279). -/
def movedLanes (t : Slot) (c : Ctl) (n : Nat) : List Nat := (List.range n).filter (laneOn t c)

/-- A mask of lanes. -/
def maskOf (ls : List Nat) : W32 := ofBits32 fun i => ls.contains i

/-- vld (13 R279): .bc gives the word to every enabled lane. -/
def bodyVld (c : Ctl) (d ra : Spec) (z : BitVec 2) (acq : Option Scope) (pi : Bool) : Body := fun r t s =>
  let a := addrM t ra
  let n := vUnit z
  let bc := z == 3
  let lanes := if bc then movedLanes t c 32 else movedLanes t c (vLanes z)
  let fin (s : State) (f : Flight) : Res := .ok ((bump r t s pi a n ra none).fly r f)
  withKeys r t s ra a n n .read 4
    (fun w => winRead r t s a n w fun bs =>
      let v := ofLanes fun i => BitVec.ofNat 32 (leNat ((bs.drop (if bc then 0 else 4 * i)).take 4))
      fin s (winFlight acq [.v d v (maskOf lanes)]))
    fun ks =>
      let parts := if bc then [⟨0, ks, a⟩] else lanes.map fun i => ⟨i, (ks.drop (4 * i)).take 4, a + 4 * i⟩
      let used := parts.flatMap LoadPart.keys
      match s.markWait r (parts.flatMap fun p => addrsFrom p.va 4) with
      | some w => .wait 0 w
      | none => match poisonTrap s a ks (fun g => s.hot r g && used.any fun k => granuleOf k == g) with
        | some tr => .trap tr
        | none => fin s (.load (.v d) parts (maskOf lanes) bc acq)

/-- vst (13 R279): .l0 stores lane 0. -/
def bodyVst (c : Ctl) (d ra : Spec) (z : BitVec 2) (rel : Option Scope) (pi : Bool) : Body := fun r t s =>
  let a := addrM t ra
  let n := vUnit z
  let lanes := movedLanes t c (vLanes z)
  let pieces := lanes.map fun i => (4 * i, leBytes 4 (lane (readV t d) i).toNat)
  withKeys r t s ra a n n .write 4
    (fun w => if apHolds t n w then notYet r t s
      else withRelease r t s rel fun s => winWrite r t s a n pieces w fun s => .ok (bump r t s pi a n ra none))
    fun ks =>
      let ps := pieces.flatMap fun p => (ks.drop p.1).zip p.2
      writeGate r t s a (lanes.flatMap fun i => addrsFrom (a + 4 * i) 4) ps
        (withRelease r t s rel fun s => .ok (bump r t (s.put r ps) pi a n ra none))

/-- How the checks of a gather's or scatter's lanes end: the lanes with their keys, and those of a supervisor's windows, or the
first lane that fails (13 R280). -/
def checkLanes (r : SlotRef) (s : State) (ra : Spec) (addr : Nat → Nat) (es : Nat) (x : Access) :
    List Nat → Acc ⊕ (List (Nat × List Nat) × List (Nat × Acc))
  | [] => .inr ([], [])
  | i :: rest =>
    if region (r.core == supCore) (addr i) == .aperture (addr i - 0x30000) then .inl (.fault (illegal 3 ra (toW (addr i)))) else
    match s.access r (addr i) es es x with
    | .keys ks =>
      match checkLanes r s ra addr es x rest with
      | .inr l => .inr ((i, ks) :: l.1, l.2)
      | e => e
    | .debug off =>
      match checkLanes r s ra addr es x rest with
      | .inr l => .inr (l.1, (i, .debug off) :: l.2)
      | e => e
    | .ctl off =>
      match checkLanes r s ra addr es x rest with
      | .inr l => .inr (l.1, (i, .ctl off) :: l.2)
      | e => e
    | .fault tr => .inl (.fault (blame ra (toW (addr i)) tr))
    | e => .inl e

/-- Lanes of a gather or scatter resolved, or what stops it. -/
def withLanes (r : SlotRef) (t : Slot) (s : State) (c : Ctl) (ra : Spec) (addr : Nat → Nat) (es : Nat) (x : Access)
    (k : List (Nat × List Nat) → List (Nat × Acc) → Res) : Res :=
  if acquiring t then notYet r t s else
  match checkLanes r s ra addr es x (movedLanes t c 32) with
  | .inl (.fault tr) => .trap tr
  | .inl (.walk va x) => .stay ((s.setSlot r t).startWalk r va x 4)
  | .inl _ => notYet r t s
  | .inr l =>
    if barred t r (l.1.flatMap Prod.snd) || (l.1.any fun p => s.farWaits t (p.2.getD 0 0)) then notYet r t s
    else k l.1 l.2

/-- The first poisoned element of a gather or scatter. -/
def lanesPoison (s : State) (addr : Nat → Nat) (l : List (Nat × List Nat)) (bad : Nat → Bool) : Option Trap :=
  l.findSome? fun p => poisonTrap s (addr p.1) p.2 bad

/-- The elements that a gather reads in a supervisor's windows, lane by lane (10 R216; 13 R280). -/
def winLanes (r : SlotRef) (t : Slot) (s : State) (addr : Nat → Nat) (es : Nat) (k : Map W32 → Res) :
    List (Nat × Acc) → Map W32 → Res
  | [], m => k m
  | p :: l, m => winRead r t s (addr p.1) es p.2 fun bs => winLanes r t s addr es k l (mput p.1 (BitVec.ofNat 32 (leNat bs)) m)

/-- vldx (13 R280). -/
def bodyVldx (c : Ctl) (d a b : Spec) (e : XSize) : Body := fun r t s =>
  let addr := addrX t a b e
  let es := XSize.bytes e
  withLanes r t s c a addr es .read fun l win =>
    match s.markWait r (l.flatMap fun p => addrsFrom (addr p.1) es) with
    | some w => .wait 0 w
    | none => match lanesPoison s addr l (s.hot r) with
      | some tr => .trap tr
      | none => winLanes r t s addr es (fun m =>
          let s := if win = [] then s
            else s.fly r (.value [.v d (ofLanes fun i => mget 0 i m) (maskOf (win.map Prod.fst))])
          .ok (s.fly r (.load (.v d) (l.map fun p => ⟨p.1, p.2, addr p.1⟩) (maskOf (l.map Prod.fst)) false none))) win []

/-- A scatter's elements written in lane order: those of memory as one store, then those of a supervisor's windows (13
R280). -/
def winScatter (r : SlotRef) (t : Slot) (addr : Nat → Nat) (es : Nat) (val : Nat → W32) (k : State → Res) :
    List (Nat × Acc) → State → Res
  | [], s => k s
  | p :: l, s => winWrite r t s (addr p.1) es [(0, leBytes es (val p.1).toNat)] p.2 (winScatter r t addr es val k l)

/-- vstx (13 R280): lanes in ascending order. -/
def bodyVstx (c : Ctl) (d a b : Spec) (e : XSize) : Body := fun r t s =>
  let addr := addrX t a b e
  let es := XSize.bytes e
  withLanes r t s c a addr es .write fun l win =>
    let ps := l.flatMap fun p => p.2.zip (leBytes es (lane (readV t d) p.1).toNat)
    let ks := ps.map Prod.fst
    match s.markWait r (l.flatMap fun p => addrsFrom (addr p.1) es) with
    | some w => .wait 0 w
    | none => match lanesPoison s addr l (fun g => s.hot r g && !coversGranule ks g) with
      | some tr => .trap tr
      | none =>
        if s.sbRoom r ps then winScatter r t addr es (lane (readV t d)) (fun s => .ok (s.put r ps)) win s else notYet r t s

/-- Does the guard enable a lane that the form moves (13 R279)? -/
def anyMoved (c : Ctl) (n : Nat) (t : Slot) : Bool := movedLanes t c n != []

/-! ## Instructions -/

def execLd (c : Ctl) (d a : Spec) (o : Ord) (sc : Scope) (z : BitVec 2) (p : Bool) :
    State → Host.Outcome State Fault Refusal :=
  issue (.ld c d a o sc z p) c 4 false (rX a) (fun t => rX d t ++ if p then rX a t else []) (guardOn · c) (bodyLoad d a z (addrM · a) (acqOf o sc) p)

def execSt (c : Ctl) (d a : Spec) (o : Ord) (sc : Scope) (z : BitVec 2) (p : Bool) :
    State → Host.Outcome State Fault Refusal :=
  issue (.st c d a o sc z p) c 4 false (rXX d a) (fun t => if p then [xReg t a] else []) (guardOn · c)
    (bodyStore d a z (addrM · a) (relOf o sc) p)

def execLdo (c : Ctl) (d a : Spec) (z : BitVec 2) (f : BitVec 7) : State → Host.Outcome State Fault Refusal :=
  issue (.ldo c d a z f) c 4 false (rX a) (rX d) (guardOn · c) (bodyLoad d a z (addrO · a z f) none false)

def execSto (c : Ctl) (d a : Spec) (z : BitVec 2) (f : BitVec 7) : State → Host.Outcome State Fault Refusal :=
  issue (.sto c d a z f) c 4 false (rXX d a) noRegs (guardOn · c) (bodyStore d a z (addrO · a z f) none false)

def execVld (c : Ctl) (d a : Spec) (o : Ord) (sc : Scope) (z : BitVec 2) (p : Bool) :
    State → Host.Outcome State Fault Refusal :=
  issue (.vld c d a o sc z p) c 4 false (rX a) (fun t => .v d :: (if p then [xReg t a] else []))
    (anyMoved c (if z = 3 then 32 else vLanes z)) (bodyVld c d a z (acqOf o sc) p)

def execVst (c : Ctl) (d a : Spec) (o : Ord) (sc : Scope) (z : BitVec 2) (p : Bool) :
    State → Host.Outcome State Fault Refusal :=
  issue (.vst c d a o sc z p) c 4 false (fun t => [.v d, xReg t a]) (fun t => if p then [xReg t a] else [])
    (anyMoved c (vLanes z)) (bodyVst c d a z (relOf o sc) p)

def execVldx (c : Ctl) (d a b : Spec) (e : XSize) : State → Host.Outcome State Fault Refusal :=
  issue (.vldx c d a b e) c 4 false (fun t => [xReg t a, .v b]) (fun _ => [.v d]) (anyMoved c 32) (bodyVldx c d a b e)

def execVstx (c : Ctl) (d a b : Spec) (e : XSize) : State → Host.Outcome State Fault Refusal :=
  issue (.vstx c d a b e) c 4 false (fun t => [xReg t a, .v b, .v d]) noRegs (anyMoved c 32) (bodyVstx c d a b e)

end Sys2Proof.Machine
end

