-- ==== Sys2Proof/Machine/Sync.lean ====
section
/-! DEFINITION. Full-empty words, atomics, fences, barriers, stage rings, translation invalidation (05 R121, R125; 06
R137 to R139; 09 R189; 13 R281 to R284, R292 to R294; 15 R336). -/

namespace Sys2Proof.Machine

open Sys2Proof

/-! ## Full-empty words -/

/-- An access to words that have to carry a full-empty bit: what resolves to none is refused before alignment and permission are
looked at (10 R210; 13 R281). -/
def withFull (r : SlotRef) (t : Slot) (s : State) (ra : Spec) (a n : Nat) (x : Access) (k : List Nat → Res) : Res :=
  let bad : Res := .trap (illegal 3 ra (toW a))
  if !acquiring t && (s.noFull r a || (n == 8 && s.noFull r (a + 4))) then bad
  else withKeys r t s ra a n n x 4 (fun _ => bad) fun ks =>
    let k0 := ks.getD 0 0
    if s.carriesFull r a k0 && (n != 8 || s.carriesFull r a (k0 + 4)) then k ks else bad

/-- ldf: the test, the read and the take are one step at the home, when the access reaches it: at issue, or where homes are far later,
while the slot waits (02 R58; 13 R281; log 9). -/
def bodyLdf (d ra : Spec) (o : Ord) (sc : Scope) (z : BitVec 1) (take : Bool) : Body := fun r t s =>
  let a := addrM t ra
  let n := if z = 1 then 8 else 4
  withFull r t s ra a n (if take then .atomic else .read) fun ks =>
    let k := ks.getD 0 0
    let words := ldfWords z k
    if words.all s.isFull && (!s.far || t.wait.isSome) then
      match poisonTrap s a ks (s.hot r) with
      | some tr => .trap tr
      | none => .ok (s.ldfStep r (xReg t d) k z take (acqOf o sc))
    else
      let fullBits := (if s.isFull k then 1 else 0) + (if z = 1 ∧ s.isFull (k + 4) then 2 else 0)
      .wait (readX t d) { cause := 7, addr := toW a, i0 := fullBits, i1 := words.length, key := k }

/-- A full-empty operation on one word, which its home executes when it gets there (13 R282): one that stores a word faults at a
poisoned granule (10 R220). -/
def feWord (ra : Spec) (x : Access) (op : FeOp) : Body := fun r t s =>
  let a := addrM t ra
  withFull r t s ra a 4 x fun ks =>
    let stores := match op with
      | .stf _ => true
      | _ => false
    match if stores then poisonTrap s a ks (s.hot r) else none with
    | some tr => .trap tr
    | none => .ok (s.fly r (.fe op (ks.getD 0 0)))

/-- stf: the low word of its source (13 R282). -/
def bodyStf (ra b : Spec) : Body := fun r t s => feWord ra .atomic (.stf ((readX t b).setWidth 32)) r t s

def execLdf (c : Ctl) (d a : Spec) (o : Ord) (sc : Scope) (z : BitVec 1) (k : Bool) :
    State → Host.Outcome State Fault Refusal :=
  issue (.ldf c d a o sc z k) c 4 false (rXX d a) (rX d) (guardOn · c) (bodyLdf d a o sc z k)

def execFset (c : Ctl) (a : Spec) : State → Host.Outcome State Fault Refusal :=
  issue (.fset c a) c 4 false (rX a) noRegs (guardOn · c) (feWord a .atomic .fset)

def execFclr (c : Ctl) (a : Spec) : State → Host.Outcome State Fault Refusal :=
  issue (.fclr c a) c 4 false (rX a) noRegs (guardOn · c) (feWord a .atomic .fclr)

def execStf (c : Ctl) (a b : Spec) : State → Host.Outcome State Fault Refusal :=
  issue (.stf c a b) c 4 false (rXX a b) noRegs (guardOn · c) (bodyStf a b)

def execFprobe (c : Ctl) (d a : Spec) : State → Host.Outcome State Fault Refusal :=
  issue (.fprobe c d a) c 4 false (rX a) (rX d) (guardOn · c) fun r t s => feWord a .read (.fprobe (xReg t d)) r t s

/-! ## Atomics -/

/-- An atomic performed at a word of another package: what it returns. Memory of another package changes by this package's
accesses alone (log 42). -/
def State.farAtomic (s : State) (pkg : Nat) (q : Remote) : Remote × State :=
  let k := pkey .remote pkg q.key
  let old : W32 := BitVec.ofNat 32 (s.loadLE k 4)
  ({ q with res := some old }, s.storeLE k 4 (aop q.f old q.a q.b).toNat)

/-- Requests within the window that have not gone out are sent, in order: where a link works they are performed, once; the resend
timer runs from here (08 R181; log 42). After its link has failed the destination is sent nothing until the requests sent before are
answered or given up (21 R379). -/
def State.sendAtomics (s : State) (pkg : Nat) : State :=
  let p := s.peer pkg
  if p.moving && p.out.any (fun q => q.tries != 0) then s else
  let s := if p.moving then s.modPeer pkg fun p => { p with moving := false } else s
  let x := (p.out.take Config.linkWindow).foldl (fun (a : List Remote × State) q =>
    if q.tries ≠ 0 then (a.1 ++ [q], a.2)
    else
      let q := { q with sent := s.now, tries := 1 }
      if !s.linkUp then (a.1 ++ [q], a.2)
      else
        let y := a.2.farAtomic pkg q
        (a.1 ++ [y.1], y.2)) ([], s)
  x.2.modPeer pkg fun p => { p with out := x.1 ++ p.out.drop Config.linkWindow }

/-- amo executes at the word's home when its request gets there, which is later than its issue; on another package as a numbered
request, which goes behind the quad's stores to the line, and waits while 256 are outstanding there (08 R181; 09 R192; 13 R283). -/
def bodyAmo (d ra : Spec) (f : Aop) (o : Ord) (sc : Scope) : Body := fun r t s =>
  let a := addrM t ra
  let b : W32 := (readX t d).setWidth 32
  let new : W32 := (readX t (d + 1)).setWidth 32
  withMem r t s ra a 4 4 .atomic fun ks =>
    match poisonTrap s a ks (s.hot r) with
    | some tr => .trap tr
    | none =>
      let k := ks.getD 0 0
      let dst := xReg t d
      if keyKind k ≠ 6 then
        withRelease r t s (relOf o sc) fun s => .ok (s.fly r (.atomic dst ks f b new (acqOf o sc)))
      else if !s.sendsTo (keyUnit k) && (s.quad r.quadRef).sb.any fun e => e.line == lineOf k then notYet r t s
      else withRelease r t s (relOf o sc) fun s =>
        let s := (s.sampleLines r (ks.map lineOf)).drainLines r.quadRef (ks.map lineOf)
        let pkg := keyUnit k
        let n := (s.peer pkg).next
        let q : Remote := { seq := n.toNat, who := r, gen := t.gen, f := f, key := keyOff k, a := b, b := new, sent := s.now,
                            tries := 0 }
        let s := s.modPeer pkg fun p => { p with next := p.next + 1, out := p.out ++ [q] }
        .ok ((s.sendAtomics pkg).fly r (.remote dst pkg q.seq (acqOf o sc)))

def execAmo (c : Ctl) (d a : Spec) (f : Aop) (o : Ord) (sc : Scope) : State → Host.Outcome State Fault Refusal :=
  issue (.amo c d a f o sc) c 4 false (if f = .cas then rXXX a d (d + 1) else rXX a d) (rX d) (guardOn · c)
    (bodyAmo d a f o sc)

/-! ## Fences -/

/-- A store that a fence must perform on another package, while no link works (13 R284; 21 R379). -/
def linkTrap (s : State) (r : SlotRef) (sc : Scope) : Option Trap :=
  if sc.atLeast 4 && !s.linkUp then
    ((s.quad r.quadRef).sb.find? fun e => e.mine r && farEnt e).map fun e =>
      waitFault { cause := 12, addr := toW (keyUnit (e.line * 64)), i0 := 0, i1 := 9 } 0
  else none

/-- What a fence that performs stores asks of the links: a store to another package whose home cannot acknowledge it faults at pod and
sys scope, and holds the fence back at die and pkg scope (09 R187; 13 R284; 21 R379); an acquire before the fence comes first, because
the stores that it follows are earlier ones too (09 R188). A fence that performs none asks nothing. -/
def onFence (rel : Option Scope) (k : State → Res) : Body := fun r t s =>
  match rel with
  | none => k s
  | some sc =>
    if acquiring (s.slot r) then notYet r t s else
    match linkTrap s r sc with
    | some tr => .trap tr
    | none => if s.linksHold r sc then notYet r t s else k s

/-- A fence before which every operation at a home and every acquire has to come (09 R187, R188). -/
def whenQuiet (k : State → Res) : Body := fun r t s => if quiet (s.slot r) then k s else notYet r t s

/-- The scope of a fence whose accesses have still to be performed, with those asked for before. -/
def fenceScope (old : Option Scope) (sc : Scope) : Option Scope := some ((old.map (wider sc)).getD sc)

/-- A memory fence (09 R189; log 86): an acquiring one waits until every load has its value; of a releasing one, stores to another
package are home, and the other accesses are performed at its scope before the next store of the task, and under acqrel before the
next load too, but not before an instruction that releases an engine. -/
def fenceMem (o : Ord) (sc : Scope) : Body := fun r t s =>
  let body : Body := fun r t s => (onFence (relOf o sc) · r t s) fun s =>
    let s := if (acqOf o sc).isSome then s.sampleAll r else s
    let s := match relOf o sc with
      | some sc =>
        let s := if sc.atLeast 2 then s.drainIf r farEnt else s
        s.modSlot r fun u => { u with fence := fenceScope u.fence sc, fenceAll := u.fenceAll || (acqOf o sc).isSome }
      | none => s
    .ok (s.acquireAt r (acqOf o sc))
  if (acqOf o sc).isSome && !quiet (s.slot r) then notYet r t s else body r t s

/-- An engine fence (09 R189; log 86): stores to another package are home, and every other earlier access is performed at its scope
before an instruction that releases an engine; an acquiring one drops the read cache from die scope on. -/
def fenceEng (o : Ord) (sc : Scope) : Body := fun r t s => (onFence (relOf o sc) · r t s) fun s =>
  let s := match relOf o sc with
    | some sc =>
      let s := if sc.atLeast 2 then s.drainIf r farEnt else s
      s.modSlot r fun u => { u with fenceE := fenceScope u.fenceE sc }
    | none => s
  .ok (s.acquireAt r (acqOf o sc))

def execFence (c : Ctl) (o : Ord) (sc : Scope) : State → Host.Outcome State Fault Refusal :=
  issue (.fence c o sc) c 4 false noRegs noRegs (guardOn · c) (fenceMem o sc)

def execFenceE (c : Ctl) (o : Ord) (sc : Scope) : State → Host.Outcome State Fault Refusal :=
  issue (.fenceE c o sc) c 4 false noRegs noRegs (guardOn · c) (fenceEng o sc)

/-- fence.i: the stores that happen before it, which may be those of the quad's other tasks, are at their homes, and the core
fetches anew (09 R189). -/
def execFenceI (c : Ctl) (sc : Scope) : State → Host.Outcome State Fault Refusal :=
  issue (.fenceI c sc) c 4 false noRegs noRegs (guardOn · c) fun r t s => (onFence (some sc) · r t s) fun s => (whenQuiet · r t s) fun s =>
    .ok (((s.release r sc).drainQuad r.quadRef).modCore r.coreRef fun k => { k with fetched := [] })

/-- fence.t: earlier stores to page-table entries, which lie in the package's own HBM, are at their homes before a later access walks
(09 R189). -/
def execFenceT (c : Ctl) (o : Ord) (sc : Scope) : State → Host.Outcome State Fault Refusal :=
  issue (.fenceT c o sc) c 4 false noRegs noRegs (guardOn · c) fun r t s => (whenQuiet · r t s) fun s =>
    .ok (((s.release r sc).drain r).acquireAt r (acqOf o sc))

/-! ## Barriers -/

/-- The unit of a barrier instance: its core, quad, die, or the context (13 R292). -/
def barUnit (r : SlotRef) (sc : Scope) : Nat :=
  match sc with
  | .core => coreKey r.coreRef
  | .quad => quadKey r.quadRef
  | .die => dieKey r.ctx r.die
  | _ => 0

/-- Key of a barrier instance. -/
def barKey (sc : Scope) (u id : Nat) : Nat := (u * 8 + sc.bits.toNat) * 4 + id

/-- Cores of a scope instance inside the partition (13 R293). -/
def State.barCores (s : State) (cx : Nat) (sc : Scope) (u : Nat) : List Nat :=
  let all := ((s.shapeOf cx).cores.map fun c => CoreRef.mk cx c.1 c.2)
  match sc with
  | .core => [u]
  | .quad => (all.filter fun k => quadKey k.quadRef == u).map coreKey
  | .die => (all.filter fun k => dieKey k.ctx k.die == u).map coreKey
  | _ => all.map coreKey

/-- Has a core arrived: every slot in its mask (13 R293)? -/
def BarInst.coreIn (b : BarInst) (k : Nat) : Bool :=
  match b.arrived.find? fun a => a.1 / 4 == k with
  | none => false
  | some a => (List.range 4).all fun n => !a.2.getLsbD n || b.arrived.any fun x => x.1 == k * 4 + n

/-- Cores of an instance that have arrived. -/
def State.barIn (s : State) (cx : Nat) (sc : Scope) (u : Nat) (b : BarInst) : List Nat :=
  (s.barCores cx sc u).filter b.coreIn

/-- The refusals of a barrier's name and of the arrival state, before those of its reserved bits (10 R210; 13 R292). -/
def barTrap (r : SlotRef) (b : Spec) (x : Word) (clash : Bool) : Option Trap :=
  if !x.getLsbD (4 + r.slot) then some (illegal 3 b x)
  else if clash then some (illegal 5 b x)
  else if bits x 2 2 ≠ 0 ∨ bits x 8 56 ≠ 0 then some (rsvIn b x)
  else none

/-- Arrival at a barrier: a release at its scope (13 R292). -/
def arrive (r : SlotRef) (s : State) (sc : Scope) (key : Nat) (x : Word) : State :=
  let inst := mget {} key (s.ctx r.ctx).bars
  let s := s.release r sc
  let s := s.modCtx r.ctx fun c =>
    { c with bars := mput key { inst with arrived := inst.arrived ++ [(slotKey r, BitVec.ofNat 4 (bits x 4 4))] } c.bars }
  s.modSlot r fun t => { t with bars := mput (sc.bits.toNat * 4 + bits x 0 2) inst.parity t.bars }

/-- Does an arrival at this core with this mask disagree with one of the same phase (13 R293)? -/
def maskClash (r : SlotRef) (inst : BarInst) (x : Word) : Bool :=
  inst.arrived.any fun a => a.1 / 4 == coreKey r.coreRef && a.2.toNat != bits x 4 4

/-- bar, barn and barw: arr says that it arrives, wt that it waits (13 R292). -/
def bodyBar (sc : Scope) (a b : Spec) (arr wt : Bool) : Body := fun r t s =>
  let x := readX t b
  let id := bits x 0 2
  let key := barKey sc (barUnit r sc) id
  let mine := mfind (sc.bits.toNat * 4 + id) t.bars
  let inst := mget {} key (s.ctx r.ctx).bars
  let clash := (arr && !wt && mine.isSome) || (!arr && mine.isNone) || (arr && mine.isNone && maskClash r inst x)
  match barTrap r b x clash with
  | some tr => .trap tr
  | none =>
    if arr && mine.isNone && !s.mayRelease r sc then notYet r t s
    else
      let s1 := if arr && mine.isNone then arrive r s sc key x else s
      if !wt then .ok s1
      else
        let inst1 := mget {} key (s1.ctx r.ctx).bars
        let p := mine.getD inst.parity
        if inst1.parity ≠ p then
          .ok ((s1.modSlot r fun t => { t with bars := mdel (sc.bits.toNat * 4 + id) t.bars }).acquire r sc)
        else
          let u := barUnit r sc
          let back := s1.modSlot r fun u =>
            { t with bars := u.bars, flights := u.flights, fence := u.fence, fenceAll := u.fenceAll,
                      fenceE := u.fenceE }
          .hold back (readX t a)
            { cause := 10, addr := toW sc.bits.toNat, i0 := (s1.barIn r.ctx sc u inst1).length,
              i1 := (s1.barCores r.ctx sc u).length }

/-- A barrier phase completes once every core of the instance has arrived (13 R293); at pod scope the event stands for the
other packages' arrivals too (log 35). -/
def State.barDone (s : State) (cx : Nat) (sc : Scope) (u id : Nat) : State :=
  let key := barKey sc u id
  match mfind key (s.ctx cx).bars with
  | none => s
  | some b =>
    let cores := s.barCores cx sc u
    if !s.enginesUp cx || b.arrived == [] || decide (id > 3) || !(cores.all b.coreIn) then s
    else s.modCtx cx fun c => { c with bars := mput key { parity := !b.parity, arrived := [] } c.bars }

/-- The phase that a waiting bar or barw names, by its operand as read at issue, complete where every core of the package has arrived:
it meets no expiry then (04 R95; 13 R295). -/
def State.barMeets (s : State) (r : SlotRef) (w : Wait) : State :=
  let meets (sc : Scope) (b : Spec) : State :=
    if sc.atLeast 4 then s else s.barDone r.ctx sc (barUnit r sc) (bits (readX (applyWrites (s.slot r) w.old) b) 0 2)
  match w.instr with
  | .bar _ sc _ b => meets sc b
  | .barw _ sc _ b => meets sc b
  | _ => s

def execBar (c : Ctl) (sc : Scope) (a b : Spec) : State → Host.Outcome State Fault Refusal :=
  issue (.bar c sc a b) c 4 false (rXX a b) noRegs (guardOn · c) (bodyBar sc a b true true)

def execBarn (c : Ctl) (sc : Scope) (a b : Spec) : State → Host.Outcome State Fault Refusal :=
  issue (.barn c sc a b) c 4 false (rX b) noRegs (guardOn · c) (bodyBar sc a b true false)

def execBarw (c : Ctl) (sc : Scope) (a b : Spec) : State → Host.Outcome State Fault Refusal :=
  issue (.barw c sc a b) c 4 false (rXX a b) noRegs (guardOn · c) (bodyBar sc a b false true)

/-! ## Stage rings -/

/-- Where a ring's payload begins (06 R137). -/
def ringData (slots : Nat) : Nat := 128 * cdiv (64 + slots) 128

/-- A ring as it stands in memory: base key, counters, slots, bytes, closed. -/
structure RingView where
  k : Nat
  anext : Nat
  tnext : Nat
  fnext : Nat
  slots : Nat
  bytes : Nat
  closed : Bool

/-- A ring read at its home, or none where slots or bytes are illegal or it leaves its memory (06 R137, R138). -/
def State.ringAt (s : State) (k : Nat) : Option RingView :=
  let slots := s.loadLE (k + 24) 4
  let bytes := s.loadLE (k + 28) 4
  let size := if keyKind k = 2 then 2 ^ 24 else 0x20000
  let okSlots := decide (2 ≤ slots) && decide (slots ≤ 4096) && decide (2 ^ Nat.log2 slots = slots)
  let okBytes := decide (bytes % 128 = 0) && decide (128 ≤ bytes) && decide (bytes ≤ 65536)
  if okSlots && okBytes && decide (keyOff k + ringData slots + bytes * slots ≤ size) then
    some { k := k, anext := s.loadLE k 8, tnext := s.loadLE (k + 8) 8, fnext := s.loadLE (k + 16) 8, slots := slots,
           bytes := bytes, closed := decide (s.loadLE (k + 32) 1 % 2 = 1) }
  else none

/-- Key of the state byte of an entry. -/
def RingView.stateKey (g : RingView) (n : Nat) : Nat := g.k + 64 + n % g.slots
/-- State of an entry. -/
def State.ringState (s : State) (g : RingView) (n : Nat) : Nat := (memGet (g.stateKey n) s.mem).toNat
/-- State with an entry's state byte written. -/
def State.setRing (s : State) (g : RingView) (n x : Nat) : State := s.storeLE (g.stateKey n) 1 x
/-- Address of an entry's slot. -/
def RingView.slotAddr (g : RingView) (a n : Nat) : Word := toW (a + ringData g.slots + g.bytes * (n % g.slots))

/-- Ring scope: the narrowest that holds the core and the ring's home (06 R138). -/
def ringScope (r : SlotRef) (k : Nat) : Scope :=
  let u := keyUnit k
  if keyKind k = 2 then
    let q : QuadRef := ⟨u / 512, u / 128 % 4, u % 128⟩
    if q = r.quadRef then .quad else if q.die = r.die then .die else .pkg
  else
    let d := u / 512
    scopeOf r.coreRef ⟨d / 4, d % 4, u % 512⟩

/-- May a ring lie at this key: a vault, or the general area of a core-shared region (06 R137)? -/
def ringPlace (k : Nat) : Bool := keyKind k == 2 || (keyKind k == 1 && decide (keyOff k ≥ 0x15000))

/-- A ring operation at the home of the ring's first line (06 R138; 13 R294): the address, then poison of the header, then what
the header says, then poison of the entry states (10 R210). -/
def onRing (ra : Spec) (f : Nat → RingView → Body) : Body := fun r t s =>
  let a := addrM t ra
  let bad : Res := .trap (illegal 3 ra (toW a))
  let inter := match region false a with
    | .inter _ => true
    | _ => false
  if acquiring t then notYet r t s else
  match s.access r a 128 128 .atomic with
  | .keys ks =>
    let k := ks.getD 0 0
    if inter || !ringPlace k || region false a == .trans then bad else
    let s := s.sampleLines r ((List.range 66).map fun i => lineOf k + i)
    let s := s.drainLines r.quadRef ((List.range 66).map fun i => lineOf k + i)
    match poisonTrap s a (keysFrom k 64) (fun _ => true) with
    | some tr => .trap tr
    | none =>
      match s.ringAt k with
      | none => bad
      | some g =>
        match poisonTrap s (a + 64) (keysFrom (k + 64) g.slots) (fun _ => true) with
        | some tr => .trap tr
        | none => f a g r t s
  | .fault tr => if tr.cls = 0x01 then .trap (blame ra (readX t ra) tr) else bad
  | _ => bad

/-- Commit passes finished and discarded entries (06 R138, R139). -/
def commit (g : RingView) (tnext : Nat) : Nat → Nat → State → State
  | 0, _, s => s
  | n + 1, fnext, s =>
    if fnext < tnext ∧ (s.ringState g fnext = 4 ∨ s.ringState g fnext = 5) then
      commit g tnext n (fnext + 1) ((s.setRing g fnext 0).storeLE (g.k + 16) 8 (fnext + 1))
    else s

/-- racq (06 R138). -/
def bodyRacq (d a b : Spec) : Body := onRing a fun ad g r t s =>
  if g.closed then .trap (illegal 5 a (toW ad))
  else if g.anext - g.fnext = g.slots then
    .wait (readX t b) { cause := 3, addr := toW ad, i0 := g.anext, i1 := g.fnext }
  else
    let s := (s.setRing g g.anext 1).storeLE g.k 8 (g.anext + 1)
    .ok (s.fly r (.value (writePair t d (toW g.anext) (g.slotAddr ad g.anext))))

/-- rpub (06 R138). -/
def bodyRpub (cl : Bool) (a b : Spec) : Body := onRing a fun _ g r t s =>
  let n := (readX t b).toNat
  if !(decide (g.fnext ≤ n) && decide (n < g.anext) && s.ringState g n == 1) then .trap (illegal 5 b (readX t b))
  else withRelease r t s (some (ringScope r g.k)) fun s =>
    let s := s.setRing g n 2
    .ok (if cl then s.storeLE (g.k + 32) 1 (s.loadLE (g.k + 32) 1 / 2 * 2 + 1) else s)

/-- rtake (06 R138). -/
def bodyRtake (d a b : Spec) : Body := onRing a fun ad g r t s =>
  let w : WaitInfo := { cause := 3, addr := toW ad, i0 := g.tnext, i1 := g.anext }
  if g.tnext = g.anext then
    if g.closed then .ok (s.fly r (.value (writePair t d (BitVec.allOnes 64) 0))) else .wait (readX t b) w
  else if s.ringState g g.tnext ≠ 2 then .wait (readX t b) w
  else
    let s := (s.setRing g g.tnext 3).storeLE (g.k + 8) 8 (g.tnext + 1)
    let s := s.modSlot r fun u => { u with held := u.held ++ [.ring (toW ad) (toW g.tnext)] }
    .ok (s.fly r (.acquired (writePair t d (toW g.tnext) (g.slotAddr ad g.tnext)) (ringScope r g.k)))

/-- rrel (06 R138). -/
def bodyRrel (a b : Spec) : Body := onRing a fun ad g r t s =>
  let n := (readX t b).toNat
  if !(decide (g.fnext ≤ n) && decide (n < g.tnext) && s.ringState g n == 3) then .trap (illegal 5 b (readX t b))
  else
    let s := s.modSlot r fun u => { u with held := u.held.filter fun h => h != .ring (toW ad) (toW n) }
    .ok (commit g g.tnext g.slots g.fnext (s.setRing g n 4))

/-- rstat (13 R294). -/
def bodyRstat (d a : Spec) (k : BitVec 5) : Body := onRing a fun _ g r t s =>
  let p := if k = 0 then (g.anext, g.tnext) else (g.fnext, if g.closed then 1 else 0)
  .ok (s.fly r (.value (writePair t d (toW p.1) (toW p.2))))

def execRacq (c : Ctl) (d a b : Spec) : State → Host.Outcome State Fault Refusal :=
  issue (.racq c d a b) c 4 false (rXX a b) (rPair d) (guardOn · c) (bodyRacq d a b)

def execRpub (c : Ctl) (cl : Bool) (a b : Spec) : State → Host.Outcome State Fault Refusal :=
  issue (.rpub c cl a b) c 4 false (rXX a b) noRegs (guardOn · c) (bodyRpub cl a b)

def execRtake (c : Ctl) (d a b : Spec) : State → Host.Outcome State Fault Refusal :=
  issue (.rtake c d a b) c 4 false (rXX a b) (rPair d) (guardOn · c) (bodyRtake d a b)

def execRrel (c : Ctl) (a b : Spec) : State → Host.Outcome State Fault Refusal :=
  issue (.rrel c a b) c 4 false (rXX a b) noRegs (guardOn · c) (bodyRrel a b)

def execRstat (c : Ctl) (d a : Spec) (k : BitVec 5) : State → Host.Outcome State Fault Refusal :=
  issue (.rstat c d a k) c 4 false (rX a) (rPair d) (guardOn · c) (bodyRstat d a k)

/-! ## Translation invalidation -/

/-- Does an invalidation's range touch a cached translation? -/
def tlbHit (lo n : Nat) (e : TlbEnt) : Bool :=
  decide (e.va * 2 ^ e.bits < lo + n) && decide (lo < (e.va + 1) * 2 ^ e.bits)

/-- Remove the translations of a range from every TLB that may hold them, a die's those of a context that is switched out too, and the
read-cache lines of the range (05 R121). -/
def State.invalidate (s : State) (cx lo n : Nat) : State :=
  let s := (s.shapeOf cx).quads.foldl (fun s q =>
    s.modQuad ⟨cx, q.1, q.2⟩ fun x =>
      { x with
        tlb := x.tlb.filter fun e => !tlbHit lo n e,
        rcache := x.rcache.filter fun l => !(decide (l.va + 64 > lo) && decide (l.va < lo + n)) }) s
  let s := { s with cores := s.cores.map fun (x : Nat × Core) =>
    if x.1 / 2048 = cx ∧ x.2.fetched ≠ [] then
      (x.1, { x.2 with fetched := x.2.fetched.filter fun l => !(decide (l.1 * 64 + 64 > lo) && decide (l.1 * 64 < lo + n)) })
    else x }
  { s with pdies := s.pdies.map fun x => (x.1, { x.2 with tlb2 := x.2.tlb2.filter fun e => !(e.1 == cx && tlbHit lo n e.2) }) }

/-- tlbinv: a task invalidates in the address space that its c.ctx names alone (04 R105; 15 R336). -/
def bodyTlbinv (a b : Spec) : Body := fun r t s =>
  let lo := (readX t a).toNat
  let x := readX t b
  let cx := bits x 0 16
  let n := bits x 16 48 * 65536
  if lo % 65536 ≠ 0 then .trap (illegal 3 a (readX t a))
  else if n = 0 then .trap (illegal 3 b x)
  else if lo + n > 2 ^ 52 then .trap (illegal 3 a (readX t a))
  else if r.core ≠ supCore ∧ cx ≠ bits (s.ctlReg r 1) 0 16 then .trap (illegal 3 b x)
  else .ok ((s.invalidate cx lo n).modSlot r fun u => { u with inv := u.inv + 1 })

/-- tlbsync waits for the acknowledgement of the slot's invalidations (05 R121; 15 R336). -/
def bodyTlbsync (a : Spec) : Body := fun r t s =>
  if t.inv = 0 then .ok s else .wait (readX t a) { cause := 14, addr := toW r.ctx, i0 := t.inv, i1 := 0 }

def execTlbinv (c : Ctl) (a b : Spec) : State → Host.Outcome State Fault Refusal :=
  issue (.tlbinv c a b) c 4 false (rXX a b) noRegs (guardOn · c) (bodyTlbinv a b)

def execTlbsync (c : Ctl) (a : Spec) : State → Host.Outcome State Fault Refusal :=
  issue (.tlbsync c a) c 4 false (rX a) noRegs (guardOn · c) (bodyTlbsync a)

/-! ## Control registers, watchdog, debug stop -/

/-- mfc: c.clock and c.cycles land with variable latency, sampled at issue (15 R335). -/
def execMfc (c : Ctl) (d : Spec) (i : BitVec 9) : State → Host.Outcome State Fault Refusal :=
  issue (.mfc c d i) c 4 false noRegs (rX d) (guardOn · c) (okBody fun r t s =>
    let ws := [writeX t d (s.ctlReg r i.toNat)]
    if i = 0x010 ∨ i = 0x011 then s.fly r (.value ws) else s.later r 1 ws)

/-- mtc (15 R335). -/
def execMtc (c : Ctl) (d : Spec) (i : BitVec 9) : State → Host.Outcome State Fault Refusal :=
  issue (.mtc c d i) c 4 false (rX d) noRegs (guardOn · c) fun r t s =>
    match mtcWrite (s.slot r) i.toNat (readX t d) with
    | none => .trap (illegal 3 d (readX t d))
    | some u => .ok (s.setSlot r u)

/-- wdog (15 R337). -/
def execWdog (c : Ctl) (a : Spec) : State → Host.Outcome State Fault Refusal :=
  issue (.wdog c a) c 4 false (rX a) noRegs (guardOn · c)
    (okBody fun r t s => s.modSlot r fun u => { u with wdog := readX t a })

/-- dstop (15 R337). Bits [63:16] of the operand are in no field of R337: the model takes them as reserved and raises
fault.rsvfield where one is set (log 71). -/
def execDstop (c : Ctl) (a : Spec) : State → Host.Outcome State Fault Refusal :=
  issue (.dstop c a) c 4 false (rX a) noRegs (guardOn · c) fun r t s =>
    let m := bits (readX t a) 0 16
    let gs := (List.range 16).filter fun g => m / 2 ^ g % 2 == 1
    if m = 0 ∨ !(gs.all fun g => (s.haltsOf r.coreRef).contains g) then .trap (illegal 3 a (readX t a))
    else if bits (readX t a) 16 48 ≠ 0 then .trap (rsvIn a (readX t a))
    else .ok (s.haltGroups (s.physDie r.ctx r.die) gs)

end Sys2Proof.Machine
end

