-- ==== Sys2Proof/Machine/Msg.lean ====
section
/-! DEFINITION. Messages: mailboxes, delivery, dead letters, the spill area, device-posted messages, and the
instructions of majors 0x2A and 0x2B (06 R129 to R135, R140, R149; 13 R285 to R291). -/

namespace Sys2Proof.Machine

open Sys2Proof

/-! ## Mailboxes -/

/-- Offset of a mailbox in the core-shared region (05 R107). -/
def boxOff (b : Nat) : Nat := if b < 16 then 0x400 * b else 0x14000 + 0x400 * (b - 16)
/-- Key of an entry's payload. -/
def entryKey (k : CoreRef) (b e : Nat) : Nat := sharedKey k (boxOff b + 128 * e)
/-- Task-view address of an entry. -/
def entryAddr (b e : Nat) : Word := toW (0x10000 + boxOff b + 128 * e)
/-- Age of an entry: the older, the greater (06 R131, R133). -/
def Box.age (x : Box) (g : Tag) : Nat := (x.seq - g.seq).toNat
/-- Entries in a state. -/
def Box.inSt (x : Box) (n : BitVec 2) : List (Nat × Tag) := x.tags.filter fun e => e.2.st == n
/-- The oldest ready entry (06 R133). -/
def Box.oldest (x : Box) : Option (Nat × Tag) :=
  (x.inSt 1).foldl (fun a e => match a with
    | none => some e
    | some f => if x.age e.2 > x.age f.2 then some e else some f) none
/-- The lowest free entry (06 R132). -/
def Box.free (x : Box) : Option Nat :=
  (List.range Config.boxEntries).find? fun e => (mget {} e x.tags).st == 0
/-- Payload of a message as bytes. -/
def Msg.bytes (m : Msg) : List Byte := leBytes 128 m.payload.toNat
/-- Is a source field of a device-posted message (06 R129)? -/
def isDev (src : Word) : Bool := src.getLsbD 42
/-- The core a source field names, in a context. -/
def srcCore (cx : Nat) (src : Word) : CoreRef := ⟨cx, dDie src, dCore src⟩

/-- Move a message's count between the ordinary and the held kind (01 R33). The increment goes first, so that no batch lowers
the total alone where the delta buffer is flushed between the two. -/
def State.markHeld (s : State) (k : CoreRef) (g : Tag) (on : Bool) : State :=
  if !g.counted then s else
  let w : Int := g.weight
  let s := s.count k g.loc g.time on w
  s.count k g.loc g.time (!on) (-w)

/-- Retire a message's count, of the kind it has, as an instruction starts it. -/
def State.retireMsg (s : State) (o : Origin) (k : CoreRef) (g : Tag) (held : Bool) : State :=
  if g.counted then s.countBy o k g.loc g.time held (-(g.weight : Int)) else s

/-- Tag of a message. -/
def Msg.tag (m : Msg) (st : BitVec 2) (seq : BitVec 16) : Tag :=
  { st := st, time := m.time, src := m.src, loc := m.loc, seq := seq, weight := m.weight, counted := m.counted,
    poisoned := m.poisoned, dst := m.dst }

/-- Bytes stored, a payload among them: where it is poisoned its granules are, behind the accesses that have been performed there (10
R220). -/
def State.storeHurt (s : State) (ps : List (Nat × Byte)) (hurt : Bool) (payload : List Nat) : State :=
  let s := (if hurt then s.sampleEverywhere (payload.map lineOf) else s).store ps
  if hurt then { s with poison := payload.foldl (fun p x => sadd (granuleOf x) p) s.poison } else s

/-- Put a message into an entry (06 R131, R132): a poisoned payload is poison in its memory too (10 R220). -/
def State.putEntry (s : State) (k : CoreRef) (b e : Nat) (m : Msg) (st : BitVec 2) (seq : BitVec 16) : State :=
  let ks := keysFrom (entryKey k b e) 128
  (s.storeHurt (ks.zip m.bytes) m.poisoned ks).modBox k b fun x => { x with tags := mput e (m.tag st seq) x.tags }

/-- The message that an entry holds: poisoned where its memory is, since it came or before (10 R220). -/
def State.entryMsg (s : State) (k : CoreRef) (b e : Nat) : Msg :=
  let g := mget {} e (s.box k b).tags
  { dst := g.dst, src := g.src, time := g.time, payload := BitVec.ofNat 1024 (s.loadLE (entryKey k b e) 128), loc := g.loc,
    weight := g.weight, counted := g.counted, poisoned := (poisoned s (keysFrom (entryKey k b e) 128)).isSome }

/-- A message as a 192-byte entry: its header, two words, its payload (06 R140). -/
def Msg.letter (m : Msg) (a b : Nat) : List Byte :=
  leBytes 8 m.dst.toNat ++ leBytes 8 m.src.toNat ++ leBytes 16 m.time.toNat ++ leBytes 8 a ++ leBytes 8 b ++ leBytes 16 0 ++
    m.bytes

/-- Bytes from a key on, with their keys. -/
def cellsFrom (k : Nat) (bs : List Byte) : List (Nat × Byte) := bs.zipIdx.map fun b => (k + b.2, b.1)

/-- State with some bytes stored from a key on. -/
def State.storeFrom (s : State) (k : Nat) (bs : List Byte) : State := s.store (cellsFrom k bs)

/-- A message written as a 192-byte entry, its payload in the last 128 (06 R140; 10 R220). -/
def State.storeLetter (s : State) (k : Nat) (m : Msg) (a b : Nat) : State :=
  s.storeHurt (cellsFrom k (m.letter a b)) m.poisoned (keysFrom (k + 64) 128)

/-- Write a dead letter into its core's queue, or count it as discarded; its count is retired (06 R140). -/
def State.deadLetter (s : State) (k : CoreRef) (m : Msg) (reason : Nat) (held : Bool) : State :=
  let pd := s.physDie k.ctx k.die
  let pk := s.physCore k.ctx k.core
  let q := mget {} pk (s.pdie pd).dls
  let s := s.retireMsg {} k (m.tag 0 0) held
  if q.tail - q.head = BitVec.ofNat 32 Config.deadLetters then
    let s := s.modPdie pd fun d =>
      { d with dls := mput pk { q with disc := BitVec.ofNat 32 (sat32 (q.disc.toNat + 1)) } d.dls }
    s.notice pd k.ctx 2 (toW (pk + pd * 256))
  else
    let a := pkey .hbm 0 (q.base.toNat + 192 * (q.tail.toNat % Config.deadLetters))
    let s := s.storeLetter a m reason s.clock.toNat
    s.modPdie pd fun d => { d with dls := mput pk { q with tail := q.tail + 1 } d.dls }

/-- The halt spill area of a context, as its last restore took it over (21 R374). -/
def Ctx.spillArea (x : Ctx) : Word := (x.useDef.bind fun l => l[6]?).getD x.hsbase

/-- Has the halt spill area of a context room (06 R149)? -/
def State.spillRoom (s : State) (cx : Nat) : Bool :=
  let x := s.ctx cx
  decide (192 * (x.spill.length + 1) ≤ bits x.spillArea 0 16 * 65536)

/-- Spill a message for a mailbox: its entry is written at the lowest free place of the area, with reason 0 (06 R140, R149; log
60). -/
def State.spillMsg (s : State) (k : CoreRef) (b : Nat) (m : Msg) (held : Bool) (seq : BitVec 16) : State :=
  let x := s.ctx k.ctx
  let pos := freePlace (x.spill.map Spill.pos)
  (s.storeLetter (pkey .hbm 0 (bits x.spillArea 16 36 * 65536 + 192 * pos)) m 0 s.clock.toNat).modCtx k.ctx fun x =>
    { x with spill := x.spill ++ [{ seq := seq, die := k.die, core := k.core, box := b, held := held, msg := m, pos := pos }] }

/-- The order in which held messages start (01 R21): time, then payload word 0, then arrival. -/
def earlier (now : BitVec 16) (m : Msg) (i : BitVec 16) (n : Msg) (j : BitVec 16) : Bool :=
  let a := bits m.payload 0 32
  let b := bits n.payload 0 32
  decide (m.time < n.time) || (m.time == n.time && (decide (a < b) || (a == b && decide ((now - i).toNat > (now - j).toNat))))

/-- The earliest of some messages with their numbers. -/
def earliest (now : BitVec 16) (l : List (Nat × Msg × BitVec 16)) : Option (Nat × Msg × BitVec 16) :=
  l.foldl (fun a x => match a with
    | none => some x
    | some y => if earlier now x.2.1 x.2.2 y.2.1 y.2.2 then some x else some y) none

/-- The latest. -/
def latest (now : BitVec 16) (l : List (Nat × Msg × BitVec 16)) : Option (Nat × Msg × BitVec 16) :=
  l.foldl (fun a x => match a with
    | none => some x
    | some y => if earlier now y.2.1 y.2.2 x.2.1 x.2.2 then some x else some y) none

/-- Spilled held messages of a mailbox, with their places in the area. -/
def State.spilledFor (s : State) (k : CoreRef) (b : Nat) : List (Nat × Msg × BitVec 16) :=
  ((s.ctx k.ctx).spill.zipIdx.filter fun x => x.1.held && x.1.die == k.die && x.1.core == k.core && x.1.box == b).map
    fun x => (x.2, x.1.msg, x.1.seq)

/-- Take a message out of the spill area. -/
def State.unspill (s : State) (cx i : Nat) : State := s.modCtx cx fun x => { x with spill := x.spill.eraseIdx i }

/-- Keep a settle mailbox filled with the earliest of its held messages (06 R149). -/
def State.settleFix (s : State) (k : CoreRef) (b : Nat) : Nat → State
  | 0 => s
  | n + 1 =>
    let x := s.box k b
    match earliest x.seq (s.spilledFor k b) with
    | none => s
    | some (i, m, q) =>
      match x.free with
      | some e => ((s.unspill k.ctx i).putEntry k b e m 2 q).settleFix k b n
      | none =>
        match latest x.seq ((x.inSt 2).map fun e => (e.1, s.entryMsg k b e.1, e.2.seq)) with
        | none => s
        | some (e, m', q') =>
          if earlier x.seq m q m' q' then
            (((s.unspill k.ctx i).putEntry k b e m 2 q).spillMsg k b m' true q').settleFix k b n
          else s

/-- The slots that a message in a mailbox wakes (12 R269): the mailbox's slot, or every slot of a core whose plain mailbox
it is. -/
def State.wakeBox (s : State) (k : CoreRef) (b : Nat) : State :=
  if b < 16 then s.modSlot (k.slotRef (b / 4)) fun t => { t with wake := true }
  else if (s.box k b).mode = 0 then
    (List.range 4).foldl (fun s n => s.modSlot (k.slotRef n) fun t => { t with wake := true }) s
  else s

/-- Deliver a message at its core (06 R132): a state, or none where the core refuses it, or where it is a service notice that waits for
an entry, whatever the mailbox's mode (06 R130). -/
def State.deliverNow (s : State) (k : CoreRef) (b : Nat) (m : Msg) : Option State :=
  if b < 16 ∧ dGen m.dst ≠ (s.slot (k.slotRef (b / 4))).gen.toNat then some (s.deadLetter k m 1 false)
  else if s.coreHalted k then
    (if s.spillRoom k.ctx then some (s.spillMsg k b m false 0) else none)
  else
    let x := s.box k b
    let settle := x.mode == 2
    let s1 := s.modBox k b fun y => { y with seq := y.seq + 1 }
    match x.free with
    | some e =>
      let s1 := s1.putEntry k b e m (if settle then 2 else 1) x.seq
      some (if settle then (s1.markHeld k (m.tag 2 x.seq) true).settleFix k b 8 else s1.wakeBox k b)
    | none =>
      if settle ∧ !m.svc ∧ s.spillRoom k.ctx then
        some (((s1.spillMsg k b m true x.seq).markHeld k (m.tag 2 x.seq) true).settleFix k b 8)
      else none

/-- Messages for a mailbox that were spilled while its core was halted and have not come in yet, by place. -/
def State.lateFor (s : State) (k : CoreRef) (b : Nat) : List Nat :=
  ((s.ctx k.ctx).spill.zipIdx.filter fun x => !x.1.held && x.1.die == k.die && x.1.core == k.core && x.1.box == b).map Prod.snd

/-- Deliver the spilled messages of a mailbox whose core runs again, in arrival order, while they fit (06 R149; 10 R227). -/
def State.unspillBox (s : State) (k : CoreRef) (b : Nat) : Nat → State
  | 0 => s
  | n + 1 =>
    match s.lateFor k b with
    | [] => s
    | i :: _ =>
      if s.coreHalted k then s else
      match (s.ctx k.ctx).spill[i]? with
      | none => s
      | some x => match (s.unspill k.ctx i).deliverNow k b x.msg with
        | some s' => s'.unspillBox k b n
        | none => s

/-- Deliver a message that arrives; spilled ones of its mailbox come first (06 R132, R149). -/
def State.deliver (s : State) (k : CoreRef) (b : Nat) (m : Msg) : Option State :=
  let s := s.unspillBox k b (s.lateFor k b).length
  if s.lateFor k b = [] ∨ s.coreHalted k then s.deliverNow k b m else none

/-- A device-posted message to a core mailbox, svc where it is a service notice: no edge, no count; it waits in the core's message unit
while the mailbox is full (06 R129, R130). Its source names the receiving core's own mailbox of that class with dev set, slot and generation 0:
the manual does not say what it names (log 72). -/
def State.postDev (s : State) (k : CoreRef) (cls : Nat) (time : Time) (payload : Vec) (svc : Bool) : State :=
  let src := toW (2 ^ 42 + cls * 2 ^ 30 + s.pkg * 2 ^ 13 + k.die * 2 ^ 11 + k.core * 2 ^ 3 + 4)
  let dst := toW (cls * 2 ^ 30 + s.pkg * 2 ^ 13 + k.die * 2 ^ 11 + k.core * 2 ^ 3 + 4)
  let m : Msg := {
    dst := dst, src := src, time := time, payload := payload, loc := 0, weight := 0, counted := false, poisoned := false, svc := svc }
  match s.deliver k (16 + cls) m with
  | some s => s
  | none => s.modCore k fun c => { c with notices := c.notices ++ [m] }

/-- A notice of the device: a card's completion, a storm, a clipped box (06 R129). -/
def State.postNotice (s : State) (k : CoreRef) (cls : Nat) (time : Time) (payload : Vec) : State := s.postDev k cls time payload false

/-- A service notice (06 R130). -/
def State.postService (s : State) (k : CoreRef) (payload : Vec) : State := s.postDev k 0 0 payload true

/-- Offer the waiting device-posted messages of a core again, in order. -/
def State.retryNotices (s : State) (k : CoreRef) : State :=
  let ms := (s.core k).notices
  if ms = [] then s else
  ms.foldl (fun s m => match s.deliver k (16 + dCls m.dst) m with
    | some s => s
    | none => s.modCore k fun c => { c with notices := c.notices ++ [m] }) (s.modCore k fun c => { c with notices := [] })

/-- Free an entry; a settle mailbox takes the next spilled message, device-posted messages that wait come in. -/
def State.freeEntry (s : State) (k : CoreRef) (b e : Nat) : State :=
  let s := s.modBox k b fun x => { x with tags := mdel e x.tags }
  let s := if (s.box k b).mode = 2 then s.settleFix k b 8 else s
  (s.unspillBox k b (s.lateFor k b).length).retryNotices k

/-- Empty the four mailboxes of a slot into the dead-letter queue (06 R134). -/
def State.emptySlotBoxes (s : State) (r : SlotRef) (reason : Nat) : State :=
  (List.range 4).foldl (fun s c =>
    let b := 4 * r.slot + c
    let x := s.box r.coreRef b
    let es := (List.range Config.boxEntries).filter fun e => (mget {} e x.tags).st != 0
    let byAge := es.mergeSort fun e f => decide (x.age (mget {} e x.tags) ≥ x.age (mget {} f x.tags))
    byAge.foldl (fun s e =>
      (s.deadLetter r.coreRef (s.entryMsg r.coreRef b e) reason false).modBox r.coreRef b fun x =>
        { x with tags := mdel e x.tags }) s) s

/-! ## Sending -/

/-- Is a package in the pod: this one, or an enrolled one (13 R293; 21 R372; log 24)? -/
def State.inPod (s : State) (p : Nat) : Bool := p == s.pkg || (mget 0 (0x40000 + p / 64 * 8) s.regs).getLsbD (p % 64)

/-- The wait of a count change that finds no room (08 R174). -/
def State.countWait (s : State) (k : CoreRef) : WaitInfo :=
  let pd := s.physDie k.ctx k.die
  { cause := 8, addr := toW k.die, i0 := s.chipUse pd, i1 := (s.overUsed pd).length }

/-- The edge a descriptor names, if the task may use it (11 R243; 01 R29). -/
def State.sendEdge (s : State) (r : SlotRef) (t : Slot) (d : Word) : Option Edge :=
  (s.edge r.ctx (dEdge d)).bind fun e => if e.src = t.loc then some e else none

/-- The source field of a message that a slot sends (06 R129). -/
def State.srcWord (s : State) (r : SlotRef) (t : Slot) (d : Word) : Word :=
  toW (dEdge d * 2 ^ 32 + dCls d * 2 ^ 30 + t.gen.toNat * 2 ^ 22 + s.pkg * 2 ^ 13 + r.die * 2 ^ 11 + r.core * 2 ^ 3 + r.slot)

/-- The wait for a free entry of the send buffer (06 R135; 10 R213). -/
def sendWait (t : Slot) (d : Word) : WaitInfo :=
  { cause := 2, addr := d, i0 := t.sent - t.send.length, i1 := t.sent }

/-- Put a message with its count into the send buffer: the count enters the delta buffer and the buffer is flushed, and
the message waits for the batch (06 R135; 08 R171, R172). -/
def State.enqueue (s : State) (r : SlotRef) (m : Msg) (n : Int) (group : Option Nat) : State :=
  let k := r.coreRef
  let s := (s.count k m.loc m.time false n).flush k none
  let batch := if n = 0 then 0 else s.lastBatch
  ({ s with ids := s.ids + 1 } : State).modSlot r fun t =>
    { t with
      send := t.send ++ [{ id := s.ids, msg := m, batch := batch, group := group, sent := false, out := 1, refused := [] }],
      sent := t.sent + 1 }

/-- send (13 R285). -/
def bodySend (v a b : Spec) : Body := fun r t s =>
  let d := readX t a
  if !(s.shapeOf r.ctx).hasCore (dDie d) (dCore d) ∨ !s.inPod (dPkg d) then .trap (illegal 4 a d)
  else if bits d 42 22 ≠ 0 then .trap (rsvIn a d)
  else match s.sendEdge r t d with
  | none => .trap (frontierFault 2 t.loc t.time)
  | some e =>
    let tau := e.apply t.time
    if t.send.length ≥ Config.sendEntries then .wait (readX t b) (sendWait t d)
    else if s.countBlocked r.coreRef e.dst tau then .wait (readX t b) (s.countWait r.coreRef)
    else
      let sc := if dPkg d = s.pkg then scopeOf r.coreRef ⟨r.ctx, dDie d, dCore d⟩ else .pod
      withRelease r t s (some sc) fun s =>
      .ok (s.enqueue r { dst := d, src := s.srcWord r t d, time := tau, payload := readV t v, loc := e.dst, weight := 1,
                         counted := true, poisoned := false } 1 none)

/-- Words of a payload that are not zero (08 R173). -/
def nonZero (v : Vec) : Nat := ((List.range 32).filter fun i => lane v i != 0).length

/-- Counts that an mcast adds, by the sender's own router entry (13 R286). -/
def mcastCounts (c : Core) (grp : Nat) (v : Vec) : Nat :=
  match bits (mget 0 grp c.groups) 5 3 with
  | 0 => (mget 0 grp c.reach).toNat
  | 3 => nonZero v
  | _ => 1

/-- The core behind a port of a router: north, east, south, west, across the facing edges of the 2×2 dies too (00 R6; log
34); none outside the partition. -/
def Place.neighbour (pl : Place) (d k port : Nat) : Option (Nat × Nat) :=
  let pd := pl.physDie d
  let pk := pl.physCore k
  match port with
  | 0 => if pk ≥ 16 then pl.relCore pd (pk - 16) else if pd ≥ 2 then pl.relCore (pd - 2) (pk + 240) else none
  | 1 => if pk % 16 < 15 then pl.relCore pd (pk + 1) else if pd % 2 = 0 then pl.relCore (pd + 1) (pk - 15) else none
  | 2 => if pk < 240 then pl.relCore pd (pk + 16) else if pd < 2 then pl.relCore (pd + 2) (pk - 240) else none
  | 3 => if pk % 16 > 0 then pl.relCore pd (pk - 1) else if pd % 2 = 1 then pl.relCore (pd - 1) (pk + 15) else none
  | _ => none

/-- The core behind a port in the partition of a context. -/
def State.neighbour (s : State) (cx d k port : Nat) : Option (Nat × Nat) :=
  (s.placeOf cx).bind fun pl => pl.neighbour d k port

/-- The port by which a neighbour receives what leaves by a port. -/
def facing (port : Nat) : Nat := (port + 2) % 4

/-- Ports of a five-bit mask, the local one last (07 R154). -/
def ports (m : Nat) : List Nat := (List.range 5).filter fun p => m.testBit p

/-- The cores whose local port a group's tree reaches from some routers on, within n routers. -/
def State.groupReach (s : State) (cx grp : Nat) : Nat → List Nat → List (Nat × Nat) → List Nat
  | 0, out, _ => out
  | _ + 1, out, [] => out
  | n + 1, out, (d, k) :: rest =>
    let e := bits (mget 0 grp (s.core ⟨cx, d, k⟩).groups) 0 5
    let out := if e.testBit 4 then out ++ [coreKey ⟨cx, d, k⟩] else out
    s.groupReach cx grp n out (rest ++ (ports (e % 16)).filterMap fun p => s.neighbour cx d k p)

/-- The scope at which an mcast releases: for each copy the narrowest that holds the sender's core and the copy's, so the widest
of those (09 R190). -/
def State.mcastScope (s : State) (r : SlotRef) (grp : Nat) : Scope :=
  (s.groupReach r.ctx grp 1024 [] [(r.die, r.core)]).foldl
    (fun a k => wider a (scopeOf r.coreRef ⟨k / 2048, k / 512 % 4, k % 512⟩)) .core

/-- mcast (13 R286). -/
def bodyMcast (v a b : Spec) : Body := fun r t s =>
  let d := readX t a
  let grp := bits d 0 10
  if bits d 42 22 ≠ 0 ∨ bits d 10 20 ≠ 0 then .trap (rsvIn a d)
  else match s.sendEdge r t d with
  | none => .trap (frontierFault 2 t.loc t.time)
  | some e =>
    let tau := e.apply t.time
    let c := s.core r.coreRef
    let n := mcastCounts c grp (readV t v)
    if t.send.length ≥ Config.sendEntries then .wait (readX t b) (sendWait t d)
    else if s.countBlocked r.coreRef e.dst tau then .wait (readX t b) (s.countWait r.coreRef)
    else
      withRelease r t s (some (s.mcastScope r grp)) fun s =>
      if bits (mget 0 grp c.groups) 5 3 = 3 ∧ n = 0 then .ok s
      else .ok (s.enqueue r { dst := d, src := s.srcWord r t d, time := tau, payload := readV t v, loc := e.dst, weight := 1,
                              counted := true, poisoned := false } n (some grp))

/-! ## Receiving -/

/-- The mailbox a selector names (13 R287). -/
def selBox (r : SlotRef) (x : Word) : Nat := if x.getLsbD 2 then 16 + bits x 0 2 else 4 * r.slot + bits x 0 2

/-- The wait for a ready entry (10 R213): mailbox by slot or core, and class. -/
def boxWait (r : SlotRef) (x : Word) (n : Nat) : WaitInfo :=
  { cause := 1, addr := toW (bits x 0 2 * 2 ^ 30 + r.die * 2 ^ 11 + r.core * 2 ^ 3 + (if x.getLsbD 2 then 4 else r.slot)),
    i0 := n, i1 := 0 }

/-- Fault of a poisoned entry (10 R213, R220). -/
def entryTrap (s : State) (k : CoreRef) (b e : Nat) : Option Trap :=
  let g := mget {} e (s.box k b).tags
  if g.poisoned && (poisoned s (keysFrom (entryKey k b e) 128)).isSome then some { cls := 0x0C, cause := 1, addr := entryAddr b e, aux := 5 }
  else poisonTrap s (entryAddr b e).toNat (keysFrom (entryKey k b e) 128) (fun _ => true)

/-- recv; loads of the task in flight at the entry's lines come first (09 R192; 13 R287). -/
def bodyRecv (v a b : Spec) : Body := fun r t s =>
  let x := readX t a
  let k := r.coreRef
  let bx := selBox r x
  let box := s.box k bx
  if bx ≥ 16 ∧ box.mode ≠ 0 then .trap (illegal 5 a x)
  else if bits x 3 61 ≠ 0 then .trap (rsvIn a x)
  else match box.oldest with
  | none => .wait (readX t b) (boxWait r x 0)
  | some (e, g) =>
    match entryTrap s k bx e with
    | some tr => .trap tr
    | none =>
      if g.counted && s.countBlocked k g.loc g.time then .wait (readX t b) (s.countWait k)
      else
        let s := s.sampleLines r ((keysFrom (entryKey k bx e) 128).map lineOf)
        let payload := BitVec.ofNat 1024 (leNat (s.seeBytes r.quadRef (entryAddr bx e).toNat (keysFrom (entryKey k bx e) 128)))
        let sc := if isDev g.src then none
          else some (if dPkg g.src = s.pkg then scopeOf k (srcCore r.ctx g.src) else Scope.pod)
        let s := s.fly r (winFlight sc [.v v payload (BitVec.allOnes 32)])
        let s := s.modSlot r fun u => { u with mtime := g.time, msrc := g.src }
        let s := s.freeEntry k bx e
        if isDev g.src then .ok s else .ok (s.retireMsg (s.origin r t) k g false)

/-- mprobe (13 R287). -/
def bodyMprobe (d a b : Spec) : Body := fun r t s =>
  let x := readX t a
  let bx := selBox r x
  let box := s.box r.coreRef bx
  if bits x 4 60 ≠ 0 then .trap (rsvIn a x)
  else match box.oldest with
  | none =>
    if x.getLsbD 3 then .ok (s.fly r (.value [writeX t d 0])) else .wait (readX t b) (boxWait r x 0)
  | some (e, _) => .ok (s.fly r (.value [writeX t d (entryAddr bx e ||| toW (box.inSt 1).length)]))

/-- Entries present when the mode changes (06 R133). -/
def remode (k : CoreRef) (b : Nat) (mode : BitVec 2) (s : State) : State :=
  (s.box k b).tags.foldl (fun s e =>
    if mode = 2 ∧ e.2.st = 1 then
      (s.modBox k b fun x => { x with tags := mput e.1 { e.2 with st := 2 } x.tags }).markHeld k e.2 true
    else if mode ≠ 2 ∧ e.2.st = 2 then
      (s.modBox k b fun x => { x with tags := mput e.1 { e.2 with st := 1 } x.tags }).markHeld k e.2 false
    else s) s

/-- Held messages of the spill area that no longer wait for a settle mailbox come as ordinary spilled messages (06 R133,
R149; log 25). -/
def unholdSpill (k : CoreRef) (b : Nat) (s : State) : State :=
  let mine (x : Spill) : Bool := x.held && x.die == k.die && x.core == k.core && x.box == b
  let ms := (s.ctx k.ctx).spill.filter mine
  let s := ms.foldl (fun s x => s.markHeld k (x.msg.tag 2 x.seq) false) s
  s.modCtx k.ctx fun c => { c with spill := c.spill.map fun x => if mine x then { x with held := false } else x }

/-- hdlr (13 R288); where the counts that it marks anew find no room in the delta buffer and the unit is full, it waits (08 R174). -/
def bodyHdlr (a b : Spec) : Body := fun r t s0 =>
  let s := s0
  let x := readX t a
  let y := readX t b
  let mode := bits x 3 2
  let bx := 16 + bits x 0 2
  if !x.getLsbD 2 ∨ mode = 3 then .trap (illegal 3 a x)
  else if mode ≠ 0 ∧ (y = 0 ∨ y.getLsbD 0) then .trap (illegal 3 b y)
  else if bits x 5 59 ≠ 0 then .trap (rsvIn a x)
  else
    let k := r.coreRef
    let m := BitVec.ofNat 2 mode
    let s := remode k bx m (s.modBox k bx fun z => { z with mode := m, entry := y })
    let s' := if mode = 2 then s.settleFix k bx 8 else unholdSpill k bx s
    if s.tilthFull k.ctx k.die && decide ((s'.ctx k.ctx).inflight.length ≠ (s0.ctx k.ctx).inflight.length) then .wait 0 (s0.countWait k)
    else .ok s'

def execSend (c : Ctl) (d a b : Spec) : State → Host.Outcome State Fault Refusal :=
  issue (.send c d a b) c 4 false (fun t => [.v d, xReg t a, xReg t b]) noRegs (guardOn · c) (bodySend d a b)

def execMcast (c : Ctl) (d a b : Spec) : State → Host.Outcome State Fault Refusal :=
  issue (.mcast c d a b) c 4 false (fun t => [.v d, xReg t a, xReg t b]) noRegs (guardOn · c) (bodyMcast d a b)

def execRecv (c : Ctl) (d a b : Spec) : State → Host.Outcome State Fault Refusal :=
  issue (.recv c d a b) c 4 false (rXX a b) (fun _ => [.v d]) (guardOn · c) (bodyRecv d a b)

def execMprobe (c : Ctl) (d a b : Spec) : State → Host.Outcome State Fault Refusal :=
  issue (.mprobe c d a b) c 4 false (rXX a b) (rX d) (guardOn · c) (bodyMprobe d a b)

def execHdlr (c : Ctl) (a b : Spec) : State → Host.Outcome State Fault Refusal :=
  issue (.hdlr c a b) c 4 false (rXX a b) noRegs (guardOn · c) (bodyHdlr a b)

/-! ## Holds and frontiers -/

/-- The refusals of a location operand (13, before R289). -/
def State.locTrap (s : State) (cx : Nat) (a : Spec) (x : Word) : Option Trap :=
  if bits x 0 8 ≥ (s.ctx cx).nloc then some (illegal 3 a x)
  else if bits x 8 56 ≠ 0 then some (rsvIn a x)
  else none

/-- fhold (13 R289). -/
def bodyFhold (a b : Spec) : Body := fun r t s =>
  let x := readX t a
  let l := bits x 0 8
  let tau := readTime t b
  match s.locTrap r.ctx a x with
  | some tr => .trap tr
  | none =>
    if !s.reaches r.ctx t.loc t.time l tau then .trap (frontierFault 2 l tau)
    else if s.countBlocked r.coreRef l tau then .wait 0 (s.countWait r.coreRef)
    else .ok (s.count r.coreRef l tau false 1)

/-- fdrop: its batch goes at once, and the task's next instruction waits for the root (13 R289; 08 R175). -/
def bodyFdrop (a b : Spec) : Body := fun r t s =>
  let x := readX t a
  let l := bits x 0 8
  let tau := readTime t b
  match s.locTrap r.ctx a x with
  | some tr => .trap tr
  | none =>
    if !settled (s.slot r) then notYet r t s
    else if s.countBlocked r.coreRef l tau then .wait 0 (s.countWait r.coreRef)
    else
      let s := (s.count r.coreRef l tau false (-1)).flush r.coreRef (some (r, l, tau))
      .ok (s.modSlot r fun u => { u with fdrop := some (s.lastBatch, t.pc, t.rep) })

/-- fwait: decided by the die copy; an acquire at pkg (13 R290). -/
def bodyFwait (d a b : Spec) : Body := fun r t s =>
  let x := readX t a
  let l := bits x 0 8
  let tau := readTime t b
  match s.locTrap r.ctx a x with
  | some tr => .trap tr
  | none =>
    if tau < s.frontierAt r.ctx r.die l then .ok (s.acquire r .pkg)
    else .wait (readX t d)
      { cause := 9, addr := toW l, i0 := bits tau 0 32, i1 := bits tau 32 32, hi := tau.extractLsb' 64 64 }

/-- fread (13 R291). -/
def bodyFread (d a : Spec) : Body := fun r t s =>
  let x := readX t a
  match s.locTrap r.ctx a x with
  | some tr => .trap tr
  | none =>
    let f := s.frontierAt r.ctx r.die (bits x 0 8)
    .ok (s.fly r (.value (writePair t d (f.extractLsb' 64 64) (f.extractLsb' 0 64))))

/-- The registers of a location and a time pair. -/
def rLocTime (a b : Spec) (t : Slot) : List Reg := [xReg t a, xReg t b, xReg t (b + 1)]

def execFhold (c : Ctl) (a b : Spec) : State → Host.Outcome State Fault Refusal :=
  issue (.fhold c a b) c 4 false (rLocTime a b) noRegs (guardOn · c) (bodyFhold a b)

def execFdrop (c : Ctl) (a b : Spec) : State → Host.Outcome State Fault Refusal :=
  issue (.fdrop c a b) c 4 false (rLocTime a b) noRegs (guardOn · c) (bodyFdrop a b)

def execFwait (c : Ctl) (d a b : Spec) : State → Host.Outcome State Fault Refusal :=
  issue (.fwait c d a b) c 4 false (fun t => xReg t d :: rLocTime a b t) noRegs (guardOn · c) (bodyFwait d a b)

def execFread (c : Ctl) (d a : Spec) : State → Host.Outcome State Fault Refusal :=
  issue (.fread c d a) c 4 false (rX a) (rPair d) (guardOn · c) (bodyFread d a)

end Sys2Proof.Machine
end

