-- ==== Sys2Proof/Machine/Task.lean ====
section
/-! DEFINITION. Tasks: binding, ending, kill and cancellation, completion of cards, the completions of host queues (01 R14
to R22, R34; 02 R51, R56; 12 R267; 21 R377). -/

namespace Sys2Proof.Machine

open Sys2Proof

/-! ## Host completions -/

/-- A UCIe message (21 R377). -/
def State.ucieSend (s : State) (code : Nat) : State := { s with ucie := s.ucie ++ [BitVec.ofNat 16 code] }

/-- Depth of a host queue (21 R375). -/
def HostQ.depth (q : HostQ) : Nat := 2 ^ bits q.cfg 0 4
/-- Is the completion ring full? -/
def HostQ.cfull (q : HostQ) : Bool := decide ((q.ctail - q.chead).toNat ≥ q.depth)

/-- Write a completion at the tail of its ring (21 R377). -/
def State.hostWrite (s : State) (n : Nat) (c : HComp) : State :=
  let q := mget {} n s.hostqs
  let a := pkey .hbm 0 (bits q.cmp 0 52 + 16 * (q.ctail.toNat % q.depth))
  let bs := leBytes 8 c.card.toNat ++ leBytes 4 c.idx.toNat ++ leBytes 1 c.st ++ leBytes 1 c.cause ++ leBytes 2 0
  let s := s.store (bs.zipIdx.map fun b => (a + b.2, b.1))
  let s := { s with hostqs := mput n { q with ctail := q.ctail + 1 } s.hostqs }
  if q.cfg.getLsbD 29 then s.ucieSend n else s

/-- A completion: written, or kept behind those that wait while the ring is full (21 R377). -/
def State.hostComplete (s : State) (n : Nat) (c : HComp) : State :=
  let q := mget {} n s.hostqs
  if q.waiting = [] ∧ !q.cfull then s.hostWrite n c
  else { s with hostqs := mput n { q with waiting := q.waiting ++ [c] } s.hostqs }

/-- Write the waiting completions that now find room, in order. -/
def State.hostRetry (s : State) (n : Nat) : Nat → State
  | 0 => s
  | f + 1 =>
    let q := mget {} n s.hostqs
    match q.waiting with
    | [] => s
    | c :: rest =>
      if q.cfull then s
      else (({ s with hostqs := mput n { q with waiting := rest } s.hostqs } : State).hostWrite n c).hostRetry n f

/-! ## Cards -/

/-- Payload of a card's completion notice (02 R38). -/
def cardNotice (c : Card) : Vec := BitVec.ofNat 1024 (c.addr.toNat + c.count * 2 ^ 64 + c.time.toNat * 2 ^ 128)

/-- A card is complete: its notice or completion is sent where ntfy asks for it (02 R38; 21 R377). -/
def State.cardDone (s : State) (cx id : Nat) : State :=
  match mfind id (s.ctx cx).cards with
  | none => s
  | some c =>
    let s := s.modCtx cx fun x => { x with cards := mdel id x.cards }
    if !c.flags.getLsbD 8 then s else
    match c.poster, c.hq with
    | some p, _ => s.postNotice p.coreRef (bits c.flags 6 2) c.time (cardNotice c)
    | none, some h => s.hostComplete h.1 { card := c.addr, idx := BitVec.ofNat 32 h.2, st := 1, cause := 0 }
    | none, none => s

/-- One task or stage of a card has ended. -/
def State.cardLess (s : State) (cx : Nat) (id : Option Nat) : State :=
  match id with
  | none => s
  | some id =>
    match mfind id (s.ctx cx).cards with
    | none => s
    | some c =>
      let s := s.modCtx cx fun x => { x with cards := mput id { c with live := c.live - 1 } x.cards }
      if c.live ≤ 1 then s.cardDone cx id else s

/-! ## Groups -/

/-- A bit of a 64-bit mask set. -/
def setM (x : BitVec 64) (i : Nat) : BitVec 64 := x ||| (1#64 <<< i)

/-- A group record changed. -/
def State.modGroup (s : State) (cx d g : Nat) (f : GroupRec → GroupRec) : State :=
  s.modDie cx d fun x => match mfind g x.groups with
    | some y => { x with groups := mput g (f y) x.groups }
    | none => x

/-- Is a record open (07 R161)? -/
def GroupRec.isOpen (y : GroupRec) : Bool := bits y.status 0 2 == 0

/-- A record that is closed, with what its test gave written, and whose siblings have all ended is freed (07 R161; 05 R385). -/
def State.freeGroup (s : State) (cx d g : Nat) : State :=
  s.modDie cx d fun x => match mfind g x.groups with
    | some y =>
      if !y.isOpen && !y.settled && ((List.range y.gsize).all fun i => y.ended.getLsbD i) then { x with groups := mdel g x.groups } else x
    | none => x

/-- A sibling has ended: one that has not posted counts as cancelled, a killed one always (07 R162; 10 R218; 12 R267). -/
def State.siblingEnds (s : State) (cx d g i : Nat) (killed : Bool) : State :=
  (s.modGroup cx d g fun y =>
    let y := if y.isOpen && (killed || !y.posted.getLsbD i) then { y with cancelled := setM y.cancelled i } else y
    { y with ended := setM y.ended i }).freeGroup cx d g

/-! ## Ending -/

/-- Is a stage's input ring marked closed and empty (02 R56; 06 R139)? -/
def State.stageDrained (s : State) (r : SlotRef) (st : Stage) : Bool :=
  match s.agentByte r.ctx st.ring.toNat .read with
  | .keys (k :: _) => decide (s.loadLE (k + 32) 1 % 2 = 1) && decide (s.loadLE (k + 16) 8 = s.loadLE k 8)
  | _ => false

/-- The pipeline whose stage n the end of a slot's stage task closes: the stage is open, its input ring closed and empty (02 R56). -/
def State.closing (s : State) (r : SlotRef) (t : Slot) (n : Nat) : Option Pipe :=
  (s.quad r.quadRef).pipe.bind fun p => match p.stages[n]? with
    | none => none
    | some st => if some p.card != t.cardId || st.closed || !s.stageDrained r st then none else some p

/-- Location and time of the count that the end of a slot's task retires, if it retires one (12 R267): a handler's is that of a message
that carries one, a stage's that of the pipeline where it closes. -/
def State.endCount (s : State) (r : SlotRef) (t : Slot) : Option (Nat × Time) :=
  match t.handler, t.stage with
  | some _, _ => if t.hmsg.counted then some (t.hmsg.loc, t.hmsg.time) else none
  | none, some n => (s.closing r t n).map fun p => (p.loc, p.time)
  | none, none => some (t.loc, t.time)

/-- A stage of a quad's pipeline closes (02 R56). -/
def State.closeStage (s : State) (q : QuadRef) (p : Pipe) (n : Nat) : State :=
  let p' := { p with stages := lmod n (fun x => { x with closed := true }) p.stages }
  s.modQuad q fun y => { y with pipe := if p'.stages.all Stage.closed then none else some p' }

/-- The count of an ending task is retired (12 R267). -/
def State.retireTask (s : State) (o : Origin) (r : SlotRef) (t : Slot) : State :=
  let k := r.coreRef
  match t.handler, t.stage with
  | some _, _ => s.retireMsg o k t.hmsg false
  | none, some n =>
    match s.closing r t n with
    | none => s
    | some p => ((s.closeStage r.quadRef p n).countBy o k p.loc p.time false (-1)).cardLess r.ctx (some p.card)
  | none, none => (s.countBy o k t.loc t.time false (-1)).cardLess r.ctx t.cardId

/-- A task ends: by end with a release, or killed or cancelled without one (01 R17; 12 R267). The slot keeps its
generation and its send buffer. A killed stage task closes its stage as an ending one does (log 106). -/
def State.finish (s : State) (r : SlotRef) (killed : Bool) : State :=
  let k := r.coreRef
  let t := s.slot r
  let s := if killed then s else s.release r .pkg
  let s := match t.handler with
    | some h => s.freeEntry k h.1 h.2
    | none => s
  let s := match t.grp with
    | some g => s.siblingEnds r.ctx r.die g.1 g.2 killed
    | none => s
  let s := s.retireTask (s.origin r (if killed then t else { t with pc := t.pc - 4 })) r t
  let s := s.emptySlotBoxes r 2
  let s := match t.packet with
    | some p => s.offer (s.physDie r.ctx r.die) p
    | none => s
  s.setSlot r { emptySlot r.slot with gen := t.gen, prevCtx := r.ctx, send := t.send, sent := t.sent }

/-- The j-th entry that a shipment reserves taken out of a ring. -/
def dropReserved (ship : Nat) : Nat → List RingEnt → List RingEnt
  | _, [] => []
  | j, e :: l =>
    if e = .reserved ship then (match j with
      | 0 => l
      | j + 1 => e :: dropReserved ship j l)
    else e :: dropReserved ship j l

/-- Drop a swapped-out task from whatever holds it: the save area, the ring of its quad, a page it waits for (01 R16). Its save area
is discarded, but the messages of its send buffer are never dropped: its home core sends them on, as after an end (01 R36; 06 R135;
log 90). -/
def State.dropSwapped (s : State) (cx a : Nat) (w : Swapped) : State :=
  let s := s.modCtx cx fun c => { c with swapped := mdel a c.swapped }
  let s := if w.slot.send = [] then s else s.modCore ⟨cx, w.die, w.core⟩ fun c => { c with osend := c.osend ++ w.slot.send }
  let s := s.modQuad ⟨cx, w.die, w.quad⟩ fun y =>
    { y with ring := y.ring.filter fun e => e != .swapped a, requeue := y.requeue.filter fun b => b != a }
  { s with pdies := s.pdies.map fun d =>
      (d.1, { d.2 with transit := d.2.transit.map fun t =>
        (t.1, { t.2 with waiters := t.2.waiters.filter fun w => w != .task cx a }) }) }

/-- A swapped-out task ends as killed or cancelled: its count retires at the die's tilth unit, a handler's being that of its
message, whose mailbox entry is freed; a stage task's is its stage's, where that closes (01 R17, R22; 02 R56; 05 R123; 08 R386; log
106). -/
def State.killSwapped (s : State) (cx a : Nat) (w : Swapped) : State :=
  let t := w.slot
  let s := s.dropSwapped cx a w
  let s := match t.grp with
    | some g => s.siblingEnds cx w.die g.1 g.2 true
    | none => s
  match t.handler, t.stage with
  | some h, _ =>
    let k : CoreRef := ⟨cx, w.die, w.core⟩
    let s := if t.hmsg.counted then (s.dieCount cx w.die t.hmsg.loc t.hmsg.time (-(t.hmsg.weight : Int))).2 else s
    s.freeEntry k h.1 h.2
  | none, some n =>
    let r := w.slotRef cx
    match s.closing r t n with
    | none => s
    | some p => (((s.closeStage r.quadRef p n).dieCount cx w.die p.loc p.time (-1)).2).cardLess cx (some p.card)
  | none, none => ((s.dieCount cx w.die t.loc t.time (-1)).2).cardLess cx t.cardId

/-- A sibling that no slot has taken yet ends as cancelled: its count retires at the die's tilth unit (07 R163; 08 R386). -/
def State.endUnbound (s : State) (cx d : Nat) (e : RingEnt) : State :=
  match e with
  | .sibling card _ g _ i _ _ _ loc time _ =>
    (((s.dieCount cx d loc time (-1)).2).siblingEnds cx d g i true).cardLess cx card
  | _ => s

/-- Is a ring entry the sibling of a group record? -/
def RingEnt.isSibling (e : RingEnt) (d g i : Nat) : Bool :=
  match e with
  | .sibling _ _ gr gd sb _ _ _ _ _ _ => gr == g && gd == d && sb == i
  | _ => false

/-- A group sibling is cancelled (07 R163; 15 R331): a running one ends at its next boundary; a frozen, swapped-out or
unbound one ends at once. One whose group's counts the root has not taken yet ends when it would enter the ring, so that its
decrement follows its increment (08 R386). -/
def State.cancelSibling (s : State) (cx d g i : Nat) : State :=
  let isIt (e : RingEnt) : Bool := e.isSibling d g i
  let s := s.modGroup cx d g fun y => { y with cancelled := setM y.cancelled i }
  match s.slots.find? fun x => let r := slotOfKey x.1; r.ctx == cx && r.die == d && x.2.st != .empty && x.2.grp == some (g, i) with
  | some x =>
    let r := slotOfKey x.1
    if x.2.st = .frozen then s.finish r true else s.modSlot r fun t => { t with cancelled := true }
  | none =>
    match (s.ctx cx).swapped.find? fun x => x.2.die == d && x.2.slot.grp == some (g, i) with
    | some x => s.killSwapped cx x.1 x.2
    | none =>
      match (s.ctx cx).ships.find? fun x => x.2.die == d && x.2.ents.any isIt with
      | some x =>
        match x.2.ents.findIdx? isIt, x.2.ents.find? isIt with
        | some j, some e =>
          let s := s.modCtx cx fun c => { c with ships := mput x.1 { x.2 with ents := x.2.ents.eraseIdx j } c.ships }
          let s := s.modQuad ⟨cx, d, x.2.from_⟩ fun y => { y with ring := dropReserved x.1 j y.ring }
          s.endUnbound cx d e
        | _, _ => s
      | none =>
      match (s.shapeOf cx).quadsOn d |>.find? fun q => (s.quad ⟨cx, d, q⟩).ring.any isIt with
      | none => s
      | some q =>
        match (s.quad ⟨cx, d, q⟩).ring.find? isIt with
        | some e => (s.modQuad ⟨cx, d, q⟩ fun y => { y with ring := y.ring.filter fun e => !isIt e }).endUnbound cx d e
        | none => s

/-- end (12 R267): waits until every busy bit has cleared, until its release can be made, for its own retirement's delta
entry. -/
def bodyEnd : Body := fun r t s =>
  if t.flights ≠ [] ∨ !s.mayRelease r .pkg then notYet r t s
  else if (s.endCount r t).any fun x => s.countBlocked r.coreRef x.1 x.2 then .wait 0 (s.countWait r.coreRef)
  else .ok (s.finish r false)

def execEndTask (c : Ctl) : State → Host.Outcome State Fault Refusal :=
  issue (.endTask c) c 4 true noRegs noRegs (guardOn · c) bodyEnd

/-! ## Binding -/

/-- The context defaults that the binder loads: those the last restore took over (04 R100; 21 R374). -/
def Ctx.defaults (x : Ctx) : List Word :=
  x.useDef.getD [Config.dround, Config.db8fmt, Config.dcheck, Config.dwlimit, Config.dseed]

/-- The slot that a binder sets up (01 R18): everything invalid but w0 and w1; zeroing begins where the slot's previous task was
of another context (log 73). -/
def State.bindSlot (s : State) (r : SlotRef) (pc : Word) (ws : List Word) (loc : Nat) (time : Time) (card : Word) : Slot :=
  let t := s.slot r
  let d := (s.ctx r.ctx).defaults
  { st := .running, gen := t.gen + 1, prevCtx := r.ctx, pc := pc,
    ring := ws.zipIdx.map fun w => (w.2, w.1), ringValid := BitVec.ofNat 64 (2 ^ ws.length - 1),
    rsp := toW (stackBase r.slot), gens := seedGens ((d.getD 4 0).setWidth 32),
    loc := loc, time := time, arg := ws.getD 0 0, rec_ := ws.getD 1 0, card := card,
    round := d.getD 0 0, b8fmt := d.getD 1 0, check := d.getD 2 0, wlimit := d.getD 3 0, seed := d.getD 4 0,
    ready := s.now + 2, zero := if t.prevCtx = r.ctx then none else some 0 }

/-- Place a bound task: the slot's mailboxes are emptied at the bind (06 R134). -/
def State.bindAt (s : State) (r : SlotRef) (t : Slot) : State := (s.emptySlotBoxes r 2).setSlot r t

/-- May a slot of a core take a task (02 R51; 06 R135; 10 R222, R226)? -/
def State.canBind (s : State) (r : SlotRef) : Bool :=
  let t := s.slot r
  r.ctx != 0 && s.enginesUp r.ctx && decide (r.slot < 4) && (s.shapeOf r.ctx).hasCore r.die r.core && t.st == .empty && t.send == [] &&
    !s.coreHalted r.coreRef

/-- The stage a core serves, if its quad runs a pipeline (02 R56). -/
def State.stageOf (s : State) (k : CoreRef) : Option (Pipe × Nat) :=
  (s.quad k.quadRef).pipe.bind fun p => (mfind (posOf k.core) p.cores).map fun n => (p, n)

/-- What the card of a task asks for at its bind: the core it is pinned to (02 R38). -/
def State.cardPin (s : State) (r : SlotRef) (card : Option Nat) : Option Nat :=
  (card.bind fun id => mfind id (s.ctx r.ctx).cards).bind fun c => if c.flags.getLsbD 0 then some r.core else none

/-- A task of a gated card acquires at pkg before its first instruction (01 R32; 02 R42). -/
def State.gateAcquire (s : State) (r : SlotRef) (card : Option Nat) : State :=
  match card.bind fun id => mfind id (s.ctx r.ctx).cards with
  | some c => if c.flags.getLsbD 2 then s.acquire r .pkg else s
  | none => s

/-- Bind a record of a card (01 R18, R32; 02 R42). -/
def State.bindRecord (s : State) (r : SlotRef) (card idx : Nat) : State :=
  match mfind card (s.ctx r.ctx).cards with
  | none => s
  | some c =>
    let w0 := c.argbase + toW (idx * c.recsize)
    let t := s.bindSlot r c.entry [w0, toW idx] c.loc c.time c.addr
    (s.bindAt r { t with cardId := some card, pin := s.cardPin r (some card) }).gateAcquire r (some card)

/-- Bind a sibling (01 R34). -/
def State.bindSibling (s : State) (r : SlotRef) (e : RingEnt) : State :=
  match e with
  | .sibling card _ g _ i dst pc args loc time addr =>
    let t := s.bindSlot r pc args loc time addr
    let t := applyWrite t (writeX t dst (toW i))
    (s.bindAt r { t with cardId := card, grp := some (g, i), pin := s.cardPin r card }).gateAcquire r card
  | _ => s

/-- Bind a handler task to an entry of a core mailbox (01 R22; 06 R133): the held mark goes, the bind acquires, a poisoned
payload faults at the bind (10 R220). -/
def State.bindHandler (s : State) (r : SlotRef) (b e : Nat) : State :=
  let k := r.coreRef
  let x := s.box k b
  let g := mget {} e x.tags
  let w0 := entryAddr b e
  let t := s.bindSlot r x.entry [w0, toW (b - 16)] g.loc g.time 0
  let t := { t with handler := some (b, e), hmsg := g, mtime := g.time, msrc := g.src }
  let s := s.modBox k b fun y => { y with tags := mput e { g with st := 3 } y.tags }
  let s := if g.st = 2 then s.markHeld k g false else s
  let s := s.bindAt r t
  let sc := if isDev g.src then none else
    some (if dPkg g.src = s.pkg then scopeOf k (srcCore r.ctx g.src) else Scope.pod)
  let s := s.acquireAt r sc
  match entryTrap s k b e with
  | some tr => s.takeFault r x.entry 0 tr
  | none => s

/-- Bind a stage task (02 R56). -/
def State.bindStage (s : State) (r : SlotRef) (p : Pipe) (n : Nat) : State :=
  match p.stages[n]? with
  | none => s
  | some st =>
    let t := s.bindSlot r st.entry [st.desc, toW n] p.loc p.time p.cardAddr
    let t := { t with cardId := some p.card, stage := some n, stageReg := toW (2 ^ 63 + n), pin := s.cardPin r (some p.card) }
    (s.bindAt r t).gateAcquire r (some p.card)

/-- The matrix commands of a task are known by the slot and generation in which it runs now. -/
def State.moveCmds (s : State) (old : SlotRef) (g : BitVec 8) (new : SlotRef) (g' : BitVec 8) : State :=
  let one (c : ArrCmd) : ArrCmd := if c.who = old ∧ c.gen = g then { c with who := new, gen := g' } else c
  { s with quads := s.quads.map fun q =>
    if q.1 / 512 = old.ctx ∧ (q.2.arr.queue ≠ [] ∨ q.2.arr.run ≠ []) then
      (q.1, { q.2 with arr := { q.2.arr with
        queue := q.2.arr.queue.map one, run := q.2.arr.run.map fun x => { x with cmd := one x.cmd } } })
    else q }

/-- Bind a swapped-out task (01 R15; 04 R90, R101; 05 R122): its registers, its used register stack at the new slot's base,
its task-local store, with their poison (10 R220). -/
def State.bindSwapped (s : State) (r : SlotRef) (a : Nat) : State :=
  match mfind a (s.ctx r.ctx).swapped with
  | none => s
  | some w =>
    let old := s.slot r
    let base := stackBase r.slot
    let used := w.slot.rsp.toNat - stackBase w.num
    let t := { w.slot with
      st := .running, gen := old.gen + 1, prevCtx := r.ctx, rsp := toW (base + used), ready := s.now + 2, zero := none,
      wait := none, starve := 0, wake := true, idw := none, ctxw := none }
    let s := s.modCtx r.ctx fun c => { c with swapped := mdel a c.swapped }
    let s := (s.bindAt r t).moveCmds (w.slotRef r.ctx) w.slot.gen r t.gen
    let s := s.wipe (localKey r 0) 0x8000
    let s := s.store (w.store.map fun b => (localKey r b.1, b.2))
    let s := s.wipe (sharedKey r.coreRef (base - 0x10000)) used
    let s := s.store (w.stack.map fun b => (sharedKey r.coreRef (base - 0x10000 + b.1), b.2))
    let bad := (w.hurt.map fun o => localKey r o) ++ w.stackHurt.map fun o => sharedKey r.coreRef (base - 0x10000 + o)
    { s with poison := bad.foldl (fun p g => sadd g p) s.poison }

end Sys2Proof.Machine
end

