-- ==== Sys2Proof/Machine/Storage.lean ====
section
/-! DEFINITION. Page walks, storage-backed pages, free frames, silt requests and their instructions (05 R119 to R123; 06
R145 to R147; 15 R333, R334). -/

namespace Sys2Proof.Machine

open Sys2Proof

/-! ## Free frames -/

/-- Log2 of the depth of a free-frame queue: a field of 0 stands for 16, as in jqcfg (06 R147; log 22). -/
def FreeQ.ldep (q : FreeQ) : Nat := if bits q.base 0 4 = 0 then 16 else bits q.base 0 4

/-- Key of entry i of a free-frame queue. -/
def FreeQ.at_ (q : FreeQ) (i : W32) : Nat := pkey .hbm 0 ((q.base >>> 4 <<< 4).toNat + 8 * (i.toNat % 2 ^ q.ldep))

/-- Free-frame queue of a leaf level (06 R147): 64 KiB, 2 MiB, 1 GiB. -/
def frameQ (level : Nat) : Nat :=
  match level with
  | 3 => 0
  | 2 => 1
  | _ => 2

/-- Frames in a queue. -/
def FreeQ.count (q : FreeQ) : Nat := (q.tail - q.head).toNat

/-- Is a free-frame entry legal for a page size (06 R147)? -/
def frameOk (level : Nat) (e : Word) : Bool :=
  decide (bits e 0 16 = 0) && decide (bits e 52 12 < 2) && decide (bits e 16 36 * 65536 % 2 ^ levelBits level = 0)

/-- A free-frame queue changed. -/
def State.modFree (s : State) (pd k : Nat) (f : FreeQ → FreeQ) : State :=
  s.modPdie pd fun d => { d with free := mput k (f (mget {} k d.free)) d.free }

/-- The notice of a queue below its low mark, once until the count has risen above the mark (06 R147). It is looked at after every change
of the count or of the mark, so a mark written above the count gives a notice at once (log 99). -/
def State.lowNotice (s : State) (pd k : Nat) : State :=
  let q := mget {} k (s.pdie pd).free
  if q.count < q.low.toNat ∧ q.armed then (s.modFree pd k fun q => { q with armed := false }).notice pd 0 1 (toW (k + 4 * pd))
  else if q.count > q.low.toNat then s.modFree pd k fun q => { q with armed := true }
  else s

/-- Who an access is made for: context, slot, identity and pc for reports; the piece of work by number. -/
structure Who where
  ctx : Nat
  r : SlotRef
  who : Word
  pc : Word
  iword : W32
  work : Nat := 0
deriving DecidableEq, Repr

/-- Number of a piece of work of an agent of some kind, 1 silt request, 2 copy channel, 3 group record, 4 matrix command, 5 snapshot,
6 host queue: what of one instruction waits for a page waits by itself (05 R385). -/
def workOf (kind n : Nat) : Nat := 8 * n + kind

/-- An agent's failure as a trap; fault.illegal names no register (10 R213). -/
def agentTrap (cls cause level a : Nat) (x : Access) : Trap :=
  { cls := cls, cause := cause, addr := toW a, aux := if cls = 1 then 0 else BitVec.ofNat 32 (level + 4 * Access.code x) }

/-- Take a frame from the head; illegal entries are skipped with a report that names the access (06 R147; 10 R213). -/
def State.takeFrame (s : State) (pd level : Nat) (w : Who) (va : Nat) (x : Access) : Nat → Option Word × State
  | 0 => (none, s)
  | n + 1 =>
    let k := frameQ level
    let q := mget {} k (s.pdie pd).free
    if q.head = q.tail then (none, s)
    else
      let e := toW (s.loadLE (q.at_ q.head) 8)
      let s := (s.modFree pd k fun q => { q with head := q.head + 1 }).lowNotice pd k
      if frameOk level e then (some e, s)
      else
        let s := s.report pd w.ctx w.r w.who w.pc w.iword
          { cls := 0x05, cause := 3, addr := toW va, aux := BitVec.ofNat 32 (level + 4 * Access.code x) }
        s.takeFrame pd level w va x n

/-- A frame returns to the head of its queue: the head goes back by one and the entry stands there (05 R123; 06 R147). -/
def State.giveBack (s : State) (pd level : Nat) (e : Word) : State :=
  let k := frameQ level
  let q := mget {} k (s.pdie pd).free
  ((s.storeLE (q.at_ (q.head - 1)) 8 e.toNat).modFree pd k fun q => { q with head := q.head - 1 }).lowNotice pd k

/-! ## Copies of ranges -/

/-- Bytes copied from one range of keys to another, sparsely; poison of the destination goes. -/
def State.copyRange (s : State) (src dst n : Nat) : State :=
  let cells := (s.mem.filter fun c => decide (src ≤ c.1) && decide (c.1 < src + n)).map fun c => (c.1 - src + dst, c.2)
  { s with
    mem := memPairs (memClear s.mem dst n) cells,
    poison := s.poison.filter fun g => !(decide (dst ≤ g) && decide (g < dst + n)) }

/-! ## Swapping out -/

/-- The save area of a context, as its last restore took it over (21 R374). -/
def Ctx.saveArea (x : Ctx) : Word := (x.useDef.bind fun l => l[5]?).getD x.saveba

/-- A free save-area address of a context (log 27). -/
def State.saveAddr (s : State) (cx : Nat) : Nat :=
  let x := s.ctx cx
  let b := x.saveArea.toNat
  ((List.range 65536).find? fun n => (mfind (b + 65536 * n) x.swapped).isNone).getD 0 * 65536 + b

/-- Cells of a range, by offset. -/
def State.cellsOf (s : State) (k n : Nat) : Map Byte :=
  (s.mem.filter fun c => decide (k ≤ c.1) && decide (c.1 < k + n)).map fun c => (c.1 - k, c.2)

/-- The poisoned granules of a range, by offset. -/
def State.hurtOf (s : State) (k n : Nat) : List Nat := (s.poison.filter fun g => decide (k ≤ g) && decide (g < k + n)).map fun g => g - k

/-- Swap the task of a slot out, with every busy bit landed (01 R134; 04 R90, R97; 05 R122; 08 R171): the save-area address and
the package. Then what happens before is performed, so that what follows elsewhere follows it (09 R188, R207); poison goes with its memory (10
R220). -/
def State.swapOut (s : State) (r : SlotRef) (va : Nat) (x : Access) : Nat × State :=
  let s := (s.landSlot r).perform r .pkg
  let s := s.flush r.coreRef none
  let s := s.emptySlotBoxes r 3
  let t := s.slot r
  let a := s.saveAddr r.ctx
  let base := stackBase r.slot - 0x10000
  let w : Swapped := {
    slot := { t with walk := none, wait := none }, num := r.slot, va := va, acc := x, die := r.die, quad := quadOf r.core,
    core := r.core, store := s.cellsOf (localKey r 0) 0x8000,
    stack := s.cellsOf (sharedKey r.coreRef base) (t.rsp.toNat - stackBase r.slot), held := false,
    hurt := s.hurtOf (localKey r 0) 0x8000, stackHurt := s.hurtOf (sharedKey r.coreRef base) (t.rsp.toNat - stackBase r.slot),
    pslot := s.pSlot r, pd := s.physDie r.ctx r.die }
  let s := s.modCtx r.ctx fun c => { c with swapped := mput a w c.swapped }
  (a, s.setSlot r { emptySlot r.slot with gen := t.gen, prevCtx := r.ctx })

/-- The fault.storage packet of a swapped-out task, with the first snapshot of the work it holds; it then waits for the swcmd of the
die that got the packet (05 R123; 10 R212 to R214; 21 R374). The debug window does not reach such a task, so it shows no more of
them. -/
def State.storagePacket (s : State) (cx a cause level status drive : Nat) : State :=
  match mfind a (s.ctx cx).swapped with
  | none => s
  | some w =>
    let r : SlotRef := ⟨cx, w.die, w.core, w.num⟩
    let aux := level + 4 * Access.code w.acc + (if cause = 2 then status % 65536 * 16 + drive * 2 ^ 20 else 0)
    let who := (s.setSlot r w.slot).cId r
    let pd := if s.resident cx then s.physDie cx w.die else w.pd
    let snap := (s.snapsOf r pd w.slot.held).getD 0 (0, 0)
    let p := mkPacket 0x05 cause 3 w.slot.wdogPend snap.1 false cx w.pslot who w.slot.pc w.slot.iword (BitVec.ofNat 32 aux)
      (toW w.va) (toW a) snap.2
    let s := s.modCtx cx fun c => { c with swapped := mput a { w with held := true, pd := pd } c.swapped }
    s.offer pd p

/-- Requeue a swapped-out task at its home quad (01 R16; 05 R122). -/
def State.requeue (s : State) (cx a : Nat) : State :=
  match mfind a (s.ctx cx).swapped with
  | none => s
  | some w =>
    let s := s.modCtx cx fun c => { c with swapped := mput a { w with held := false } c.swapped }
    s.modQuad ⟨cx, w.die, w.quad⟩ fun q => { q with requeue := q.requeue ++ [a] }

/-! ## Transit -/

/-- Is a drive in service? -/
def State.driveUp (s : State) (d : Nat) : Bool := s.drives.getLsbD d

/-- First address of the page of a level. -/
def pageBase (level va : Nat) : Nat := va / 2 ^ levelBits level * 2 ^ levelBits level

/-- How the service of a storage-backed leaf begins: in transit, or a fault.storage cause (05 R122, R123). -/
inductive Service where
  | opened (tent : Nat)
  | failed (cause : Nat)
deriving DecidableEq, Repr

/-- The commands in an engine's request queue, each until it completes (06 R146; log 108). -/
def PDie.siltQ (d : PDie) (e : Nat) : List SReq := d.silt.filter fun q => decide (q.drive % 4 = e)

/-- A command enters its engine's request queue, and the queue's tail goes on. -/
def PDie.enterSilt (d : PDie) (q : SReq) : PDie :=
  let e := q.drive % 4
  { d with silt := d.silt ++ [q], siltIn := mput e (mget 0 e d.siltIn + 1) d.siltIn }

/-- Fault service enters the queue, or, where it is full, the walker holds the request (06 R146). -/
def PDie.serveSilt (d : PDie) (q : SReq) : PDie :=
  if (d.siltQ (q.drive % 4)).length ≥ Config.siltQueue then { d with waiting := d.waiting ++ [q] } else d.enterSilt q

/-- A command leaves; the walker's oldest request that finds room enters (06 R146). -/
def PDie.leaveSilt (d : PDie) (id : Nat) : PDie :=
  let d := { d with silt := d.silt.filter fun x => x.id != id }
  match d.waiting.find? fun q => decide ((d.siltQ (q.drive % 4)).length < Config.siltQueue) with
  | some q => { d with waiting := d.waiting.filter fun x => x.id != q.id }.enterSilt q
  | none => d

/-- Service a kind-3 leaf on a die: take a frame, mark the entry in transit, queue the read (05 R122). While every transit entry
of the die is open the page counts as one without a frame (log 75). -/
def State.servePage (s : State) (pd : Nat) (w : Who) (va level home : Nat) (e : Word) (x : Access) : Service × State :=
  match s.takeFrame pd level w va x 65536 with
  | (none, s) => (.failed 1, s)
  | (some f, s) =>
    let drive := bits e 8 3
    if !s.driveUp drive then (.failed 4, s.giveBack pd level f)
    else
      match mfree (s.pdie pd).transit 1024 0 with
      | none => (.failed 1, s.giveBack pd level f)
      | some tent =>
        let mark := toW (4 + bits e 3 3 * 8 + pd * 256 + tent * 1024)
        let tr : Transit := { ctx := w.ctx, va := pageBase level va, level := level, home := home, orig := e, mark := mark,
                              frame := f, waiters := [] }
        let q : SReq := { id := s.ids, fault := some tent, op := 0, buf := 0, lba := bits e 12 40,
                          nblk := 2 ^ levelBits level / 4096, drive := drive, cw := 0, cwVa := 0, ctx := w.ctx, poster := w.r,
                          who := w.who, pc := w.pc, iword := w.iword, cid := none, done := 0, pages := 0, status := 0, devCause := 0,
                          writeFail := false }
        let s := s.storeLE home 8 mark.toNat
        let s := ({ s with ids := s.ids + 1 } : State).modPdie pd fun d =>
          { d with transit := mput tent tr d.transit }.serveSilt q
        (.opened tent, s)

/-- The open transit entry that a kind-4 leaf names, if it is of this page (05 R122). -/
def State.transitOf (s : State) (cx va level : Nat) (e : Word) : Option (Nat × Nat) :=
  let td := bits e 8 2
  let te := bits e 10 10
  match mfind te (s.pdie td).transit with
  | some x => if x.ctx = cx ∧ x.va = pageBase level va then some (td, te) else none
  | none => none

/-- Add a waiter to a transit entry. -/
def State.joinTransit (s : State) (pd te : Nat) (w : Waiter) : State :=
  s.modPdie pd fun d => match mfind te d.transit with
    | some x => { d with transit := mput te { x with waiters := x.waiters ++ [w] } d.transit }
    | none => d

/-! ## Walks of tasks -/

/-- Put a translation into a TLB, the oldest entry making room (05 R120). -/
def addTlb (cap : Nat) (e : TlbEnt) (l : List TlbEnt) : List TlbEnt :=
  let l := l.filter fun x => !(x.va == e.va && x.bits == e.bits)
  (if l.length ≥ cap then l.drop 1 else l) ++ [e]

/-- Fill the TLBs of a quad and its die. -/
def State.fillTlb (s : State) (q : QuadRef) (e : TlbEnt) : State :=
  let s := s.modQuad q fun x => { x with tlb := addTlb Config.tlbQuad e x.tlb }
  s.modPdie (s.physDie q.ctx q.die) fun d =>
    let l := d.tlb2.filter fun x => !(x.1 == q.ctx && x.2.va == e.va && x.2.bits == e.bits)
    { d with tlb2 := (if l.length ≥ Config.tlbDie then l.drop 1 else l) ++ [(q.ctx, e)] }

/-- Drop a cached translation from the TLB it stands in (05 R120). -/
def State.dropCached (s : State) (q : QuadRef) (e : TlbEnt) : State :=
  if (s.quad q).tlb.contains e then s.modQuad q fun x => { x with tlb := x.tlb.erase e }
  else s.modPdie (s.physDie q.ctx q.die) fun d => { d with tlb2 := d.tlb2.erase (q.ctx, e) }

/-- A first write through a cached clean entry: dirty is set at the home by a compare-and-swap with the entry as cached, dirty
clear or set; where the home differs in another way the cached copy goes and the write walks on (05 R120). -/
def State.setDirty (s : State) (r : SlotRef) (c : TlbEnt) : State :=
  let now := toW (s.loadLE c.home 8)
  if now ||| 64#64 = c.pte ||| 64#64 then
    let s := s.storeLE c.home 8 (c.pte ||| 64#64).toNat
    (s.modSlot r fun u => { u with walk := none }).fillTlb r.quadRef { c with pte := c.pte ||| 64#64 }
  else s.dropCached r.quadRef c

/-- May a slot's task be swapped out: no result is on its way that cannot land now, and no store of it is held back by the links, so
that what follows elsewhere follows them (04 R97; 05 R112; 09 R207)? -/
def State.mayLeave (s : State) (r : SlotRef) : Bool := resting (s.slot r) && s.mayRelease r .pkg

/-- A walk for a slot completes (05 R119, R120, R122, R123): the translation is filled, dirty set for a write; or the
task faults; or it is swapped out and waits for its page, once its results have landed and its stores can go home (04 R97; 05
R112). -/
def State.walkDone (s : State) (r : SlotRef) (va : Nat) (x : Access) (len : Nat) : State :=
  let t := s.slot r
  let fail (c l : Nat) : State :=
    (s.modSlot r fun u => { u with walk := none }).takeFault r t.pc len (transFault c va l x)
  match s.tlbOf r.quadRef va with
  | some c =>
    if permits c.pte x && writes x && !c.pte.getLsbD 6 then s.setDirty r c else s.modSlot r fun u => { u with walk := none }
  | none =>
  match s.walkVa r.ctx va with
  | .bad c l => fail c l
  | .leaf l home e =>
    let pd := s.physDie r.ctx r.die
    let w : Who := ⟨r.ctx, r, s.cId r, t.pc, t.iword, 0⟩
    let join (td te : Nat) : State :=
      let p := s.swapOut r va x
      p.2.joinTransit td te (.task r.ctx p.1)
    if pteKind e = 4 then
      match s.transitOf r.ctx va l e with
      | none => fail 4 l
      | some (td, te) => if !s.mayLeave r then s else join td te
    else if !permits e x then fail 2 l
    else if pteKind e = 2 then
      let e := if writes x then e ||| 64#64 else e
      let s := if writes x then s.storeLE home 8 e.toNat else s
      (s.modSlot r fun u => { u with walk := none }).fillTlb r.quadRef ⟨va / 2 ^ levelBits l, levelBits l, e, home⟩
    else if !s.mayLeave r then s
    else match s.servePage pd w va l home e x with
    | (.opened te, s) =>
      let p := s.swapOut r va x
      p.2.joinTransit pd te (.task r.ctx p.1)
    | (.failed c, s) =>
      let p := s.swapOut r va x
      p.2.storagePacket r.ctx p.1 c l 0 (bits e 8 3)

/-! ## Pages for agents -/

/-- How an agent's access ends: bytes; a failure; or not yet, its page being on its way (05 R385). -/
inductive AgentRes where
  | keys (ks : List Nat)
  | bad (cls cause level : Nat)
  | pending
deriving DecidableEq, Repr

/-- An agent's access to n bytes within a page, on a physical die; a storage-backed page is serviced first (05 R385). Who waits is
known by the die, the instruction that handed the work over and the number of the work. -/
def State.agentGet (s : State) (pd : Nat) (w : Who) (a n : Nat) (x : Access) : AgentRes × State :=
  match s.agentRun w.ctx a n x with
  | .keys ks => (.keys ks, (if writes x then s.agentDirty w.ctx a else s).bridgeOut w.ctx w.r.die (ks.map lineOf))
  | .bad c k l => (.bad c k l, s)
  | .page l home e =>
    let pg := pageBase l a
    let me : Waiter := .agent pd w.r w.pc w.work
    match (s.pdie pd).agentBad.find? fun b => b.ctx == w.ctx && b.va == pg && b.r == w.r && b.pc == w.pc && b.work == w.work with
    | some b =>
      (.bad 5 2 (l + b.status % 65536 * 16 + b.drive * 2 ^ 20),
        s.modPdie pd fun d => { d with agentBad := d.agentBad.filter fun y => y != b })
    | none =>
      if pteKind e = 3 then
        match s.servePage pd w a l home e x with
        | (.opened te, s) => (.pending, s.joinTransit pd te me)
        | (.failed c, s) => (.bad 5 c l, s)
      else match s.transitOf w.ctx a l e with
      | none => (.bad 4 4 l, s)
      | some (td, te) =>
        let has := ((mfind te (s.pdie td).transit).map fun t => t.waiters.contains me).getD false
        (.pending, if has then s else s.joinTransit td te me)

/-! ## Silt requests -/

/-- The instruction that a request works for. -/
def SReq.for_ (q : SReq) : Who := ⟨q.ctx, q.poster, q.who, q.pc, q.iword, workOf 1 q.id⟩

/-- Engine of a drive on a die (06 R146). -/
def siltEngine (pd drive : Nat) : Nat := 4 * pd + drive % 4

/-- Write a request's completion word and set it full (05 R125; 15 R333). A word that cannot be written is reported; none where its
page is on its way. -/
def State.siltWord (s : State) (pd : Nat) (q : SReq) : Option State × State :=
  let v := q.status % 65536 + q.devCause * 65536
  match s.agentGet pd q.for_ q.cw 4 .write with
  | (.keys ks, s) =>
    let k := ks.getD 0 0
    (some ((s.store (ks.zip (leBytes 4 v))).setFullIf (s.carriesFull q.poster q.cwVa.toNat k) k), s)
  | (.bad c k l, s) => (some (s.report pd q.ctx q.poster q.who q.pc q.iword (agentTrap c k l q.cwVa.toNat .write)), s)
  | (.pending, s) => (none, s)

/-- Complete a program request: the word is written, or the request waits for the word's page. -/
def State.siltEnd (s : State) (pd : Nat) (q : SReq) : State :=
  match s.siltWord pd q with
  | (some s, _) => s.modPdie pd fun d => d.leaveSilt q.id
  | (none, s) => s.modPdie pd fun d =>
      { d with silt := d.silt.map fun x => if x.id = q.id then { q with writeFail := true, back := false, cid := none } else x }

/-- A request changed. -/
def State.modSilt (s : State) (pd id : Nat) (f : SReq → SReq) : State :=
  s.modPdie pd fun d => { d with silt := d.silt.map fun x => if x.id = id then f x else x }

/-- A page of a prefetch is settled with a status (15 R333); the last one completes the request. The word tells of the first failure
(log 92). -/
def State.prefetchPage (s : State) (pd id status devCause : Nat) : State :=
  match (s.pdie pd).silt.find? fun q => q.id == id with
  | none => s
  | some q =>
    let q := { q with pages := q.pages + 1, done := q.done - 1 }
    let q := if q.status = 0 ∧ q.devCause = 0 then { q with status := status, devCause := devCause } else q
    if q.pages ≥ q.nblk then s.siltEnd pd q else s.modSilt pd id fun _ => q

/-- A prefetch walks for a page again, whose entry the driver changed while it was in transit (07 R157). -/
def State.prefetchAgain (s : State) (pd id va : Nat) : State :=
  s.modSilt pd id fun q => { q with done := q.done - 1, buf := va }

/-- The report of a storage fault on a page that a prefetch names (10 R213, R215; 15 R333; 18 R355). -/
def State.prefetchReport (s : State) (pd : Nat) (q : SReq) (cause va level status drive : Nat) : State :=
  s.report pd q.ctx q.poster q.who q.pc q.iword
    { cls := 0x05, cause := cause, addr := toW va, aux := BitVec.ofNat 32 (level + status % 65536 * 16 + drive * 2 ^ 20) }

/-- A drive error on a page that prefetches wait for and no task does: one report names the page (10 R215; 18 R355). -/
def State.failedPrefetch (s : State) (x : Transit) (status drive : Nat) : State :=
  let isTask (w : Waiter) : Bool := match w with
    | .task _ _ => true
    | _ => false
  if x.waiters.any isTask then s else
  match x.waiters.findSome? (fun w => match w with
    | .request id => (List.range 4).findSome? fun d => ((s.pdie d).silt.find? fun q => q.id == id).map fun q => (d, q)
    | _ => none) with
  | some (d, q) => s.prefetchReport d q 2 x.va x.level status drive
  | none => s

/-- A transit entry closes: its waiters are requeued, or held by a drive error (05 R122, R123). Where the driver has changed the entry
meanwhile, its value stands and every waiter's access walks again (07 R157). -/
def State.closeTransit (s : State) (pd te status : Nat) : State :=
  match mfind te (s.pdie pd).transit with
  | none => s
  | some x =>
    let s := s.modPdie pd fun d => { d with transit := mdel te d.transit }
    let same := s.loadLE x.home 8 == x.mark.toNat
    let s :=
      if status = 0 then
        if same then
          let e := bits x.frame 16 36 * 65536 + bits x.frame 52 2 * 2 ^ 52 + bits x.orig 3 3 * 8 + 2
          s.storeLE x.home 8 e
        else s.giveBack pd x.level x.frame
      else
        let s := if same then s.storeLE x.home 8 x.orig.toNat else s
        s.giveBack pd x.level x.frame
    let drive := bits x.orig 8 3
    let s := if status = 0 then s else s.failedPrefetch x status drive
    x.waiters.foldl (fun s w => match w with
      | .task cx a => if status = 0 then s.requeue cx a else s.storagePacket cx a 2 x.level status drive
      | .request id => (List.range 4).foldl (fun s d =>
          if status = 0 ∧ !same then s.prefetchAgain d id x.va else s.prefetchPage d id status 0) s
      | .agent d r pc work => if status = 0 then s else
          s.modPdie d fun y => { y with agentBad := y.agentBad ++ [⟨x.ctx, x.va, r, pc, work, status, drive⟩] }) s

/-- Block i of a drive's namespace. -/
def blockKey (drive lba : Nat) : Nat := pkey .drive drive (lba * 4096)

/-- The data of one command of a fault's read moves into the frame. -/
def State.faultData (s : State) (x : Transit) (q : SReq) (n : Nat) : State :=
  let f := bits x.frame 16 36 * 65536
  let k := if bits x.frame 52 2 = 0 then pkey .hbm 0 f else pkey .cxl 0 f
  s.copyRange (blockKey q.drive (q.lba + q.done)) (k + q.done * 4096) (n * 4096)

/-- How the data of a request move: all of it; up to a failure with its device cause; up to a block whose page is on its way. -/
inductive DataEnd where
  | moved (s : State)
  | failed (cause : Nat) (s : State)
  | pending (block : Nat) (s : State)

/-- The data of a program request move, n blocks from block i on (05 R385; 15 R333). Failures: device cause 1 or 2. -/
def State.progData (s : State) (pd : Nat) (q : SReq) : Nat → Nat → DataEnd
  | 0, _ => .moved s
  | n + 1, i =>
    let x : Access := if q.op = 0 then .write else .read
    match s.agentGet pd q.for_ (q.buf + 4096 * i) 4096 x with
    | (.pending, s) => .pending i s
    | (.bad _ _ _, s) => .failed 1 s
    | (.keys ks, s) =>
      let k := ks.getD 0 0
      if !(keyKind k == 2 || keyKind k == 3 || keyKind k == 4) then .failed 1 s
      else if q.op = 0 then (s.copyRange (blockKey q.drive (q.lba + i)) k 4096).progData pd q n (i + 1)
      else if s.poison.any fun g => decide (k ≤ g) && decide (g < k + 4096) then .failed 2 s
      else (s.copyRange k (blockKey q.drive (q.lba + i)) 4096).progData pd q n (i + 1)

/-- A program request that its drive has completed goes on with its data from the first block not moved: it ends, or waits for the
page of a block. -/
def State.siltData (s : State) (pd : Nat) (q : SReq) : State :=
  match s.progData pd q (q.nblk - q.done) q.done with
  | .moved s => s.siltEnd pd q
  | .failed c s => s.siltEnd pd { q with devCause := c }
  | .pending i s => s.modSilt pd q.id fun q => { q with done := i, back := true }

/-- Take the page of a prefetch in hand at which q.buf stands, and move on to the next page of the mapping; a page that cannot be made
resident is settled with its cause (15 R333; log 92). -/
def State.prefetchStart (s : State) (pd : Nat) (q : SReq) : State :=
  let next (l : Nat) (s : State) : State :=
    s.modSilt pd q.id fun y => { y with buf := pageBase l q.buf + 2 ^ levelBits l, done := y.done + 1 }
  let failed (l cause : Nat) (s : State) : State := (next l s).prefetchPage pd q.id 0 cause
  if region false q.buf ≠ .trans then failed 3 1 s else
  match s.walkVa q.ctx q.buf with
  | .bad _ l => failed (max l 1) 1 s
  | .leaf l home e =>
    let va := pageBase l q.buf
    if pteKind e = 2 then failed l 0 s
    else if pteKind e = 3 then
      match s.servePage pd q.for_ va l home e .read with
      | (.opened te, s) => (next l s).joinTransit pd te (.request q.id)
      | (.failed c, s) => failed l (if c = 1 then 4 else 3) (s.prefetchReport pd q c va l 0 0)
    else match s.transitOf q.ctx va l e with
    | some (td, te) => (next l s).joinTransit td te (.request q.id)
    | none => failed l 1 s

/-- The next request that an engine submits: fault service first, then program requests in arrival order (06 R146). A
prefetch is one whose op is 3. -/
def PDie.nextSilt (d : PDie) (e : Nat) : Option SReq :=
  let ready := d.silt.filter fun q => decide (q.drive % 4 = e) && q.cid.isNone && !q.writeFail && !(q.op == 3 && q.done > 0)
  match ready.find? fun q => q.fault.isSome with
  | some q => some q
  | none => ready.head?

/-- A free NVMe command identifier of a die. -/
def PDie.freeCid (d : PDie) : Nat := ((List.range 65536).find? fun c => !d.silt.any fun q => q.cid == some c).getD 0

/-! ## NVMe -/

/-- Blocks of the command that a request issues next: of a fault's page at most 256 (05 R119; 15 R333). -/
def SReq.blocks (q : SReq) : Nat := if q.fault.isSome then min 256 (q.nblk - q.done) else q.nblk

/-- A submission entry (06 R145; log 76): Read 0x02, Write 0x01, Flush 0x00, identifier, namespace 1, data pointer, first block,
blocks less one. -/
def SReq.command (q : SReq) (cid : Nat) : BitVec 512 :=
  let flush := q.fault.isNone && q.op == 2
  let op := if flush then 0 else if q.fault.isNone && q.op == 1 then 1 else 2
  let rest := if flush then 0 else
    (Config.dataPointer q.id q.done).toNat * 2 ^ 192 + (q.lba + q.done) % 2 ^ 64 * 2 ^ 320 + (q.blocks - 1) % 65536 * 2 ^ 384
  BitVec.ofNat 512 (op + cid % 65536 * 2 ^ 16 + 2 ^ 32 + rest)

/-- A queue pair changed, by engine and drive. -/
def State.modPair (s : State) (pd e drive : Nat) (f : QPair → QPair) : State :=
  s.modPdie pd fun d => { d with pairs := mmod {} (8 * e + drive) f d.pairs }

/-- A request's command goes to its drive's queue pair (06 R145). -/
def State.submit (s : State) (pd e : Nat) (q : SReq) : State :=
  let cid := (s.pdie pd).freeCid
  let s := s.modPair pd e q.drive fun p =>
    { p with sqTail := (p.sqTail + 1) % Config.siltQueue, sq := mput p.sqTail (q.command cid) p.sq }
  s.modSilt pd q.id fun q => { q with cid := some cid }

/-- The drive's completion entry: submission head, queue number 4k + e + 1, identifier, phase, status (06 R145; log 76). -/
def State.completed (s : State) (pd e drive cid status : Nat) : State :=
  s.modPair pd e drive fun p =>
    let w := p.sqTail + (4 * pd + e + 1) * 2 ^ 16 + cid % 65536 * 2 ^ 32 + (1 - p.cqHead / Config.siltQueue) * 2 ^ 48 +
      status % 2 ^ 15 * 2 ^ 49
    { p with
      cqHead := (p.cqHead + 1) % (2 * Config.siltQueue)
      cq := mput (p.cqHead % Config.siltQueue) (BitVec.ofNat 128 (w * 2 ^ 64)) p.cq }

/-- The access that a request which waits for a page comes back to: its completion word, else its data. -/
def SReq.access (q : SReq) : Option (Nat × Nat × Access) :=
  if q.writeFail then some (q.cw, 4, .write)
  else if q.back then some (q.buf + 4096 * q.done, 1, if q.op = 0 then .write else .read)
  else none

/-- A request that waits for a page looks at it again: has it come, or failed for good; else its service goes on, begun anew where the
page is storage-backed again (05 R385). -/
def State.pageSettled (s : State) (pd : Nat) (q : SReq) : Bool × State :=
  match q.access with
  | none => (false, s)
  | some x => match s.agentGet pd q.for_ x.1 x.2.1 x.2.2 with
    | (.pending, s) => (false, s)
    | _ => (true, s)

/-- A silt engine acts (06 R145, R146; 15 R333): it goes on with a request whose page has come, else submits its next one. -/
def State.siltSubmit (s : State) (pd e : Nat) : State :=
  let mine := (s.pdie pd).silt.filter fun q => decide (q.drive % 4 = e)
  let s := mine.foldl (fun s q => (s.pageSettled pd q).2) s
  match mine.find? fun q => (s.pageSettled pd q).1 with
  | some q => if q.writeFail then s.siltEnd pd q else s.siltData pd q
  | none =>
  match (s.pdie pd).nextSilt e with
  | none => s
  | some q =>
    if q.op = 3 then s.prefetchStart pd q
    else if q.fault.isNone ∧ !s.driveUp q.drive then s.siltEnd pd { q with devCause := 3 }
    else s.submit pd e q

/-- A drive completes a command with a status (05 R122, R123; 15 R333): the data moves, the request goes on or ends. -/
def State.siltComplete (s : State) (pd cid status : Nat) : State :=
  match (s.pdie pd).silt.find? fun q => q.cid == some cid && !q.back with
  | none => s
  | some q =>
    let s := s.completed pd (q.drive % 4) q.drive cid status
    match q.fault with
    | some te =>
      match mfind te (s.pdie pd).transit with
      | none => s.modPdie pd fun d => d.leaveSilt q.id
      | some x =>
        let n := q.blocks
        if status ≠ 0 then
          (s.modPdie pd fun d => d.leaveSilt q.id).closeTransit pd te status
        else
          let s := s.faultData x q n
          if q.done + n ≥ q.nblk then
            (s.modPdie pd fun d => d.leaveSilt q.id).closeTransit pd te 0
          else s.modSilt pd q.id fun q => { q with done := q.done + n, cid := none }
    | none =>
      if status ≠ 0 ∨ q.op = 2 then s.siltEnd pd { q with status := status } else s.siltData pd q

/-! ## Instructions -/

/-- What reading a record gives: its bytes as a number, or how the instruction ends. -/
inductive Rec where
  | val (n : Nat)
  | stop (x : Res)

/-- A record read by the issuing task in its own view, like a load, by an instruction whose operand ra leads to it (05 R384; 08
R179; 10 R213, R220). Bytes that a bridge of the die carries reach their homes first, and the task's loads in flight of the same
lines land first (05 R112; 09 R184, R192). -/
def taskRec (r : SlotRef) (t : Slot) (s : State) (ra : Spec) (a n al : Nat) : Rec :=
  if acquiring t then .stop (notYet r t s) else
  match s.access r a n al .read with
  | .fault tr => .stop (.trap (blame ra (toW a) tr))
  | .walk va x => .stop (.stay ((s.setSlot r t).startWalk r va x 4))
  | .keys ks =>
    let x := s.quad r.quadRef
    let onBridge := ks.zipIdx.filter fun k =>
      (forwarded x k.1).isNone && (cached x (a + k.2) k.1).isNone && (s.bridged r.quadRef k.1).isSome
    if barred t r ks || loadsAhead t ks || s.farWaits t (ks.getD 0 0) then .stop (notYet r t s)
    else if onBridge ≠ [] then .stop (.stay ((s.setSlot r t).bridgeOut r.ctx r.die (onBridge.map fun k => lineOf k.1)))
    else match s.markWait r (addrsFrom a n) with
    | some w => .stop (.wait 0 w)
    | none => match poisonTrap s a ks (s.hot r) with
      | some tr => .stop (.trap tr)
      | none => .val (leNat (s.seeBytes r.quadRef a ks))
  | .aperture off =>
    match apTarget t off n with
    | none => .stop (.trap (misaligned 2 a n))
    | some tg => if apBusy t tg then .stop (notYet r t s) else .val (leNat (apRead t tg n))
  | .debug off =>
    match s.debugPoison (supDie r) a off n (fun _ => true) with
    | some tr => .stop (.trap tr)
    | none => .val (leNat (s.debugRead (supDie r) off n))
  | .ctl off => .val (leNat (s.ctlBytes (supDie r) off n))

/-- A field of a record: n bytes from byte lo on. -/
def fld (x lo n : Nat) : Nat := x / 2 ^ (8 * lo) % 2 ^ (8 * n)

/-- Traps of a record by its address (10 R213). -/
def recIllegal (a : Nat) (n : Spec) : Trap := illegal 3 n (toW a)
/-- A non-zero reserved field of a record. -/
def recRsv (a : Nat) (n : Spec) : Trap := rsvIn n (toW a)

/-- Is a request a prefetch: sread with pf (15 R333)? -/
def siltPf (op x : Nat) : Bool := op == 0 && fld x 21 1 % 2 == 1

/-- Is a storage request's field out of range (15 R333)? sflush uses only drive and cw, a prefetch neither lba nor drive. -/
def siltBad (op x : Nat) (r : SlotRef) : Bool :=
  let buf := fld x 0 8
  let cw := fld x 24 8
  let bufOk :=
    if siltPf op x then decide (region false buf = .trans)
    else match region false buf with
    | .vault _ => true
    | .anyVault _ _ _ => true
    | .trans => true
    | _ => false
  (!siltPf op x && decide (fld x 20 1 > 7)) || decide (cw % 4 ≠ 0) || (handOver r cw).isNone ||
    (decide (op ≠ 2) && (decide (buf % 4096 ≠ 0) || !bufOk || decide (fld x 16 4 = 0) || decide (fld x 16 4 > 256))) ||
    (decide (op = 1) && decide (fld x 21 1 % 2 = 1))

/-- sread, swrite and sflush by op 0, 1, 2 (15 R333); one that waits reads its record again (log 107). -/
def bodySilt (op : Nat) (a b : Spec) : Body := fun r t s =>
  let ad := addrM t a
  match taskRec r t s a ad 32 32 with
  | .stop x => x
  | .val x =>
    if siltBad op x r || !s.cwOk r (fld x 24 8) then .trap (recIllegal ad a)
    else if fld x 21 1 / 2 ≠ 0 ∨ fld x 22 2 ≠ 0 then .trap (recRsv ad a)
    else
      let pd := s.physDie r.ctx r.die
      let drive := fld x 20 1 % 8
      let q := (s.pdie pd).siltQ (drive % 4)
      if q.length ≥ Config.siltQueue then
        let n := mget 0 (drive % 4) (s.pdie pd).siltIn
        .wait (readX t b) { cause := 5, addr := toW (siltEngine pd drive), i0 := n - q.length, i1 := n }
      else
        let buf := fld x 0 8
        let cw := fld x 24 8
        let pf := siltPf op x
        let req : SReq := {
          id := s.ids, fault := none, op := if pf then 3 else op, buf := (handOver r buf).getD buf,
          lba := fld x 8 8, nblk := fld x 16 4, drive := drive, cw := (handOver r cw).getD cw, cwVa := toW cw, ctx := r.ctx,
          poster := r, who := s.cId r, pc := t.pc, iword := t.iword, cid := none, done := 0, pages := 0, status := 0, devCause := 0,
          writeFail := false }
        let s := ({ s with ids := s.ids + 1 } : State).modPdie pd fun d => d.enterSilt req
        .ok (s.modSlot r fun u => { u with held := u.held ++ [.silt req.id] })

def execSread (c : Ctl) (a b : Spec) : State → Host.Outcome State Fault Refusal :=
  issue (.sread c a b) c 4 false (rXX a b) noRegs (guardOn · c) (bodySilt 0 a b)

def execSwrite (c : Ctl) (a b : Spec) : State → Host.Outcome State Fault Refusal :=
  issue (.swrite c a b) c 4 false (rXX a b) noRegs (guardOn · c) (bodySilt 1 a b)

def execSflush (c : Ctl) (a b : Spec) : State → Host.Outcome State Fault Refusal :=
  issue (.sflush c a b) c 4 false (rXX a b) noRegs (guardOn · c) (bodySilt 2 a b)

/-- sstat (15 R334). -/
def execSstat (c : Ctl) (d a : Spec) : State → Host.Outcome State Fault Refusal :=
  issue (.sstat c d a) c 4 false (rX a) (rX d) (guardOn · c) (okBody fun r t s =>
    let drive := bits (readX t a) 0 3
    let n := ((s.pdie (s.physDie r.ctx r.die)).silt.filter fun q => q.drive == drive).length
    s.fly r (.value [writeX t d (toW ((if s.driveUp drive then 65536 else 0) + min n 511))]))

end Sys2Proof.Machine
end

