-- ==== Sys2Proof/Machine/Jobs.lean ====
section
/-! DEFINITION. Job cards with their copy schedules and layouts, as a task or the host posts them, and sample groups (01
R29, R34; 02 R37 to R40, R55; 07 R160 to R168; 08 R386; 15 R329 to R331). -/

namespace Sys2Proof.Machine

open Sys2Proof

/-! ## Records -/

/-- How a poster reads a record: address, size, alignment. -/
abbrev Reader := Nat → Nat → Nat → Rec

/-- A record's bytes as a number. -/
def Reader.get (rd : Reader) (a n al : Nat) : Except Res Nat :=
  match rd a n al with
  | .val x => .ok x
  | .stop x => .error x

/-- A refusal unless a condition holds. -/
def need (b : Bool) (x : Res) : Except Res Unit := if b then .ok () else .error x

/-- What a poster supplies: how it reads, how it hands addresses over, how a bad record is refused, its die and quad, the
core in whose view a stage ring's address is fixed (log 31), and the shape of the partition. -/
structure Poster where
  rd : Reader
  hand : Nat → Option Nat
  bad : Nat → Res
  die : Nat
  quad : Nat
  view : SlotRef
  shape : Shape

/-- A signed 16-bit field. -/
def s16 (n : Nat) : Int := (BitVec.ofNat 16 n).toInt

/-- A layout record (07 R166), with whether a reserved byte is set; none where a field is out of range. -/
def layoutOf (hand : Nat → Option Nat) (x : Nat) : Option (Layout × Bool) :=
  let sizes := (List.range 5).map fun i => fld x (8 + 2 * i) 2
  let ndim := fld x 51 1
  let ok := sizes.all (fun n => decide (n ≠ 0)) && decide (fld x 50 1 ≤ 3) && decide (1 ≤ ndim) && decide (ndim ≤ 5) &&
    (sizes.drop ndim).all (fun n => n == 1) && decide (fld x 52 1 ≤ 2)
  match ok, hand (fld x 0 8) with
  | true, some b =>
    let lay : Layout := {
      base := toW b, sizes := sizes, strides := (List.range 4).map fun i => (toW (fld x (18 + 8 * i) 8)).toInt,
      esz := fld x 50 1, ndim := ndim, clip := fld x 52 1, fill := toW (fld x 56 8) }
    some (lay, decide (fld x 53 3 ≠ 0))
  | _, _ => none

/-- Does a box leave its tensor (07 R168)? -/
def boxLeaves (l : Layout) (org : List Int) (ext : List Nat) : Bool :=
  (List.range 5).any fun i =>
    decide (org.getD i 0 < 0) || decide (org.getD i 0 + (ext.getD i 1 : Int) > (l.sizes.getD i 1 : Int))

/-- A schedule entry (07 R167), with whether a reserved byte is set. -/
def entryOf (p : Poster) (l : Layout) (x : Nat) : Option (CEnt × Bool) :=
  let org := (List.range 5).map fun i => s16 (fld x (8 + 2 * i) 2)
  let ext := (List.range 5).map fun i => fld x (18 + 2 * i) 2
  let mode := fld x 42 1
  let npat := fld x 43 1
  let blk := fld x 44 4
  let pat := (List.range 8).map fun i => fld x (48 + i) 1
  let dst := if mode = 1 then some (fld x 32 8) else p.hand (fld x 32 8)
  let ok := ext.all (fun n => decide (n ≠ 0)) && decide (fld x 40 1 ≤ 31) && decide (fld x 41 1 ≤ 3) && decide (mode ≤ 1) &&
    (if mode = 1 then decide (1 ≤ npat) && decide (npat ≤ 8) && decide (blk ≠ 0) && decide (blk % 128 = 0) &&
      (pat.take npat).all (p.shape.hasCore p.die) else npat == 0) &&
    !(l.clip == 1 && boxLeaves l org ext)
  match ok, dst with
  | true, some d =>
    let e : CEnt := {
      lay := l, org := org, ext := ext, stage := fld x 30 2, dst := toW d, chan := fld x 40 1 + 32 * fld x 41 1, mode := mode,
      npat := npat, blk := blk, pat := pat }
    some (e, decide (fld x 28 2 ≠ 0) || decide (fld x 56 8 ≠ 0))
  | _, _ => none

/-- Read n schedule entries from an address on, with their layouts (07 R168): the entries and the first address of a
record with a reserved byte set. -/
def readEntries (p : Poster) : Nat → Nat → Except Res (List CEnt × Option Nat)
  | 0, _ => .ok ([], none)
  | n + 1, a => do
    let x ← p.rd.get a 64 1
    let la := fld x 0 8
    need (decide (la % 64 = 0) && (p.hand la).isSome) (p.bad a)
    let y ← p.rd.get la 64 1
    match layoutOf p.hand y with
    | none => .error (p.bad la)
    | some (l, lr) =>
      match entryOf p l x with
      | none => .error (p.bad a)
      | some (e, er) =>
        let rest ← readEntries p n (a + 64)
        pure (e :: rest.1, if er then some a else if lr then some la else rest.2)

/-- Read a copy schedule (07 R167, R168). -/
def readSchedule (p : Poster) (a : Nat) : Except Res (List CEnt × Option Nat) :=
  if a = 0 then .ok ([], none) else do
    need (decide (a % 64 = 0)) (p.bad a)
    let h ← p.rd.get a 64 1
    let n := fld h 0 2
    need (decide (1 ≤ n) && decide (n ≤ 64)) (p.bad a)
    let r ← readEntries p n (a + 64)
    pure (r.1, if fld h 2 62 ≠ 0 then some a else r.2)

/-- A stage descriptor (02 R55): the stage and its core mask. -/
def stageOf32 (view : SlotRef) (a x : Nat) : Option (Stage × Nat) :=
  let m := fld x 20 1
  if fld x 18 2 ≥ fld x 16 2 ∨ m = 0 ∨ m > 15 ∨ fld x 21 11 ≠ 0 then none
  else
    let st : Stage := { desc := toW a, entry := toW (fld x 0 8), ring := toW ((handOver view (fld x 8 8)).getD (fld x 8 8)), high := fld x 16 2, low := fld x 18 2,
                        closed := false }
    some (st, m)

/-- Read the n stage descriptors of a pipeline card (02 R55). -/
def readStages (p : Poster) (size : Nat) : Nat → Nat → Except Res (List (Stage × Nat))
  | 0, _ => .ok []
  | n + 1, a => do
    let x ← p.rd.get a 32 1
    match stageOf32 p.view a x with
    | none => .error (p.bad a)
    | some s =>
      let rest ← readStages p size n (a + size)
      need (rest.all fun y => decide (y.2 &&& s.2 = 0)) (p.bad a)
      pure (s :: rest)

/-- A card as read and validated: the card, its 64 bytes, its schedule, the record with a reserved bit set. -/
structure Posted where
  card : Card
  raw : Nat
  ents : List CEnt
  rsv : Option Nat

/-- The card's own fields in range (02 R39). -/
def cardOk (x : Nat) : Bool :=
  let rs := fld x 16 4
  let fl := fld x 28 4
  let place := fl / 8 % 8
  decide (rs % 8 = 0) && decide (rs ≠ 0) && decide (rs ≤ 65536) && decide (1 ≤ fld x 50 1) && decide (fld x 50 1 ≤ 16) &&
    decide (1 ≤ fld x 48 2) && decide (fld x 48 2 ≤ fld x 52 2) && decide (fld x 52 2 ≤ 256) && decide (1 ≤ place) &&
    decide (place ≤ 3) && decide (fld x 26 2 ≤ 255) && decide (fld x 0 8 % 2 = 0) &&
    (fl / 2 % 2 == 0 || (place == 1 && decide (1 ≤ fld x 20 4) && decide (fld x 20 4 ≤ 8) && decide (rs ≥ 32)))

/-- The quads in a card's scope (02 R40). -/
def scopeQuads (p : Poster) (place : Nat) : List (Nat × Nat) :=
  match place with
  | 1 => [(p.die, p.quad)]
  | 2 => (p.shape.quadsOn p.die).map fun q => (p.die, q)
  | _ => p.shape.quads

/-- Is a job queue of a die assigned to a context (02 R41)? -/
def State.queueOk (s : State) (cx d q : Nat) : Bool :=
  let j := mget {} q (s.pdie (s.physDie cx d)).jobs
  decide (cx ≠ 0) && decide (j.ctx = cx) && decide (j.tickets ≠ 0)

/-- Read and validate a card (02 R39; 07 R168). -/
def State.readCard (s : State) (cx : Nat) (p : Poster) (a : Nat) : Except Res Posted := do
  let x ← p.rd.get a 64 64
  need (cardOk x && s.queueOk cx p.die (fld x 26 2)) (p.bad a)
  let fl := fld x 28 4
  let sch ← readSchedule p (fld x 56 8)
  let sts ← if fl / 2 % 2 = 1 then readStages p (fld x 16 4) (fld x 20 4) (fld x 8 8) else pure []
  let card : Card := {
    stages := sts.map Prod.fst, masks := sts.map Prod.snd, addr := toW a, entry := toW (fld x 0 8), argbase := toW (fld x 8 8),
    recsize := fld x 16 4, count := fld x 20 4, loc := fld x 24 2, queue := fld x 26 2, flags := BitVec.ofNat 32 fl,
    time := BitVec.ofNat 128 (fld x 32 16), cmin := fld x 48 2, cdiv := fld x 50 1, cmax := fld x 52 2, gloc := fld x 54 2,
    die := p.die, quads := scopeQuads p (fl / 8 % 8), poster := none, hq := none, batch := 0, next := 0, live := fld x 20 4,
    gateOpen := false }
  pure { card := card, raw := x, ents := sch.1, rsv := if fl / 512 ≠ 0 ∨ fld x 51 1 ≠ 0 then some a else sch.2 }

/-! ## Posting -/

/-- Is a job queue full (06 R142)? -/
def JobQ.full (j : JobQ) : Bool := decide (j.cards.length ≥ 2 ^ j.depth)

/-- Channels that a schedule names. -/
def chansOf (es : List CEnt) : List Nat := es.foldl (fun l e => if l.contains e.chan then l else l ++ [e.chan]) []

/-- Hand a schedule to the copy engines of the poster's die (08 R178): its number. -/
def State.addSched (s : State) (cx d : Nat) (es : List CEnt) (time : Time) (poster : SlotRef) (who pc : Word) (iword : W32) : Option Nat × State :=
  if es = [] then (none, s) else
  let sc : Sched := { entries := es, counters := [], done := [], time := time, poster := poster, who := who, pc := pc, iword := iword }
  let id := s.ids
  (some id, ({ s with ids := id + 1 } : State).modDie cx d fun x =>
    { x with
      scheds := mput id sc x.scheds,
      chans := (chansOf es).foldl (fun m c => mmod {} c (fun h => { h with queue := h.queue ++ [id] }) m) x.chans })

/-- Append a card to its queue, where its copy is kept as it was read: a card without records is complete at once (02 R39; 06
R128, R142). The dispatcher deals from the machine's own copy; the 64 bytes in the ring are not read again (log 98). -/
def State.addCard (s : State) (cx : Nat) (c : Card) (raw : Nat) : State :=
  let id := s.ids
  let s := ({ s with ids := id + 1 } : State).modCtx cx fun x => { x with cards := mput id c x.cards }
  if c.count = 0 then s.cardDone cx id else
  let pd := s.physDie cx c.die
  let j := mget {} c.queue (s.pdie pd).jobs
  (s.storeLE (pkey .hbm 0 (j.base.toNat + 64 * (j.posted % 2 ^ j.depth))) 64 raw).modPdie pd fun d =>
    { d with jobs := mput c.queue { j with cards := j.cards ++ [id], posted := j.posted + 1 } d.jobs }

/-- What a task supplies as a poster. -/
def taskPoster (r : SlotRef) (t : Slot) (s : State) (n : Spec) : Poster where
  rd := fun a k al => taskRec r t s n a k al
  hand := handOver r
  bad := fun a => .trap (recIllegal a n)
  die := r.die
  quad := quadOf r.core
  view := r
  shape := s.shapeOf r.ctx

/-- jpost (15 R329); one that waits for room reads its card again (log 107). -/
def bodyJpost (a b : Spec) : Body := fun r t s =>
  match s.readCard r.ctx (taskPoster r t s a) (addrM t a) with
  | .error x => x
  | .ok p =>
    let c := p.card
    match p.rsv with
    | some ra => .trap (recRsv ra a)
    | none =>
      let j := mget {} c.queue (s.pdie (s.physDie r.ctx r.die)).jobs
      if !s.reaches r.ctx t.loc t.time c.loc c.time then .trap (frontierFault 2 c.loc c.time)
      else if c.count ≠ 0 ∧ j.full then
        .wait (readX t b) { cause := 4, addr := toW c.queue, i0 := j.posted - j.cards.length, i1 := j.posted }
      else if c.count ≠ 0 ∧ s.countBlocked r.coreRef c.loc c.time then .wait (readX t b) (s.countWait r.coreRef)
      else
        let s := (s.count r.coreRef c.loc c.time false c.count).flush r.coreRef none
        let batch := if c.count = 0 then 0 else s.lastBatch
        let p' := s.addSched r.ctx r.die p.ents c.time r (s.cId r) t.pc t.iword
        let s := p'.2.addCard r.ctx { c with poster := some r, batch := batch } p.raw
        .ok (match p'.1 with
          | some id =>
            let freed := (p.ents.zipIdx.filter fun e => e.1.stage == 0).map Prod.snd
            if freed = [] then s else s.modSlot r fun u => { u with held := u.held ++ [.copy id freed] }
          | none => s)

def execJpost (c : Ctl) (a b : Spec) : State → Host.Outcome State Fault Refusal :=
  issue (.jpost c a b) c 4 false (rXX a b) noRegs (guardOn · c) (bodyJpost a b)

/-! ## Groups -/

/-- Is an FP32 word finite and not below zero? -/
def epsOk (x : Nat) : Bool :=
  match fp32.decode x with
  | .fin neg _ _ => !neg
  | .zero _ => true
  | _ => false

/-- A group descriptor out of range (07 R160). -/
def groupBad (r : SlotRef) (x : Nat) : Bool :=
  let g := fld x 20 1
  decide (fld x 0 8 % 4 ≠ 0) || (handOver r (fld x 0 8)).isNone || decide (fld x 8 8 ≥ 2 ^ 63) || !epsOk (fld x 16 4) ||
    decide (g < 2) || decide (g > 64) || decide (fld x 21 1 = 0) || decide (fld x 21 1 > g) || decide (fld x 22 42 ≠ 0)

/-- Free entries of a ready ring, those that siblings already forked will take left out (02 R49; 15 R330). -/
def Quad.ringFree (q : Quad) : Nat :=
  Config.readyRing - q.ring.length - (q.forks.map fun f => f.ents.length).sum

/-- The posted siblings of a record. -/
def popM (x : BitVec 64) : Nat := ((List.range 64).filter fun i => x.getLsbD i).length

/-- The lowest free number of a die's group unit, which the contexts on the die share (07 R160, R161). -/
def State.freeRecord (s : State) (cx d : Nat) : Option Nat :=
  let used := (s.diesOn (s.physDie cx d)).flatMap fun x => x.2.groups.map Prod.fst
  let n := freePlace used
  if n < Config.groupRecords then some n else none

/-- gfork (15 R330; 01 R34): the cycles of the deadline come after its own (07 R160). One that waits reads its record again (log 107). -/
def bodyGfork (d a b : Spec) : Body := fun r t s =>
  let ad := addrM t a
  if t.grp.isSome then .trap { cls := 0x01, cause := 5 } else
  match taskRec r t s a ad 64 64 with
  | .stop x => x
  | .val x =>
    if groupBad r x then .trap (groupFault 1 (toW ad) 0) else
    let g := fld x 20 1
    let wait : WaitInfo := { cause := 11, addr := toW ad, i0 := 0, i1 := g }
    match s.freeRecord r.ctx r.die with
    | none => .wait (readX t b) wait
    | some n =>
      if (s.quad r.quadRef).ringFree < g - 1 then .wait (readX t b) wait
      else if s.countBlocked r.coreRef t.loc t.time then .wait (readX t b) (s.countWait r.coreRef)
      else
        let s := (s.count r.coreRef t.loc t.time false (g - 1 : Nat)).flush r.coreRef none
        let y : GroupRec := {
          out := (handOver r (fld x 0 8)).getD 0, dline := fld x 8 8,
          left := if fld x 8 8 = 0 then 0 else fld x 8 8 + 1,
          eps := BitVec.ofNat 32 (fld x 16 4), gsize := g, quorum := fld x 21 1, desc := toW ad, posted := 0, cancelled := 0,
          included := 0, ended := 0, rewards := [], adv := [], status := 0, batch := s.lastBatch, loc := t.loc, time := t.time,
          who := s.cId r, pc := t.pc, iword := t.iword, pslot := r }
        let args := (List.range 8).map fun i => readX t (BitVec.ofNat 5 (8 + i))
        let ents := (List.range (g - 1)).map fun i =>
          RingEnt.sibling t.cardId r n r.die (i + 1) d (t.pc + 4) args t.loc t.time t.card
        let s := s.modDie r.ctx r.die fun z => { z with groups := mput n y z.groups }
        let s := s.modQuad r.quadRef fun q => { q with forks := q.forks ++ [{ batch := s.lastBatch, ents := ents }] }
        let s := match t.cardId with
          | some id => s.modCtx r.ctx fun cx => match mfind id cx.cards with
            | some c => { cx with cards := mput id { c with live := c.live + (g - 1) } cx.cards }
            | none => cx
          | none => s
        .ok ((s.modSlot r fun u => { u with grp := some (n, 0) }).fly r (.value [writeX t d 0]))

/-- The record of the task's group and its index, or the refusal of a task in none (15 R331). -/
def inGroup (f : Nat → Nat → GroupRec → Body) : Body := fun r t s =>
  match t.grp with
  | none => .trap { cls := 0x01, cause := 5 }
  | some (n, i) => match mfind n (s.die r.ctx r.die).groups with
    | none => .trap { cls := 0x01, cause := 5 }
    | some y => f n i y r t s

/-- grwd: after the record has closed it has no effect, a second post included (07 R162; 15 R331). -/
def bodyGrwd (a : Spec) : Body := inGroup fun n i y r t s =>
  if !y.isOpen then .ok s
  else if y.posted.getLsbD i then .trap (groupFault 2 (toW n) i) else
  withRelease r t s (some .die) fun s => .ok (s.modGroup r.ctx r.die n fun y =>
    { y with posted := setM y.posted i, rewards := mput i ((readX t a).setWidth 32) y.rewards })

/-- gjoin: waits until the record has closed and what its test gave is written (15 R331; 05 R385). -/
def bodyGjoin (d a : Spec) : Body := inGroup fun n i y r t s =>
  if y.isOpen || y.settled then .wait (readX t a) { cause := 11, addr := toW n, i0 := popM y.posted, i1 := y.gsize }
  else
    let adv : W32 := if bits y.status 0 2 = 2 then 0 else mget 0 i y.adv
    .ok ((s.fly r (.value [writeX t d (y.status ++ adv)])).acquire r .die)

/-- gcancel: after the record has closed it has no effect, whatever index it names (15 R331). -/
def bodyGcancel (a : Spec) : Body := inGroup fun n _ y r t s =>
  let i := bits (readX t a) 0 6
  if !y.isOpen then .ok s
  else if i ≥ y.gsize then .trap (groupFault 3 (toW n) i)
  else .ok (s.cancelSibling r.ctx r.die n i)

/-- The status that a record shows: open until what its test gave is written to out (07 R161; 09 R205). -/
def GroupRec.shown (y : GroupRec) : W32 := if y.settled then y.status &&& 32#32 else y.status

/-- gstat (15 R331). -/
def bodyGstat (d a : Spec) : Body := inGroup fun _ _ y r t s =>
  let x : Word := match bits (readX t a) 0 2 with
    | 0 => (y.shown).setWidth 64
    | 1 => y.posted
    | 2 => y.cancelled
    | _ => if y.settled then 0 else y.included
  .ok (s.fly r (.value [writeX t d x]))

def execGfork (c : Ctl) (d a b : Spec) : State → Host.Outcome State Fault Refusal :=
  issue (.gfork c d a b) c 4 false (fun t => rXX a b t ++ (List.range 8).map fun i => xReg t (BitVec.ofNat 5 (8 + i))) (rX d) (guardOn · c) (bodyGfork d a b)

def execGrwd (c : Ctl) (a : Spec) : State → Host.Outcome State Fault Refusal :=
  issue (.grwd c a) c 4 false (rX a) noRegs (guardOn · c) (bodyGrwd a)

def execGjoin (c : Ctl) (d a : Spec) : State → Host.Outcome State Fault Refusal :=
  issue (.gjoin c d a) c 4 false (rX a) (rX d) (guardOn · c) (bodyGjoin d a)

def execGcancel (c : Ctl) (a : Spec) : State → Host.Outcome State Fault Refusal :=
  issue (.gcancel c a) c 4 false (rX a) noRegs (guardOn · c) (bodyGcancel a)

def execGstat (c : Ctl) (d a : Spec) : State → Host.Outcome State Fault Refusal :=
  issue (.gstat c d a) c 4 false (rX a) (rX d) (guardOn · c) (bodyGstat d a)

end Sys2Proof.Machine
end

