-- ==== Sys2Proof/Machine/Copy.lean ====
section
/-! DEFINITION. Copy engines: releasing, moving and completing the entries of a schedule, and the instructions of major
0x2F (07 R166 to R168; 08 R178 to R180; 15 R332). -/

namespace Sys2Proof.Machine

open Sys2Proof

/-! ## Accesses of engines -/

/-- An agent's access byte by byte, for one that may cross a page (05 R385). -/
def State.agentEach (s : State) (pd : Nat) (w : Who) (a : Nat) (x : Access) : Nat → AgentRes × State
  | 0 => (.keys [], s)
  | n + 1 =>
    match s.agentGet pd w a 1 x with
    | (.keys k, s) =>
      match s.agentEach pd w (a + 1) x n with
      | (.keys ks, s) => (.keys (k ++ ks), s)
      | e => e
    | e => e

/-- Does a word carry a full-empty bit for an agent of a context (05 R125)? -/
def State.agentFull (s : State) (cx va k : Nat) : Bool :=
  match keyKind k with
  | 2 =>
    let u := keyUnit k
    mget false (s.physQuad cx (u % 128) * 256 + keyOff k / 65536) (s.pdie (s.physDie cx (u / 128 % 4))).femark
  | 3 => match s.walkVa cx va with
    | .leaf _ _ e => e.getLsbD 7 && decide (pteTier e = 0)
    | .bad _ _ => false
  | _ => false

/-- Copies of some memory lines in the read caches of a context's quads go. -/
def State.uncache (s : State) (cx : Nat) (ls : List Nat) : State :=
  { s with quads := s.quads.map fun q => if q.1 / 512 = cx ∧ q.2.rcache ≠ [] then
      (q.1, { q.2 with rcache := q.2.rcache.filter fun c => !ls.contains c.line }) else q }

/-- An engine's write: address, key and byte; every later load sees it (08 R179; 09 R200); words that carry a full-empty bit
become full (05 R125). -/
def State.engineStore (s : State) (cx : Nat) (ps : List (Nat × Nat × Byte)) : State :=
  let s := (s.store (ps.map fun p => (p.2.1, p.2.2))).uncache cx (ps.map fun p => lineOf p.2.1)
  ps.foldl (fun s p =>
    let k := p.2.1 / 4 * 4
    if s.agentFull cx p.1 k then s.fill k else s) s

/-! ## Elements of a box -/

/-- Coordinates of element j of a box, dimension 0 innermost (07 R167). -/
def boxPos : List Nat → Nat → List Nat
  | [], _ => []
  | n :: l, j => j % n :: boxPos l (j / n)

/-- Index of an element in its tensor by dimension; under wrap reduced modulo the extent (07 R168). -/
def CEnt.index (e : CEnt) (j : Nat) : List Int :=
  (boxPos e.ext j).zipIdx.map fun p =>
    let i := e.org.getD p.2 0 + (p.1 : Int)
    if e.lay.clip = 2 then i % (e.lay.sizes.getD p.2 1 : Int) else i

/-- Does the index lie in the tensor? -/
def Layout.has (l : Layout) (ix : List Int) : Bool :=
  ix.zipIdx.all fun p => decide (0 ≤ p.1) && decide (p.1 < (l.sizes.getD p.2 1 : Int))

/-- Address of an element of a tensor (07 R166). -/
def Layout.addr (l : Layout) (ix : List Int) : Nat :=
  let off := ix.zipIdx.foldl (fun (a : Int) p =>
    a + p.1 * (if p.2 = 0 then 2 ^ l.esz else l.strides.getD (p.2 - 1) 0)) 0
  (BitVec.ofInt 64 ((l.base.toNat : Int) + off)).toNat

/-- Address of byte o of a box's destination, on die d; address 2^56, which lies in no range, where a block-cyclic offset
leaves the core-shared region (07 R167). -/
def CEnt.dstAddr (e : CEnt) (d o : Nat) : Nat :=
  if e.mode = 0 then e.dst.toNat + o
  else
    let b := o / e.blk
    let off := e.dst.toNat + e.blk * (b / e.npat) + o % e.blk
    if off < 0x20000 then 0x200000000 + d * 2 ^ 25 + e.pat.getD (b % e.npat) 0 * 2 ^ 17 + off else 2 ^ 56

/-- The clipped box: the part of a box that lies in its tensor (07 R168). -/
def CEnt.clipped (e : CEnt) : List Int × List Nat :=
  let lo := (List.range 5).map fun i => max 0 (e.org.getD i 0)
  let hi := (List.range 5).map fun i => min (e.lay.sizes.getD i 1 : Int) (e.org.getD i 0 + (e.ext.getD i 1 : Int))
  (lo, (List.range 5).map fun i => (hi.getD i 0 - lo.getD i 0).toNat)

/-! ## Lines -/

/-- A line in the making: bytes to write, keys of destination bytes whose source is poisoned, the first poisoned granule
with its address, whether something was clipped. -/
structure LineAcc where
  s : State
  ps : List (Nat × Nat × Byte)
  bad : List Nat
  first : Option (Nat × Nat)
  clip : Bool

/-- How a line ends: to be written, waiting for a page, or failing at an address. -/
inductive LineRes where
  | made (l : LineAcc)
  | pending (s : State)
  | failed (s : State) (tr : Trap)

/-- Element j of a box (07 R168; 10 R220). -/
def copyElem (pd d : Nat) (w : Who) (priv : Bool) (e : CEnt) (j : Nat) (l : LineAcc) : LineRes :=
  let n := 2 ^ e.lay.esz
  let ix := e.index j
  let inside := e.lay.has ix
  if !inside && !priv then .made { l with clip := true } else
  let a := e.lay.addr ix
  let src : AgentRes × State := if inside then l.s.agentEach pd w a .read n else (.keys [], l.s)
  match src with
  | (.pending, s) => .pending s
  | (.bad c k v, s) => .failed s (agentTrap c k v a .read)
  | (.keys ks, s) =>
    let bs := if inside then ks.map fun k => memGet k s.mem else leBytes n e.lay.fill.toNat
    let da := e.dstAddr d (j * n)
    match s.agentEach pd w da .write n with
    | (.pending, s) => .pending s
    | (.bad c k v, s) => .failed s (agentTrap c k v da .write)
    | (.keys ds, s) =>
      let hurt := ks.zipIdx.filter fun k => smem (granuleOf k.1) s.poison
      .made { l with
        s := s
        ps := l.ps ++ (ds.zip bs).zipIdx.map fun p => (da + p.2, p.1.1, p.1.2)
        bad := l.bad ++ hurt.map fun k => ds.getD k.2 0
        first := match l.first with
          | some g => some g
          | none => hurt.head?.map fun k => (granuleOf k.1, a + k.2) }

/-- Elements j to j + n − 1 in order. -/
def copyElems (pd d : Nat) (w : Who) (priv : Bool) (e : CEnt) : Nat → Nat → LineAcc → LineRes
  | 0, _, l => .made l
  | n + 1, j, l =>
    match copyElem pd d w priv e j l with
    | .made l => copyElems pd d w priv e n (j + 1) l
    | x => x

/-! ## Channels -/

/-- A channel changed. -/
def State.modChan (s : State) (cx d ch : Nat) (f : Chan → Chan) : State :=
  s.modDie cx d fun x => { x with chans := mmod {} ch f x.chans }

/-- May the copy engines of a die work for a context: it runs, and no stopped halt group with eng holds them (10 R222,
R225, R226)? -/
def State.enginesRun (s : State) (cx d : Nat) : Bool :=
  match (s.ctx cx).resident, s.placeOf cx with
  | some p, some pl =>
    let pd := pl.physDie d
    s.partUp p && decide (d < pl.shape.dieCount) &&
      !((s.pdie pd).halts.any fun h => decide (h.2.st ≠ 0) && h.2.eng && (List.range 256).any fun k =>
          (h.2.mem.getD (k / 64) 0).getLsbD (k % 64) && (pl.relCore pd k).isSome)
  | _, _ => false

/-- The next entry of a channel in a schedule: the first that is not done (08 R178). -/
def Sched.next (sc : Sched) (ch : Nat) : Option (Nat × CEnt) :=
  (sc.entries.zipIdx.find? fun e => e.1.chan == ch && !sc.done.contains e.2).map fun e => (e.2, e.1)

/-- The schedule that a channel serves: the oldest that has not completed (08 R178). -/
def State.oldestSched (s : State) (cx d ch : Nat) : Option (Nat × Sched) :=
  let x := s.die cx d
  (mget {} ch x.chans).queue.head?.bind fun id => (mfind id x.scheds).map fun sc => (id, sc)

/-- Is a schedule the oldest on every channel that its entries name, so that schedules which share a channel run whole, in post
order (08 R178)? -/
def State.atHead (s : State) (cx d id : Nat) (sc : Sched) : Bool :=
  sc.entries.all fun e => (mget {} e.chan (s.die cx d).chans).queue.head? == some id

/-- Has a schedule begun on a channel of its die: an entry is complete or runs? -/
def Sched.begun (sc : Sched) (c : Chan) : Bool := sc.done != [] || c.run.isSome

/-- Does a channel of a physical die serve another context first: an entry of it runs there, or its oldest schedule there comes before
(00 R4; 08 R178)? One that has begun comes before one that has not, else the one posted first (log 110). -/
def State.chanTaken (s : State) (cx d ch id : Nat) (sc : Sched) : Bool :=
  let mine := sc.begun (mget {} ch (s.die cx d).chans)
  (s.diesOn (s.physDie cx d)).any fun x => x.1 != dieKey cx d &&
    let c := mget {} ch x.2.chans
    c.run.isSome || c.queue.head?.any fun n => match mfind n x.2.scheds with
      | some o => (o.begun c && !mine) || (o.begun c == mine && decide (n < id))
      | none => false

/-- Start the next released entry of a channel; a channel serves the contexts of its die one schedule after the other (08 R178). -/
def State.copyStart (s : State) (cx d ch : Nat) : State :=
  let c := mget {} ch (s.die cx d).chans
  if !s.enginesRun cx d || c.stopped || c.run.isSome then s else
  match s.oldestSched cx d ch with
  | none => s
  | some (id, sc) =>
    match sc.next ch with
    | none => s
    | some (i, e) =>
      if s.atHead cx d id sc ∧ !s.chanTaken cx d ch id sc ∧ e.stage ≤ mget 0 ch sc.counters then
        s.modChan cx d ch fun c => { c with run := some i, bytes := 0, mark := 0, poisonSeen := false, clipSeen := false }
      else s

/-- The copy snapshot of a running entry (10 R214). -/
def copySnap (ch i : Nat) (c : Chan) (cnt : Nat) : Nat × BitVec 128 :=
  (1, BitVec.ofNat 128 (ch % 32 + ch / 32 * 2 ^ 8 + i * 2 ^ 16 + c.bytes % 2 ^ 32 * 2 ^ 32 + c.mark.toNat * 2 ^ 64 + cnt * 2 ^ 96))

/-- The engine moves the next line of the running entry: its bytes reach their homes, poison is copied, behind the loads that have been performed, the watermark
advances; a failure stops the channel with a report (05 R385; 07 R168; 08 R179; 10 R220). -/
def State.copyLine (s : State) (cx d ch : Nat) : State :=
  let c := mget {} ch (s.die cx d).chans
  match s.oldestSched cx d ch, c.run with
  | some (_, sc), some i =>
    match sc.entries[i]? with
    | none => s
    | some e =>
      let n := 2 ^ e.lay.esz
      let stop := min e.boxBytes ((c.bytes / 128 + 1) * 128)
      if !s.enginesRun cx d || c.stopped || decide (c.bytes ≥ e.boxBytes) then s else
      let pd := s.physDie cx d
      let w : Who := ⟨cx, sc.poster, sc.who, sc.pc, sc.iword, workOf 2 ch⟩
      let snap := copySnap ch i c (mget 0 ch sc.counters)
      let start : LineAcc := { s := s, ps := [], bad := [], first := none, clip := false }
      match copyElems pd d w (s.ctx cx).useAttr[0] e ((stop - c.bytes) / n) (c.bytes / n) start with
      | .pending s => s
      | .failed s tr =>
        (s.modChan cx d ch fun c => { c with stopped := true }).report pd cx sc.poster sc.who sc.pc sc.iword { tr with tail := some snap }
      | .made l =>
        let s := if l.bad = [] then l.s else l.s.sampleEverywhere (l.bad.map lineOf)
        let s := s.engineStore cx l.ps
        let s := { s with poison := l.bad.foldl (fun p k => sadd (granuleOf k) p) s.poison }
        let s := s.modChan cx d ch fun c =>
          { c with
            bytes := stop, mark := BitVec.ofNat 32 stop, poisonSeen := c.poisonSeen || l.first.isSome, clipSeen := c.clipSeen || l.clip }
        let s := match l.first with
          | some g => if c.poisonSeen then s else
              s.report pd cx sc.poster sc.who sc.pc sc.iword { memFault g.1 g.2 with tail := some snap }
          | none => s
        if l.clip && !c.clipSeen then
          s.postNotice sc.poster.coreRef 3 sc.time (Config.clipPayload e.clipped.1 e.clipped.2)
        else s
  | _, _ => s

/-- A schedule without entries left leaves its channels (08 R178). -/
def State.dropSched (s : State) (cx d id : Nat) : State :=
  s.modDie cx d fun x =>
    { x with
      scheds := mdel id x.scheds
      chans := x.chans.map fun c => (c.1, { c.2 with queue := c.2.queue.filter fun q => q != id }) }

/-- The running entry of a channel is complete (08 R179). -/
def State.copyDone (s : State) (cx d ch : Nat) : State :=
  let c := mget {} ch (s.die cx d).chans
  match s.oldestSched cx d ch, c.run with
  | some (id, sc), some i =>
    match sc.entries[i]? with
    | none => s
    | some e =>
      if c.bytes < e.boxBytes ∨ c.stopped then s else
      let sc := { sc with done := sc.done ++ [i] }
      let s := s.modChan cx d ch fun c => { c with run := none }
      if sc.done.length ≥ sc.entries.length then s.dropSched cx d id
      else s.modDie cx d fun x => { x with scheds := mput id sc x.scheds }
  | _, _ => s

/-- The supervisor restarts a stopped channel at its failing line, or abandons it: the entries that its schedule still has
on it are given up (10 R215; log 28). -/
def State.copyRestart (s : State) (cx d ch : Nat) (abandon : Bool) : State :=
  let c := mget {} ch (s.die cx d).chans
  if !c.stopped then s
  else if !abandon then s.modChan cx d ch fun c => { c with stopped := false }
  else
    match s.oldestSched cx d ch with
    | none => s
    | some (id, sc) =>
      let left := (sc.entries.zipIdx.filter fun e => e.1.chan == ch && !sc.done.contains e.2).map Prod.snd
      let sc := { sc with done := sc.done ++ left }
      let s := s.modChan cx d ch fun c => { c with stopped := false, run := none }
      if sc.done.length ≥ sc.entries.length then s.dropSched cx d id
      else s.modDie cx d fun x => { x with scheds := mput id sc x.scheds }

/-! ## Instructions -/

/-- A channel's oldest schedule that has not completed, or the refusal (15 R332). -/
def onChan (a : Spec) (rsvOk : Word → Bool) (f : Nat → Nat → Sched → Body) : Body := fun r t s =>
  let x := readX t a
  let ch := bits x 0 7
  match s.oldestSched r.ctx r.die ch with
  | none => .trap (illegal 5 a x)
  | some (id, sc) => if rsvOk x then f ch id sc r t s else .trap (rsvIn a x)

/-- Only the channel's bits are set. -/
def chanOnly (x : Word) : Bool := bits x 7 57 == 0

/-- cadv; the slot keeps which entries it released (08 R178; 10 R214; 15 R332). -/
def bodyCadv (a b : Spec) : Body := onChan a chanOnly fun ch id sc r t s =>
  let y := readX t b
  if bits y 16 48 ≠ 0 then .trap (rsvIn b y) else
  let old := mget 0 ch sc.counters
  let new := min 65535 (old + bits y 0 16)
  let s := s.modDie r.ctx r.die fun x => { x with scheds := mput id { sc with counters := mput ch new sc.counters } x.scheds }
  let freed := (sc.entries.zipIdx.filter fun e => e.1.chan == ch && decide (old < e.1.stage) && decide (e.1.stage ≤ new)).map Prod.snd
  .ok (if freed = [] then s else s.modSlot r fun u => { u with held := u.held ++ [.copy id freed] })

/-- cwm (15 R332). -/
def bodyCwm (d a : Spec) : Body := onChan a chanOnly fun ch _ sc r t s =>
  let c := mget {} ch (s.die r.ctx r.die).chans
  .ok (s.fly r (.value [writeX t d (toW (c.mark.toNat + (c.run.getD 255) * 2 ^ 32 + mget 0 ch sc.counters * 2 ^ 48))]))

/-- cwait: satisfied once the named entry is complete, its schedule complete included (15 R332). -/
def bodyCwait (a b : Spec) : Body := fun r t s =>
  let n := bits (readX t a) 8 6
  let gone := match t.wait with
    | some w => w.info.cause == 13 && (mfind w.info.key (s.die r.ctx r.die).scheds).isNone
    | none => false
  let outside := match s.oldestSched r.ctx r.die (bits (readX t a) 0 7) with
    | some (_, sc) => t.wait.isNone && decide (n ≥ sc.entries.length)
    | none => false
  if gone then .ok s
  else if outside then .trap (illegal 3 a (readX t a)) else
  onChan a (fun x => !x.getLsbD 7 && bits x 14 50 == 0) (fun ch id sc r t s =>
    let id := match t.wait with
      | some w => w.info.key
      | none => id
    let sc := (mfind id (s.die r.ctx r.die).scheds).getD sc
    if n ≥ sc.entries.length then .trap (illegal 3 a (readX t a))
    else if sc.done.contains n then .ok s
    else .wait (readX t b) { cause := 13, addr := toW ch, i0 := n, i1 := mget 0 ch sc.counters, key := id }) r t s

/-- cstat (15 R332). -/
def bodyCstat (d a : Spec) : Body := onChan a chanOnly fun ch _ sc r t s =>
  let c := mget {} ch (s.die r.ctx r.die).chans
  .ok (s.fly r (.value [writeX t d (toW ((if c.stopped then 2 ^ 18 else 0) + (if c.run.isSome then 2 ^ 16 else 0) +
    sc.entries.length * 256 + sc.done.length))]))

def execCadv (c : Ctl) (a b : Spec) : State → Host.Outcome State Fault Refusal :=
  issue (.cadv c a b) c 4 false (rXX a b) noRegs (guardOn · c) (bodyCadv a b)

def execCwm (c : Ctl) (d a : Spec) : State → Host.Outcome State Fault Refusal :=
  issue (.cwm c d a) c 4 false (rX a) (rX d) (guardOn · c) (bodyCwm d a)

def execCwait (c : Ctl) (a b : Spec) : State → Host.Outcome State Fault Refusal :=
  issue (.cwait c a b) c 4 false (rXX a b) noRegs (guardOn · c) (bodyCwait a b)

def execCstat (c : Ctl) (d a : Spec) : State → Host.Outcome State Fault Refusal :=
  issue (.cstat c d a) c 4 false (rX a) (rX d) (guardOn · c) (bodyCstat d a)

end Sys2Proof.Machine
end

