-- ==== Sys2Proof/Machine/Group.lean ====
section
/-! DEFINITION. The group unit: deadlines, the resolution test, the advantages (03 R83 to R85; 07 R161 to R163; 05 R385). -/

namespace Sys2Proof.Machine

open Sys2Proof

/-- Siblings whose bit is set, rising. -/
def members (x : BitVec 64) : List Nat := (List.range 64).filter fun i => x.getLsbD i

/-- A mask of siblings. -/
def maskM (l : List Nat) : BitVec 64 := l.foldl setM 0

/-- Is a reward finite? -/
def finite32 (x : W32) : Bool :=
  match val32 x with
  | .fin _ _ _ => true
  | .zero _ => true
  | _ => false

/-- Is a value infinite? -/
def infinite32 (x : W32) : Bool :=
  match val32 x with
  | .inf _ => true
  | _ => false

/-- The advantages of included rewards, with ZVAR and OVF (03 R84). -/
def advantages (rs : List (Nat × W32)) (eps : W32) : Map W32 × Bool × Bool :=
  let n := BitVec.ofNat 32 (ofIntF .rne rs.length).1
  let sum := rs.foldl (fun a r => rAdd a r.2) 0
  let mu := rDiv sum n
  let devs := rs.map fun r => (r.1, rSub r.2 mu)
  let var := devs.foldl (fun a x => rAdd a (rMul x.2 x.2)) 0
  let sigma := rSqrt (rDiv var n)
  let den := rAdd sigma eps
  let zvar := fEq (val32 sigma) (.zero false)
  let adv := devs.map fun x => (x.1, if zvar then 0 else rDiv x.2 den)
  (adv, zvar, infinite32 sum || infinite32 var || adv.any fun x => infinite32 x.2)

/-- A record with the result of its resolution (03 R83, R84; 07 R161). -/
def GroupRec.resolved (y : GroupRec) : GroupRec :=
  let inc := (members y.posted).filter fun i => !y.cancelled.getLsbD i && finite32 (mget 0 i y.rewards)
  let nan := (members y.posted).any fun i => !finite32 (mget 0 i y.rewards)
  let n := inc.length
  let flag (b : Bool) (k : Nat) : Nat := if b then 2 ^ k else 0
  let base := n * 2 ^ 7 + flag nan 2 + flag (y.status.getLsbD 5) 5
  let y := { y with included := maskM inc }
  if n < y.quorum then { y with status := BitVec.ofNat 32 (base + 2 ^ 6 + 2), adv := [] }
  else
    let a := advantages (inc.map fun i => (i, mget 0 i y.rewards)) y.eps
    if a.2.2 then { y with status := BitVec.ofNat 32 (base + flag a.2.1 3 + 2 ^ 4 + 2), adv := [] }
    else { y with status := BitVec.ofNat 32 (base + flag a.2.1 3 + 1), adv := a.1 }

/-- Does the resolution test hold (07 R163)? -/
def GroupRec.ready (y : GroupRec) : Bool :=
  (List.range y.gsize).all fun i => y.cancelled.getLsbD i || y.posted.getLsbD i

/-- Keys of the slots of out from i on, up to the first that fails, with its trap; none while a page is on its way (05
R385). -/
def State.outKeys (s : State) (pd : Nat) (w : Who) (out : Nat) : Nat → Nat → Option (List (List Nat) × Option Trap) × State
  | 0, _ => (some ([], none), s)
  | n + 1, i =>
    match s.agentGet pd w (out + 4 * i) 4 .write with
    | (.pending, s) => (none, s)
    | (.bad c k l, s) => (some ([], some (agentTrap c k l (out + 4 * i) .write)), s)
    | (.keys ks, s) =>
      match s.outKeys pd w out n (i + 1) with
      | (some (l, tr), s) => (some (ks :: l, tr), s)
      | (none, s) => (none, s)

/-- Write the advantages of a settled record to out; while a page of it is on its way the write waits (05 R385; log 29). -/
def State.writeOut (s : State) (cx d g : Nat) : State :=
  match mfind g (s.die cx d).groups with
  | none => s
  | some y =>
    if !y.settled then s else
    let pd := s.physDie cx d
    match s.outKeys pd ⟨cx, y.pslot, y.who, y.pc, y.iword, workOf 3 g⟩ y.out y.gsize 0 with
    | (none, s) => s
    | (some (ks, tr), s) =>
      let s := ks.zipIdx.foldl (fun s k =>
        s.store (k.1.zip (leBytes 4 (mget 0 k.2 y.adv).toNat))) s
      let s := match tr with
        | some tr => s.report pd cx y.pslot y.who y.pc y.iword tr
        | none => s
      (s.modGroup cx d g fun y => { y with settled := false }).freeGroup cx d g

/-- Resolve a record whose test holds: it closes, with what its rewards and masks give now, and out is written (03 R85; 07
R163). -/
def State.resolveGroup (s : State) (cx d g : Nat) : State :=
  match mfind g (s.die cx d).groups with
  | none => s
  | some y =>
    if !y.isOpen || !y.ready then s else
    let z := y.resolved
    ((s.modGroup cx d g fun _ => { z with settled := bits z.status 0 2 != 2 }).freeGroup cx d g).writeOut cx d g

/-- The deadline of a record is reached: siblings that have neither posted nor been cancelled are cancelled (07 R163). -/
def State.groupDeadline (s : State) (cx d g : Nat) : State :=
  match mfind g (s.die cx d).groups with
  | none => s
  | some y =>
    if !y.isOpen then s else
    let s := s.modGroup cx d g fun y => { y with status := y.status ||| 32#32, left := 0 }
    ((List.range y.gsize).filter fun i => !y.posted.getLsbD i && !y.cancelled.getLsbD i).foldl
      (fun s i => s.cancelSibling cx d g i) s

/-- One arith cycle of a record, after the posts and cancellations of the cycle: the deadline counts and acts, then the
resolution test (07 R161, R162). -/
def State.groupTick (s : State) (cx d g : Nat) : State :=
  match mfind g (s.die cx d).groups with
  | none => s
  | some y =>
    if !y.isOpen then s.writeOut cx d g else
    let run := !s.ctxHalted cx
    let s := if run ∧ y.left > 0 then s.modGroup cx d g fun y => { y with left := y.left - 1 } else s
    let s := if run ∧ y.left = 1 then s.groupDeadline cx d g else s
    s.resolveGroup cx d g

/-- One arith cycle of every record of the contexts that run. -/
def State.groupsTick (s : State) : State :=
  s.dies.foldl (fun s x =>
    let cx := x.1 / 4
    if !s.enginesUp cx then s
    else x.2.groups.foldl (fun s g => s.groupTick cx (x.1 % 4) g.1) s) s

end Sys2Proof.Machine
end

