-- ==== Sys2Proof/Machine/Cross.lean ====
section
/-! DEFINITION. Crossing units: variables, their next crossings, firing, storms, snapshots (03 R81, R82; 07 R164, R165; 15
R324 to R328). -/

namespace Sys2Proof.Machine

open Sys2Proof

/-! ## Variables -/

/-- A stored variable (07 R164). -/
structure XEnt where
  x : W32
  q : W32
  slope : W32
  dq : W32
  tlast : Word
  s : Nat
  mgrp : Nat
  flags : Nat
  cnt : Nat
  elim : Nat
  wexp : Nat
deriving DecidableEq, Repr

/-- The tick called never (03 R81). -/
abbrev neverTick : Word := BitVec.allOnes 64

/-- An entry from its 32 bytes (07 R164). -/
def XEnt.ofNat (n : Nat) : XEnt where
  x := BitVec.ofNat 32 (fld n 0 4)
  q := BitVec.ofNat 32 (fld n 4 4)
  slope := BitVec.ofNat 32 (fld n 8 4)
  dq := BitVec.ofNat 32 (fld n 12 4)
  tlast := toW (fld n 16 8)
  s := fld n 24 2 % 64
  mgrp := fld n 24 2 / 64
  flags := fld n 26 1
  cnt := fld n 27 1
  elim := fld n 28 1
  wexp := fld n 29 1

/-- The bytes of an entry. -/
def XEnt.bytes (e : XEnt) : List Byte :=
  leBytes 4 e.x.toNat ++ leBytes 4 e.q.toNat ++ leBytes 4 e.slope.toNat ++ leBytes 4 e.dq.toNat ++ leBytes 8 e.tlast.toNat ++
    leBytes 2 (e.s + 64 * e.mgrp) ++ leBytes 1 e.flags ++ leBytes 1 e.cnt ++ leBytes 1 e.elim ++ leBytes 1 e.wexp ++ leBytes 2 0

/-- EN. -/
def XEnt.en (e : XEnt) : Bool := e.flags.testBit 0
/-- STORM. -/
def XEnt.storm (e : XEnt) : Bool := e.flags.testBit 1
/-- NAN. -/
def XEnt.nan (e : XEnt) : Bool := e.flags.testBit 2
/-- A flag set or cleared. -/
def XEnt.setFlag (e : XEnt) (i : Nat) (b : Bool) : XEnt :=
  { e with flags := if e.flags.testBit i == b then e.flags else if b then e.flags + 2 ^ i else e.flags - 2 ^ i }

/-- Is an FP32 word a zero? -/
def zero32 (x : W32) : Bool := fEq (val32 x) (.zero false)
/-- Is it positive and finite? -/
def posFinite (x : W32) : Bool := finite32 x && !zero32 x && !(val32 x).neg

/-- The next threshold: q plus or minus the quantum, by the sign of the slope (03 R81). -/
def XEnt.theta (e : XEnt) : W32 := if fLt (.zero false) (val32 e.slope) then rAdd e.q e.dq else rSub e.q e.dq

/-- Ticks to the crossing: the ceiling of dt × 2^s, between 0 and 2^63 − 1 (03 R81). -/
def ticksOf (dt : FVal) (s : Nat) : Nat :=
  match dt with
  | .inf neg => if neg then 0 else 2 ^ 63 - 1
  | .fin neg m e =>
    if neg then 0 else
    let e := e + (s : Int)
    min (2 ^ 63 - 1) (if 0 ≤ e then m * 2 ^ e.toNat else (m + 2 ^ (-e).toNat - 1) / 2 ^ (-e).toNat)
  | _ => 0

/-- The tick of the next crossing, and whether the NAN flag is set (03 R81). -/
def XEnt.tnext (e : XEnt) : Word × Bool :=
  if zero32 e.slope then (neverTick, false) else
  let dt := val32 (rDiv (rSub e.theta e.x) e.slope)
  if dt.isNan then (neverTick, true)
  else
    let t := e.tlast.toNat + ticksOf dt e.s
    (if t ≥ 2 ^ 64 - 1 then neverTick else toW t, false)

/-- The value reported for a tick, by whether the variable's tnext is never (03 R82). -/
def XEnt.at_ (e : XEnt) (never : Bool) (tick : Word) : W32 :=
  if never && zero32 e.slope then e.x else
  let z : Int := (tick.toNat : Int) - (e.tlast.toNat : Int)
  let dt : W32 := BitVec.ofNat 32 (fp32.deliver .rne (ofInt z (-(e.s : Int)) false, 0)).1
  rAdd e.x (rMul e.slope dt)

/-- Key of a variable's entry (07 R164). -/
def varKey (k : CoreRef) (v : Nat) : Nat := sharedKey k (0xC000 + 32 * v)
/-- A stored variable of a core. -/
def State.var (s : State) (k : CoreRef) (v : Nat) : XEnt := XEnt.ofNat (s.loadLE (varKey k v) 32)
/-- Are reserved bits of a stored entry set (00 R10; 07 R164)? -/
def State.varRsv (s : State) (k : CoreRef) (v : Nat) : Bool :=
  let n := s.loadLE (varKey k v) 32
  decide (fld n 26 1 ≥ 16) || decide (fld n 30 2 ≠ 0)
/-- State with what a crossing changes of an entry written: x, q, tlast, flags and cnt (07 R164). -/
def State.crossVar (s : State) (k : CoreRef) (v : Nat) (e : XEnt) : State :=
  s.store ((e.bytes.zipIdx.filter fun b => decide (b.2 < 8) || (decide (16 ≤ b.2) && decide (b.2 < 24)) || b.2 == 26 || b.2 == 27).map
    fun b => (varKey k v + b.2, b.1))
/-- State with a variable's entry written. -/
def State.setVar (s : State) (k : CoreRef) (v : Nat) (e : XEnt) : State :=
  s.store (e.bytes.zipIdx.map fun b => (varKey k v + b.2, b.1))

/-- A variable that is not scheduled, its tnext never. -/
def XVar.off : XVar := ⟨neverTick, 0, false⟩

/-- The schedule of a variable: its tick, with the cascade step c where that is the current tick; the entry with the NAN
flag where it is raised. The tick is computed whether or not the variable is scheduled (03 R81; 15 R324). -/
def XEnt.schedule (e : XEnt) (tick : Word) (c : W32) : XVar × XEnt :=
  let n := e.tnext
  let e := if n.2 then e.setFlag 2 true else e
  (⟨n.1, if n.1 = tick ∧ n.1 ≠ neverTick then c else 0, e.en && !e.storm && !e.nan && n.1 != neverTick⟩, e)

/-- The time a variable is scheduled at. -/
def XVar.time (x : XVar) : Time := x.tnext ++ (0 : W32) ++ x.c

/-- The least time a unit's variables are scheduled at (15 R324). -/
def XUnit.least (u : XUnit) : Option Time :=
  (u.vars.filter fun v => v.2.on).foldl (fun a v => match a with
    | none => some v.2.time
    | some t => if v.2.time < t then some v.2.time else some t) none

/-- Source location of a unit's edge. -/
def State.unitLoc (s : State) (cx : Nat) (u : XUnit) : Nat := ((s.edge cx u.edge).map Edge.src).getD 0

/-- Is the tnext that a core's unit keeps of a variable never (03 R81, R82)? -/
def State.neverVar (s : State) (k : CoreRef) (v : Nat) : Bool :=
  ((s.core k).xunit.bind fun u => mfind v u.vars).all fun x => x.tnext == neverTick

/-- Room for some changes in a core's delta buffer, so that they travel in one batch. -/
def State.makeRoom (s : State) (k : CoreRef) (n : Nat) : State :=
  if (s.core k).delta.length + n > Config.deltaEntries then s.flush k none else s

/-- The count that a unit holds and the one that its new state asks for, by place and time (15 R324). -/
def State.unitCounts (s : State) (k : CoreRef) (u : XUnit) : Option (Nat × Time) × Option (Nat × Time) :=
  ((s.core k).xunit.bind fun w => w.count.map fun t => (s.unitLoc k.ctx w, t), u.least.map fun t => (s.unitLoc k.ctx u, t))

/-- Put a unit's new state in place and move its count; within a firing the count stays until the messages go (15 R324; 16 R341). -/
def State.setUnit (s : State) (k : CoreRef) (u : XUnit) : State :=
  if u.part ≠ [] then s.modCore k fun c => { c with xunit := some u } else
  let x := s.unitCounts k u
  let s := s.modCore k fun c => { c with xunit := some { u with count := u.least } }
  if x.1 = x.2 then s else
  let s := s.makeRoom k 2
  let s := match x.2 with
    | some y => s.count k y.1 y.2 false 1
    | none => s
  match x.1 with
  | some y => s.count k y.1 y.2 false (-1)
  | none => s

/-- Must the move of a unit's count wait for room (08 R174)? -/
def State.moveBlocked (s : State) (k : CoreRef) (u : XUnit) : Bool :=
  let x := s.unitCounts k u
  u.part == [] && x.1 != x.2 && s.countsBlocked k (x.2.toList ++ x.1.toList)

/-- Must a firing wait for room: for the counts of its messages and the move of the unit's own (08 R174)? -/
def State.fireBlocked (s : State) (k : CoreRef) (u : XUnit) (h : Time) : Bool :=
  decide (s.deltaUse k + (u.part.length + (u.vars.filter fun v => v.2.on && v.2.time == h).length + 2) > Config.deltaEntries) &&
    s.tilthFull k.ctx k.die

/-! ## Messages -/

/-- The global id of a variable (07 R165). -/
def State.varId (s : State) (k : CoreRef) (v : Nat) : Nat := v + k.core * 2 ^ 10 + k.die * 2 ^ 18 + s.pkg * 2 ^ 20

/-- Payload of a crossing message, and of a storm notice with its cause (07 R165). -/
def crossPayload (id : Nat) (q : W32) (tick : Word) (cause : Nat) : Vec :=
  BitVec.ofNat 1024 (id + q.toNat * 2 ^ 32 + tick.toNat * 2 ^ 64 + cause * 2 ^ 128)

/-- The message of a crossing (06 R129; 15 R324). -/
def State.crossMsg (s : State) (k : CoreRef) (u : XUnit) (h : Time) (e : XEnt) (v : Nat) (tick : Word) : Msg :=
  let ed := (s.edge k.ctx u.edge).getD ⟨0, 0, 0, 0, 0⟩
  { dst := toW (u.edge * 2 ^ 32 + u.cls * 2 ^ 30 + e.mgrp)
    src := toW (u.edge * 2 ^ 32 + u.cls * 2 ^ 30 + s.pkg * 2 ^ 13 + k.die * 2 ^ 11 + k.core * 2 ^ 3 + 4)
    time := ed.apply h, payload := crossPayload (s.varId k v) e.q tick 0, loc := ed.dst, weight := 1, counted := true,
    poisoned := false }

/-- The slot number under which a core's crossing unit sends. -/
abbrev unitSlot : Nat := 4

/-! ## Firing -/

/-- The storm check of a crossing: the entry and the cause of a notice, 0 for none (07 R165); the window's before the cascade's
(log 114). -/
def stormCheck (e : XEnt) (before tc : Word) (c3 : W32) : XEnt × Nat :=
  let c0 := if tc.toNat / 2 ^ e.wexp ≠ before.toNat / 2 ^ e.wexp then 0 else e.cnt
  let cnt := min 255 (c0 + 1)
  let e := { e with cnt := cnt }
  let win := decide (e.elim ≠ 0) && decide (cnt > e.elim)
  if win || decide (c3.toNat > 1024) then ((e.setFlag 1 true).setFlag 0 false, if win then 1 else 2) else (e, 0)

/-- One firing: the package with the entry written and the notice posted, the messages so far, the unit with the variable's
new schedule (15 R324). -/
def fireVar (k : CoreRef) (h : Time) (a : State × List Msg × XUnit) (v : Nat) : State × List Msg × XUnit :=
  let (s, ms, u) := a
  let e := s.var k v
  let tick : Word := h.extractLsb' 64 64
  let c : W32 := h.extractLsb' 0 32
  if !e.en || e.storm || e.nan || zero32 e.slope then (s, ms, { u with vars := mput v XVar.off u.vars })
  else
    let th := e.theta
    let before := e.tlast
    let e := { e with x := th, q := th, tlast := tick }
    let (e, cause) := stormCheck e before tick c
    let s := if cause ≠ 0 then s.postNotice k 0 h (crossPayload (s.varId k v) e.q tick cause) else s
    let m := s.crossMsg k u h e v tick
    let (sch, e) := e.schedule tick (c + 1)
    (s.crossVar k v e, ms ++ [m], { u with vars := mput v sch u.vars })

/-- Messages of a crossing unit: their counts and the moved count in one batch (08 R171, R173; 15 R324). -/
def State.unitSend (s : State) (k : CoreRef) (ms : List Msg) (u : XUnit) : State :=
  let s := s.makeRoom k 3
  let grpOf (m : Msg) : Nat := bits m.dst 0 10
  let ns := ms.map fun m => (m, mcastCounts (s.core k) (grpOf m) m.payload)
  let s := ns.foldl (fun s m => s.count k m.1.loc m.1.time false m.2) s
  let s := (s.setUnit k { u with part := [] }).flush k none
  let batch := s.lastBatch
  let silent (m : Msg) (n : Nat) : Bool := n == 0 && bits (mget 0 (grpOf m) (s.core k).groups) 5 3 == 3
  let ents := (ns.filter fun m => !silent m.1 m.2).zipIdx.map fun m =>
    { id := s.ids + m.2, msg := m.1.1, batch := if m.1.2 = 0 then 0 else batch, group := some (grpOf m.1.1), sent := false, out := 1,
      refused := [] : SendEnt }
  ({ s with ids := s.ids + ents.length } : State).modCore k fun c => { c with xsend := c.xsend ++ ents }

/-- The variables of a unit that are scheduled at a time (15 R324). -/
def XUnit.due (u : XUnit) (h : Time) : List Nat := (u.vars.filter fun v => v.2.on && v.2.time == h).map Prod.fst

/-- Fire a core's unit when F at its location is its count's time (15 R324): what is left of a firing that has begun, else all of
it. -/
def State.fire (s : State) (k : CoreRef) : State :=
  match (s.core k).xunit with
  | none => s
  | some u =>
    match u.count with
    | none => s
    | some h =>
      let l := s.unitLoc k.ctx u
      if s.frontierAt k.ctx k.die l ≠ h ∨ !s.enginesUp k.ctx ∨ s.fireBlocked k u h then s else
      let a := (u.due h).foldl (fireVar k h) (s, u.part, u)
      a.1.unitSend k a.2.1 a.2.2

/-- The first variable of a firing by itself: until the last has crossed, reads may come between two of them (16 R341). -/
def State.fireOne (s : State) (k : CoreRef) : State :=
  match (s.core k).xunit with
  | none => s
  | some u =>
    match u.count with
    | none => s
    | some h =>
      let l := s.unitLoc k.ctx u
      match u.due h with
      | v :: _ :: _ =>
        if s.frontierAt k.ctx k.die l ≠ h ∨ !s.enginesUp k.ctx ∨ s.fireBlocked k u h then s else
        let a := fireVar k h (s, u.part, u) v
        a.1.modCore k fun c => { c with xunit := some { a.2.2 with part := a.2.1 } }
      | _ => s.fire k

/-! ## Instructions -/

/-- An entry of qdef out of range (15 R325). -/
def xentBad (e : XEnt) : Bool :=
  !posFinite e.dq || decide (e.s > 40) || decide (e.wexp > 63) || e.storm || e.nan

/-- The variables of a core whose stored entry has a flag set (07 R164). -/
def State.varsWith (s : State) (k : CoreRef) (flag : Nat) : List Nat :=
  (List.range Config.crossVars).filter fun v => (memGet (varKey k v + 26) s.mem).getLsbD flag

/-- Has a core's unit a variable with EN set (15 R324)? -/
def State.unitBusy (s : State) (k : CoreRef) : Bool := s.varsWith k 0 != []

/-- A variable's schedule by the time of a task (15 R324). -/
def XEnt.scheduleAt (e : XEnt) (t : Time) : XVar × XEnt := e.schedule (t.extractLsb' 64 64) (t.extractLsb' 0 32)

/-- The new schedule of a variable checked and installed: unreachable times fault (01 R29; 15 R325, R326). -/
def installVar (r : SlotRef) (t : Slot) (s : State) (u : XUnit) (v : Nat) (p : XVar × XEnt) : Res :=
  let k := r.coreRef
  let l := s.unitLoc r.ctx u
  if p.1.on ∧ !s.reaches r.ctx t.loc t.time l p.1.time then .trap (frontierFault 2 l p.1.time)
  else
    let u' : XUnit := { u with vars := mput v p.1 u.vars }
    if s.moveBlocked k u' then .wait 0 (s.countWait k)
    else .ok (((s.sampleLines r [lineOf (varKey k v)]).setVar k v p.2).setUnit k u')

/-- qdef (15 R325). -/
def bodyQdef (a b : Spec) : Body := fun r t s =>
  let ad := addrM t a
  let y := readX t b
  let v := bits y 0 10
  let ei := bits y 10 10
  let cls := bits y 20 2
  let k := r.coreRef
  let same := match (s.core k).xunit with
    | some u => u.edge == ei && u.cls == cls
    | none => false
  if !same && ((s.core k).xunit.any fun u => u.part != []) then notYet r t s
  else if (s.core k).xunit.isSome && s.unitBusy k && !same then .trap (illegal 5 b y)
  else if bits y 22 42 ≠ 0 then .trap (rsvIn b y)
  else match taskRec r t s a ad 32 32 with
  | .stop x => x
  | .val n =>
    let e := { XEnt.ofNat n with cnt := 0 }
    if xentBad e then .trap (recIllegal ad a)
    else if e.flags ≥ 16 ∨ fld n 30 2 ≠ 0 then .trap (recRsv ad a)
    else match s.edge r.ctx ei with
    | none => .trap (frontierFault 2 t.loc t.time)
    | some ed =>
      if ed.src ≠ t.loc then .trap (frontierFault 2 ed.src t.time) else
      let u : XUnit := match (s.core k).xunit with
        | some u => if same then u else { edge := ei, cls := cls, vars := [], count := none }
        | none => { edge := ei, cls := cls, vars := [], count := none }
      installVar r t s u v (if e.en then e.scheduleAt t.time else (XVar.off, e))

/-- qslope and qquant (15 R326). -/
def bodyQchange (quant : Bool) (a b : Spec) : Body := fun r t s =>
  let k := r.coreRef
  let v := bits (readX t a) 0 10
  let y : W32 := (readX t b).setWidth 32
  let tick : Word := t.time.extractLsb' 64 64
  match (s.core k).xunit with
  | none => .trap { cls := 0x01, cause := 5 }
  | some u =>
    if quant && !posFinite y then .trap (illegal 3 b (readX t b)) else
    match poisonTrap s (0x1C000 + 32 * v) (keysFrom (varKey k v) 32) (fun _ => true) with
    | some tr => .trap tr
    | none =>
      let e := s.var k v
      if tick < e.tlast then .trap (illegal 5 a (readX t a))
      else if s.varRsv k v then .trap (recRsv (0x1C000 + 32 * v) a)
      else
        let e := { e with x := e.at_ (s.neverVar k v) tick, tlast := tick }
        let e := if quant then { ((e.setFlag 1 false).setFlag 2 false).setFlag 0 true with dq := y, cnt := 0 }
          else { e.setFlag 2 false with slope := y }
        installVar r t s u v (e.scheduleAt t.time)

/-- qread (15 R327). -/
def bodyQread (d a : Spec) : Body := fun r t s =>
  let x := readX t a
  let k : CoreRef := ⟨r.ctx, bits x 18 2, bits x 10 8⟩
  let v := bits x 0 10
  if bits x 29 35 ≠ 0 then .trap (illegal 3 a x)
  else if !(s.shapeOf r.ctx).hasCore k.die k.core ∨ bits x 20 9 ≠ s.pkg then .trap (illegal 4 a x)
  else match poisonTrap s (0x20000C000 + k.die * 2 ^ 25 + k.core * 2 ^ 17 + 32 * v) (keysFrom (varKey k v) 32)
      (fun _ => true) with
  | some tr => .trap tr
  | none =>
    if s.varRsv k v then .trap (recRsv (0x20000C000 + k.die * 2 ^ 25 + k.core * 2 ^ 17 + 32 * v) a) else
    let e := s.var k v
    .ok (s.fly r (.value (writePair t d (e.q ++ e.x) e.tlast)))

/-- qstat (15 R327). -/
def bodyQstat (d a : Spec) : Body := fun r t s =>
  let k := r.coreRef
  let v := bits (readX t a) 0 10
  match poisonTrap s (0x1C000 + 32 * v) (keysFrom (varKey k v) 32) (fun _ => true) with
  | some tr => .trap tr
  | none =>
    if s.varRsv k v then .trap (recRsv (0x1C000 + 32 * v) a) else
    let e := s.var k v
    let n := match (s.core k).xunit with
      | some u => ((mfind v u.vars).map XVar.tnext).getD neverTick
      | none => neverTick
    .ok (s.fly r (.value (writePair t d (toW (e.flags + 256 * e.cnt)) n)))

/-- The hold of a snapshot of a tick (15 R328). -/
def snapTime (tick : Word) : Time := tick ++ BitVec.allOnes 64

/-- qsnap (15 R328). -/
def bodyQsnap (d a b : Spec) : Body := fun r t s =>
  let tick := readX t a
  let y := readX t b
  let cw := (readX t d).toNat
  let base := y.toNat / 256 * 256
  let l := bits y 0 8
  match handOver r base, handOver r cw with
  | some bh, some ch =>
    if l ≥ (s.ctx r.ctx).nloc then .trap (illegal 3 b y)
    else if !s.cwOk r cw then .trap (illegal 3 d (readX t d))
    else if cw % 4 ≠ 0 then .trap (misaligned 1 cw 4)
    else if !s.reaches r.ctx t.loc t.time l (snapTime tick) then .trap (frontierFault 2 l (snapTime tick))
    else if s.countBlocked r.coreRef l (snapTime tick) then .wait 0 (s.countWait r.coreRef)
    else
      let q : Snap := { loc := l, tick := tick, base := toW bh, cw := toW ch, poster := r, who := s.cId r, pc := t.pc, iword := t.iword,
                        id := s.ids }
      .ok (({ s with ids := s.ids + 1 } : State).count r.coreRef l (snapTime tick) false 1 |>.modCtx r.ctx fun c => { c with snaps := c.snaps ++ [q] })
  | none, _ => .trap (illegal 3 b y)
  | _, none => .trap (illegal 3 d (readX t d))

def execQdef (c : Ctl) (a b : Spec) : State → Host.Outcome State Fault Refusal :=
  issue (.qdef c a b) c 4 false (rXX a b) noRegs (guardOn · c) (bodyQdef a b)

def execQslope (c : Ctl) (a b : Spec) : State → Host.Outcome State Fault Refusal :=
  issue (.qslope c a b) c 4 false (rXX a b) noRegs (guardOn · c) (bodyQchange false a b)

def execQquant (c : Ctl) (a b : Spec) : State → Host.Outcome State Fault Refusal :=
  issue (.qquant c a b) c 4 false (rXX a b) noRegs (guardOn · c) (bodyQchange true a b)

def execQread (c : Ctl) (d a : Spec) : State → Host.Outcome State Fault Refusal :=
  issue (.qread c d a) c 4 false (rX a) (rPair d) (guardOn · c) (bodyQread d a)

def execQstat (c : Ctl) (d a : Spec) : State → Host.Outcome State Fault Refusal :=
  issue (.qstat c d a) c 4 false (rX a) (rPair d) (guardOn · c) (bodyQstat d a)

def execQsnap (c : Ctl) (d a b : Spec) : State → Host.Outcome State Fault Refusal :=
  issue (.qsnap c d a b) c 4 false (rXXX d a b) noRegs (guardOn · c) (bodyQsnap d a b)

/-! ## Snapshots -/

/-- The samples of a snapshot: core, variable (15 R328). -/
def State.snapVars (s : State) (cx loc : Nat) : List (CoreRef × Nat) :=
  (s.shapeOf cx).cores.flatMap fun c =>
    let k : CoreRef := ⟨cx, c.1, c.2⟩
    match (s.core k).xunit with
    | none => []
    | some u =>
      if s.unitLoc cx u = loc then (s.varsWith k 3).map fun v => (k, v) else []

/-- The samples of a snapshot, each written once or failed for good, in order; true where the page of one is on its way, which comes
next (05 R385). -/
def snapRun (pd : Nat) (w : Who) : List (CoreRef × Nat) → Snap → State → Bool × Snap × State
  | [], q, s => (false, q, s)
  | (k, v) :: rest, q, s =>
    let a := q.base.toNat + 4 * (s.varId k v % 2 ^ 20)
    match s.agentGet pd w a 4 .write with
    | (.pending, s) => (true, q, s)
    | (.bad c n l, s) =>
      snapRun pd w rest { q with next := q.next + 1, bad := some (q.bad.getD (agentTrap c n l a .write)) } s
    | (.keys ks, s) =>
      snapRun pd w rest { q with next := q.next + 1, wrote := q.wrote + 1 }
        (s.store (ks.zip (leBytes 4 ((s.var k v).at_ (s.neverVar k v) q.tick).toNat)))

/-- A snapshot is taken when F at its location has reached its hold (15 R328): the samples, then the completion word with their
number; what waits for a page is kept with the request (05 R385). -/
def State.sampleSnap (s : State) (cx i : Nat) : State :=
  match (s.ctx cx).snaps[i]? with
  | none => s
  | some q =>
    let r := q.poster
    if s.frontierAt cx r.die q.loc < snapTime q.tick ∨ !s.enginesUp cx ∨ s.countBlocked r.coreRef q.loc (snapTime q.tick)
    then s else
    let pd := s.physDie cx r.die
    let w : Who := ⟨cx, r, q.who, q.pc, q.iword, workOf 5 q.id⟩
    let x := snapRun pd w ((s.snapVars cx q.loc).drop q.next) q s
    let q := x.2.1
    let s := x.2.2.modCtx cx fun c => { c with snaps := lmod i (fun _ => q) c.snaps }
    if x.1 then s else
    match s.agentGet pd w q.cw.toNat 4 .write with
    | (.pending, s) => s
    | (res, s) =>
      let rep (s : State) (tr : Option Trap) : State := match tr with
        | some tr => s.report pd cx r q.who q.pc q.iword tr
        | none => s
      let s := rep s q.bad
      let s := match res with
        | .keys ks => (s.store (ks.zip (leBytes 4 q.wrote))).setFullIf (s.carriesFull q.poster q.cw.toNat (ks.getD 0 0)) (ks.getD 0 0)
        | .bad c n l => rep s (some (agentTrap c n l q.cw.toNat .write))
        | .pending => s
      let s := s.modCtx cx fun c => { c with snaps := c.snaps.eraseIdx i }
      s.count r.coreRef q.loc (snapTime q.tick) false (-1)

end Sys2Proof.Machine
end

