-- ==== Sys2Proof/Machine/Matrix.lean ====
section
/-! DEFINITION. The matrix array of a quad: the shadow set, the command queue, streams and their dot products, tiles, remote
commands, power (03 R74 to R79; 04 R103, R104; 07 R158, R159; 15 R315 to R323; 21 R382, R383). -/

namespace Sys2Proof.Machine

open Sys2Proof

/-- Bits of each register that no field uses (04 R104). -/
def mcRsv (n : Nat) (x : Word) : Bool :=
  match n with
  | 0 => bits x 52 12 != 0
  | 2 => bits x 40 24 != 0
  | 3 => bits x 11 5 != 0 || bits x 48 16 != 0
  | 4 => bits x 54 10 != 0
  | 5 => bits x 9 55 != 0
  | 6 => bits x 52 12 != 0
  | 7 => bits x 13 3 != 0 || bits x 62 2 != 0
  | 8 => bits x 13 3 != 0 || bits x 25 39 != 0
  | 9 => bits x 11 53 != 0
  | 10 => bits x 52 12 != 0
  | _ => false

/-- An operand kind with its format is legal: 0 binary8 with a code of 03 R69, 1 FP16, 2 BF16 (04 R104). -/
def kindOk (kind fmt : Nat) : Bool := (kind == 0 && decide (fmt % 8 ≠ 0)) || ((kind == 1 || kind == 2) && fmt == 0)

/-- Bytes of an element of a kind. -/
def kindSize (kind : Nat) : Nat := if kind = 0 then 1 else 2

/-- M of the N:M sparsity (04 R104); 1 where dense. -/
def spM (mc : List Word) : Nat :=
  match mcF mc 7 8 2 with
  | 0 => 1
  | 1 => 4
  | 2 => 8
  | _ => 16
/-- N of the N:M sparsity; 1 where dense. -/
def spN (mc : List Word) : Nat := if mcF mc 7 8 2 = 0 then 1 else 2 ^ mcF mc 7 10 3

/-- A scale address: bits [51:6] in a field. -/
def scaleAddr (mc : List Word) (n lo : Nat) : Nat := mcF mc n lo 46 * 64

/-- Does an address lie in a vault window (05 R115)? -/
def inVault (a : Nat) : Bool :=
  match region false a with
  | .vault _ => true
  | .anyVault _ _ _ => true
  | _ => false

/-- The unfolding of a stream: output height and width (15 R318). -/
def outDim (n pad0 pad1 dil k stride : Nat) : Int :=
  ((n : Int) + pad0 + pad1 - dil * (k - 1 : Nat) - 1) / stride + 1
/-- OH. -/
def outH (mc : List Word) : Int := outDim (mcF mc 1 0 16) (mcF mc 2 24 4) (mcF mc 2 32 4) (mcF mc 2 16 4) (mcF mc 2 0 4) (mcF mc 2 8 4)
/-- OW. -/
def outW (mc : List Word) : Int :=
  outDim (mcF mc 1 16 16) (mcF mc 2 28 4) (mcF mc 2 36 4) (mcF mc 2 20 4) (mcF mc 2 4 4) (mcF mc 2 12 4)
/-- K of a stream: kh × kw × C. -/
def streamK (mc : List Word) : Nat := mcF mc 2 0 4 * mcF mc 2 4 4 * mcF mc 1 32 16

/-- The first register of a weight load that is out of range (04 R104; 15 R317). -/
def wldBad (hand : Nat → Option Nat) (mc : List Word) : Option Nat :=
  let kind := mcF mc 7 5 3
  let sp := mcF mc 7 8 2
  let k := mcF mc 8 0 13
  let nc := mcF mc 8 16 9
  let kmax := if sp = 0 then 256 else 256 * spM mc / spN mc
  if mcF mc 6 0 7 ≠ 0 ∨ (hand (mcF mc 6 0 52)).isNone then some 6
  else if !kindOk kind (mcF mc 7 0 5) ∨ (sp = 0 ∧ mcF mc 7 10 3 ≠ 0) ∨ (sp ≠ 0 ∧ (mcF mc 7 10 3 > 3 ∨ spN mc > spM mc / 2)) ∨
      (kind ≠ 0 ∧ sp ≠ 0) ∨ (kind = 0 ∧ (hand (scaleAddr mc 7 16)).isNone) then some 7
  else if k = 0 ∨ nc = 0 ∨ nc > 256 ∨ k > kmax ∨ (kind ≠ 0 ∧ k * nc > 32768) then some 8
  else none

/-- The first register of a stream that is out of range (04 R104; 15 R318). -/
def xstrBad (hand : Nat → Option Nat) (mc : List Word) : Option Nat :=
  let kind := mcF mc 4 5 3
  if mcF mc 0 0 7 ≠ 0 ∨ !inVault (mcF mc 0 0 52) then some 0
  else if mcF mc 1 0 16 = 0 ∨ mcF mc 1 16 16 = 0 ∨ mcF mc 1 32 16 = 0 then some 1
  else if ((List.range 6).any fun i => mcF mc 2 (4 * i) 4 == 0) ∨ outH mc < 1 ∨ outW mc < 1 ∨ streamK mc > 4096 then some 2
  else if mcF mc 3 0 11 = 0 ∨ mcF mc 3 0 11 > 1024 ∨ ((mcF mc 3 16 32 + mcF mc 3 0 11 : Nat) : Int) > outH mc * outW mc then some 3
  else if !kindOk kind (mcF mc 4 0 5) ∨ (kind = 0 ∧ ((hand (scaleAddr mc 4 8)).isNone ∨ mcF mc 1 32 16 % 32 ≠ 0)) then some 4
  else none

/-- The first register of a tout that is out of range (04 R104; 15 R317). -/
def toutBad (mc : List Word) : Option Nat :=
  if (mcF mc 9 0 2 = 3 ∧ mcF mc 9 2 5 % 8 = 0) ∨ mcF mc 9 8 3 > 4 then some 9
  else if mcF mc 10 0 7 ≠ 0 ∨ !inVault (mcF mc 10 0 52) then some 10
  else none

/-- A tile shape (15 R320): type, base, columns, rows. -/
def shapeType (x : W32) : Nat := bits x 30 2
/-- First physical row. -/
def shapeBase (x : W32) : Nat := bits x 20 10
/-- Columns. -/
def shapeCols (x : W32) : Nat := bits x 11 9
/-- Rows; 0 where the tile is not configured. -/
def shapeRows (x : W32) : Nat := bits x 0 11

/-- Is a shape word in range (15 R320)? -/
def shapeOk (x : W32) : Bool :=
  if shapeRows x = 0 then x == 0
  else decide (shapeType x ≤ 1) && decide (1 ≤ shapeCols x) && decide (shapeCols x ≤ 256) && decide (shapeRows x ≤ 1024) &&
    decide (shapeBase x + cdiv (shapeRows x * shapeCols x) 256 ≤ 1024)

/-- Registers a command kind consumes: 0 wld, 2 xstr, 6 tout (15 R317). -/
def kindRegs (kind : Nat) : List Nat :=
  match kind with
  | 0 => [6, 7, 8]
  | 2 => [0, 1, 2, 3, 4, 5]
  | 6 => [5, 9, 10]
  | _ => []

/-- The fault of a command's shadow-set fields at issue (04 R103, R104; 15 R315). -/
def mcTrap (hand : Nat → Option Nat) (mc : List Word) (kind : Nat) : Option Trap :=
  let bad := match kind with
    | 0 => wldBad hand mc
    | 2 => xstrBad hand mc
    | 6 => toutBad mc
    | _ => none
  let at_ (cls cause n : Nat) : Trap := { cls := cls, cause := cause, addr := mcReg mc n, aux := BitVec.ofNat 32 (n + 96) }
  match bad with
  | some n => some (at_ 1 3 n)
  | none => ((kindRegs kind).find? fun n => mcRsv n (mcReg mc n)).map (at_ 2 2)

/-- The shadow set as copied with a command, the addresses fixed in the issuer's view behind it: X, X scales, weights,
weight scales, output (04 R103; 05 R384). -/
def copyMc (r : SlotRef) (t : Slot) : List Word :=
  let mc := (List.range 32).map fun i => mget 0 i t.mc
  let h (a : Nat) : Word := toW ((handOver r a).getD a)
  mc ++ [h (mcF mc 0 0 52), h (scaleAddr mc 4 8), h (mcF mc 6 0 52), h (scaleAddr mc 7 16), h (mcF mc 10 0 52)]

/-! ## The queue -/

/-- Commands in the queue, the ones in execution among them (15 R315). -/
def Arr.occ (a : Arr) : Nat := a.queue.length + a.run.length

/-- Commands of a slot that have not completed: its own, or those it sent. -/
def Arr.mine (a : Arr) (r : SlotRef) (g : BitVec 8) (remote : Bool) : Nat :=
  ((a.queue ++ a.run.map ArrRun.cmd).filter fun c => c.who == r && c.gen == g && c.remote == remote).length

/-- The array of a quad changed. -/
def State.modArr (s : State) (q : QuadRef) (f : Arr → Arr) : State := s.modQuad q fun x => { x with arr := f x.arr }

/-- The array of a quad. -/
def State.arr (s : State) (q : QuadRef) : Arr := (s.quad q).arr

/-- Cause 16 of a wait on an array (15 R314). -/
def State.arrWait (s : State) (q : QuadRef) (r : SlotRef) (t : Slot) (remote : Bool) : WaitInfo :=
  { cause := 16, addr := toW (q.quad + 64 * q.die), i0 := (s.arr q).occ, i1 := (s.arr q).mine r t.gen remote }

/-- Put a command in a quad's queue; a stream that is the first to wait behind a running one is the pending descriptor (04
R103, R104; 15 R315). -/
def State.pushCmd (s : State) (q : QuadRef) (c : ArrCmd) : State :=
  s.modArr q fun a =>
    let pend := c.kind == 2 && (a.run.any fun x => x.cmd.kind == 2) && !(a.queue.any fun x => x.kind == 2)
    { a with queue := a.queue ++ [c], pendDesc := if pend then some (c.mc.take 32) else a.pendDesc }

/-- A command of the issuing slot for its own quad's array (15 R315). -/
def place (kind : Nat) (keep : Bool) (tile : Nat) (shape : W32) (lim : Word) : Body := fun r t s =>
  let q := r.quadRef
  let mc := copyMc r t
  match mcTrap (handOver r) mc kind with
  | some tr => .trap tr
  | none =>
    if (s.arr q).occ ≥ Config.arrayQueue then .wait lim (s.arrWait q r t false)
    else if !s.mayRelease r .die then notYet r t s
    else
      let c : ArrCmd := {
        id := s.ids, who := r, gen := t.gen, remote := false, kind := kind, keep := keep, tile := tile,
        shape := shape.setWidth 64, mc := mc, seed := t.seed.setWidth 32, at_ := s.now, pc := t.pc, cid := s.cId r, iword := t.iword }
      let s := (s.perform r .die).pushCmd q c
      let s : State := { s with ids := s.ids + 1 }
      .ok (if kind = 2 then s.modSlot r fun u => { u with held := u.held ++ [.matrix q.die q.quad c.id] } else s)

/-- mset (15 R316). -/
def bodyMset (a : Spec) (i : BitVec 9) : Body := fun r t s =>
  let x := readX t a
  if i.toNat ≥ 11 ∧ x ≠ 0 then .trap (rsvIn a x)
  else .ok (s.modSlot r fun u => { u with mc := mput i.toNat x u.mc })

/-- tcfg (15 R320). -/
def bodyTcfg (d a b : Spec) : Body := fun r t s =>
  let x := readX t a
  let y := readX t b
  if !shapeOk (y.setWidth 32) then .trap (illegal 3 b y)
  else if bits x 9 55 ≠ 0 then .trap (rsvIn a x)
  else if bits y 32 32 ≠ 0 then .trap (rsvIn b y)
  else place 4 (x.getLsbD 8) (bits x 0 8) (y.setWidth 32) (readX t d) r t s

/-- The tile of a stream or tout. -/
def mcTile (t : Slot) : Nat := bits (mget 0 5 t.mc) 0 8

/-! ## Reports to the slot -/

/-- Trap of a command that was skipped or stopped, with its snapshot (15 R319; 10 R214). -/
def MatFail.trap (f : MatFail) : Trap :=
  { cls := f.cls, cause := f.cause, addr := f.addr, aux := f.aux,
    tail := some (2, BitVec.ofNat 128 (f.quad % 128 % 64 + f.tile * 2 ^ 8 + f.rows * 2 ^ 32 + f.m * 2 ^ 64)) }

/-- Was it skipped? -/
def MatFail.skipped (f : MatFail) : Bool := f.cls == 1 && f.cause == 5

/-- The next failure to report: the skipped ones first, each kind oldest first (15 R319). -/
def nextFail (t : Slot) (q : QuadRef) (remote : Bool) : Option MatFail :=
  let l := t.fails.filter fun f => f.quad == quadKey q && f.remote == remote
  match l.find? MatFail.skipped with
  | some f => some f
  | none => l.head?

/-- Raise the next failure of an array at the instruction, or acquire at die scope (15 R319, R321). -/
def reportOr (r : SlotRef) (t : Slot) (s : State) (q : QuadRef) (remote : Bool) : Res :=
  match nextFail t q remote with
  | some f =>
    .ok ((s.setSlot r { t with fails := t.fails.filter fun g => g.id != f.id }).takeFault r t.pc 4 f.trap)
  | none => .ok (s.acquire r .die)

/-- mwait (15 R319). -/
def bodyMwait (a : Spec) : Body := fun r t s =>
  let q := r.quadRef
  if (s.arr q).mine r t.gen false ≠ 0 then .wait (readX t a) (s.arrWait q r t false) else reportOr r t s q false

/-- The task that issued a command is told of a failure, where it still runs in its slot or is swapped out from it (05 R385). -/
def State.tellFail (s : State) (c : ArrCmd) (f : MatFail) : State :=
  let t := s.slot c.who
  if t.st ≠ .empty ∧ t.gen = c.gen then s.setSlot c.who { t with fails := t.fails ++ [f] }
  else
    let tell (w : Nat × Swapped) : Nat × Swapped :=
      if w.2.slotRef c.who.ctx = c.who ∧ w.2.slot.gen = c.gen then
        (w.1, { w.2 with slot := { w.2.slot with fails := w.2.slot.fails ++ [f] } })
      else w
    s.modCtx c.who.ctx fun x => { x with swapped := x.swapped.map tell }

/-- A failure of a command. -/
def failOf (q : QuadRef) (c : ArrCmd) (tr : Trap) (rows : Nat) : MatFail where
  id := c.id
  quad := quadKey q
  remote := c.remote
  cls := tr.cls
  cause := tr.cause
  addr := tr.addr
  aux := tr.aux
  tile := if c.kind = 4 ∨ c.kind = 5 then c.tile else mcF c.mc 5 0 8
  rows := rows
  m := if c.kind = 2 then mcF c.mc 3 0 11 else 0

/-! ## Numbers -/

/-- An element's value by kind and format (03 R76). -/
def elemVal (kind fmt n : Nat) : FVal :=
  match kind with
  | 0 => (b8Of fmt).decode n
  | 1 => fp16.decode n
  | _ => bf16.decode n

/-- One term (03 R77). -/
def termOf (x w sx sw : FVal) : FVal := (fMul (fMul x w).1 (fMul sx sw).1).1

/-- Exponent of the term of largest magnitude. -/
def topTerm (ts : List FVal) : Option Int :=
  ts.foldl (fun a t => match t with
    | .fin _ m e => some (match a with
      | some x => max x (topExp m e)
      | none => topExp m e)
    | _ => a) none

/-- A magnitude truncated to a multiple of 2^q, as that multiple. -/
def truncTo (m : Nat) (e q : Int) : Nat := if q ≤ e then m * 2 ^ (e - q).toNat else m / 2 ^ (q - e).toNat

/-- Is a value an infinity of a sign? -/
def isInf (neg : Bool) (x : FVal) : Bool :=
  match x with
  | .inf n => n == neg
  | _ => false

/-- One group of terms (03 R78, R79). -/
def groupSum (ts : List FVal) : W32 :=
  if ts.any FVal.isNan then nan32
  else
    let pos := ts.any (isInf false)
    let neg := ts.any (isInf true)
    if pos && neg then nan32
    else if pos then 0x7F800000
    else if neg then 0xFF800000
    else match topTerm ts with
    | none => 0
    | some top =>
      let q := top - 30
      let z := ts.foldl (fun (a : Int) t => match t with
        | .fin neg m e => if neg then a - (truncTo m e q : Int) else a + (truncTo m e q : Int)
        | _ => a) 0
      BitVec.ofNat 32 (fp32.deliver .rne (ofInt z q false, 0)).1

/-- The sum over K of terms with their K index, and the incoming term (03 R77, R78). -/
def dotSum (k : Nat) (ts : List (Nat × FVal)) (incoming : List FVal) : W32 :=
  let g (j : Nat) : W32 :=
    groupSum ((if j = 0 then incoming else []) ++ (ts.filter fun t => t.1 / 32 == j).map Prod.snd)
  let sum := (List.range (cdiv k 32 - 1)).foldl (fun a j => rAdd a (g (j + 1))) (g 0)
  if zero32 sum then 0 else sum

/-! ## Weight banks -/

/-- Physical rows of a bank (15 R317; log 30). -/
def Bank.rows (b : Bank) : Nat := let mc := [0, 0, 0, 0, 0, 0, b.mc6, b.mc7, b.mc8]; mcF mc 8 0 13 * spN mc / spM mc
/-- Logical K of a bank. -/
def Bank.k (b : Bank) : Nat := bits b.mc8 0 13
/-- Columns of a bank. -/
def Bank.nc (b : Bank) : Nat := bits b.mc8 16 9

/-- The terms of a bank's column n: K index, weight, scale (15 R317). -/
def Bank.col (b : Bank) (n : Nat) : List (Nat × FVal × FVal) :=
  let mc := [0, 0, 0, 0, 0, 0, b.mc6, b.mc7, b.mc8]
  let kind := mcF mc 7 5 3
  let sz := kindSize kind
  let m := spM mc
  let nn := spN mc
  (List.range b.rows).map fun r =>
    let i := r * b.nc + n
    let code := (List.range sz).foldr (fun j a => (mget 0 (i * sz + j) b.data).toNat + 256 * a) 0
    let w := elemVal kind (mcF mc 7 0 5) code
    let scale := if kind = 0 then e5m3Val (mget 0 (r / 32 * b.nc + n) b.scales).toNat else .fin false 1 0
    let nib := (mget 0 (i / 2) b.index).toNat / 16 ^ (i % 2) % 16
    let at_ := if nib < m then nib else Config.sparseIndex nib m % m
    (if mcF mc 7 8 2 = 0 then r else r / nn * m + at_, w, scale)

/-- How an engine's range of reads ends: the bytes; waiting for a page; a trap. -/
inductive Fetched where
  | bytes (bs : List Byte) (s : State)
  | pending (s : State)
  | failed (tr : Trap) (s : State)

/-- Read bytes for the array: access failures and poison stop it (05 R385; 10 R220). -/
def State.arrRead (s : State) (pd : Nat) (w : Who) (a n : Nat) : Fetched :=
  match s.agentEach pd w a .read n with
  | (.pending, s) => .pending s
  | (.bad c k l, s) => .failed (agentTrap c k l a .read) s
  | (.keys ks, s) =>
    match poisonTrap s a ks (fun _ => true) with
    | some tr => .failed tr s
    | none => .bytes (ks.map fun k => memGet k s.mem) s

/-- A table of bytes by offset. -/
def byteMap (bs : List Byte) : Map Byte := (bs.zipIdx.filter fun b => b.1 != 0).map fun b => (b.2, b.1)

/-- Who an array command works for. -/
def ArrCmd.for_ (c : ArrCmd) : Who := ⟨c.who.ctx, c.who, c.cid, c.pc, c.iword, workOf 4 c.id⟩

/-- wld: the shadow bank is read whole; a load that stops leaves the bank not loaded (15 R317; 05 R385; log 45). -/
def State.runWld (s : State) (q : QuadRef) (c : ArrCmd) : Option (State × Option (Trap × Nat)) × State :=
  let pd := s.physDie q.ctx q.die
  let w := c.for_
  let b : Bank := { loaded := true, ever := true, mc6 := mcReg c.mc 6, mc7 := mcReg c.mc 7, mc8 := mcReg c.mc 8 }
  let kind := mcF c.mc 7 5 3
  let sz := kindSize kind
  let a := (mcReg c.mc 34).toNat
  let sparse := mcF c.mc 7 8 2 ≠ 0
  let elems := b.rows * b.nc
  let stop (s : State) (tr : Trap) : Option (State × Option (Trap × Nat)) × State :=
    let s := s.modArr q fun a => { a with shadow := { a.shadow with loaded := false } }
    (some (s, some (tr, 0)), s)
  match s.arrRead pd w a (elems * sz) with
  | .pending s => (none, s)
  | .failed tr s => stop s tr
  | .bytes data s =>
    match s.arrRead pd w (a + elems * sz) (if sparse then cdiv elems 2 else 0) with
    | .pending s => (none, s)
    | .failed tr s => stop s tr
    | .bytes idx s =>
      match s.arrRead pd w (mcReg c.mc 35).toNat (if kind = 0 then cdiv b.rows 32 * b.nc else 0) with
      | .pending s => (none, s)
      | .failed tr s => stop s tr
      | .bytes sc s =>
        let b := { b with data := byteMap data, scales := byteMap sc, index := byteMap idx }
        let s := s.modArr q fun a => { a with shadow := b }
        (some (s, none), s)

/-! ## Streams -/

/-- Key of word i of a quad's accumulator store (05 R113; 15 R320). -/
def accKey (q : QuadRef) (i : Nat) : Nat := pkey .accum (quadKey q) (4 * i)
/-- Word of a tile element (15 R320). -/
def tileWord (shape : W32) (r c : Nat) : Nat := shapeBase shape * 256 + r * shapeCols shape + c

/-- The X elements of an output position: K index, value, scale; a position outside the tensor gives none (15 R318). -/
def State.xRow (s : State) (pd : Nat) (w : Who) (mc : List Word) (p : Nat) : List (Nat × Nat) →
    Option (Except Trap (List (Nat × FVal × FVal))) × State
  | [] => (some (.ok []), s)
  | (i, j) :: rest =>
    let H := mcF mc 1 0 16
    let W := mcF mc 1 16 16
    let C := mcF mc 1 32 16
    let ow := (outW mc).toNat
    let kind := mcF mc 4 5 3
    let sz := kindSize kind
    let h : Int := (p / ow * mcF mc 2 8 4 : Nat) - (mcF mc 2 24 4 : Int) + (i * mcF mc 2 16 4 : Nat)
    let x : Int := (p % ow * mcF mc 2 12 4 : Nat) - (mcF mc 2 28 4 : Int) + (j * mcF mc 2 20 4 : Nat)
    if h < 0 ∨ x < 0 ∨ h ≥ (H : Int) ∨ x ≥ (W : Int) then s.xRow pd w mc p rest
    else
      let pos := (mcF mc 1 48 16 * H + h.toNat) * W + x.toNat
      match s.arrRead pd w ((mcReg mc 32).toNat + pos * C * sz) (C * sz) with
      | .pending s => (none, s)
      | .failed tr s => (some (.error tr), s)
      | .bytes bs s =>
        match s.arrRead pd w ((mcReg mc 33).toNat + pos * cdiv C 32) (if kind = 0 then cdiv C 32 else 0) with
        | .pending s => (none, s)
        | .failed tr s => (some (.error tr), s)
        | .bytes sc s =>
          let here := (List.range C).map fun c =>
            let code := leNat ((bs.drop (c * sz)).take sz)
            let scale := if kind = 0 then e5m3Val (sc.getD (c / 32) 0).toNat else .fin false 1 0
            ((i * mcF mc 2 4 4 + j) * C + c, elemVal kind (mcF mc 4 0 5) code, scale)
          match s.xRow pd w mc p rest with
          | (some (.ok l), s) => (some (.ok (here ++ l)), s)
          | e => e

/-- Kernel positions in K order. -/
def kernel (mc : List Word) : List (Nat × Nat) :=
  (List.range (mcF mc 2 0 4)).flatMap fun i => (List.range (mcF mc 2 4 4)).map fun j => (i, j)

/-- One output row of a stream (15 R318): the terms against every column of the bank. A scale of a group outside the tensor
counts as no operand. -/
def rowOut (b : Bank) (xs : List (Nat × FVal × FVal)) (incoming : Nat → List FVal) : List W32 :=
  let tab : Map (FVal × FVal) := xs
  (List.range b.nc).map fun n =>
    let ts := (b.col n).map fun t =>
      let x := mget (FVal.zero false, FVal.fin false 1 0) t.1 tab
      (t.1, termOf x.1 t.2.1 x.2 t.2.2)
    dotSum b.k ts (incoming n)

/-- How a row of a running command ends: it is there; its page is on its way; the command fails. -/
inductive RowRes where
  | landed (s : State)
  | pending (s : State)
  | failed (s : State) (tr : Trap)

/-- Keys of the words of a tile row, which is one granule (10 R219). -/
def rowKeys (q : QuadRef) (shape : W32) (r : Nat) : List Nat :=
  (List.range (shapeCols shape)).map fun j => accKey q (tileWord shape r j)

/-- Is a tile row poisoned? -/
def State.rowHurt (s : State) (q : QuadRef) (shape : W32) (r : Nat) : Bool :=
  (rowKeys q shape r).any fun k => smem (granuleOf k) s.poison

/-- The trap of a poisoned tile row, at its first word (10 R213, R219). -/
def rowTrap (q : QuadRef) (shape : W32) (r : Nat) : Trap :=
  let k := accKey q (tileWord shape r 0)
  memFault (granuleOf k) (keyOff k)

/-- State with the words of a tile row marked as poisoned. -/
def State.hurtRow (s : State) (q : QuadRef) (shape : W32) (r : Nat) : State :=
  { s with poison := (rowKeys q shape r).foldl (fun p k => sadd (granuleOf k) p) s.poison }

/-- Row m of a stream lands (15 R318; 05 R385); a poisoned row that is written only in part stays poisoned (10 R220). -/
def State.streamRow (s : State) (q : QuadRef) (c : ArrCmd) (m : Nat) : RowRes :=
  let b := (s.arr q).active
  let shape := mget 0 (mcF c.mc 5 0 8) (s.arr q).tiles
  let pd := s.physDie q.ctx q.die
  match s.xRow pd (c.for_) c.mc (mcF c.mc 3 16 32 + m) (kernel c.mc) with
  | (none, s) => .pending s
  | (some (.error tr), s) => .failed s tr
  | (some (.ok xs), s) =>
    let keys := (List.range b.nc).map fun j => accKey q (tileWord shape m j)
    let acc := mcF c.mc 5 8 1 = 1
    let hurt := s.rowHurt q shape m
    if acc ∧ hurt then .failed s (rowTrap q shape m)
    else
      let inc (j : Nat) : List FVal := if acc then [fp32.decode (s.loadLE (keys.getD j 0) 4)] else []
      let out := rowOut b xs inc
      let s := s.store ((keys.zip out).flatMap fun p => (keysFrom p.1 4).zip (leBytes 4 p.2.toNat))
      .landed (if hurt && decide (b.nc < shapeCols shape) then s.hurtRow q shape m else s)

/-! ## Output -/

/-- Generators of a tout, loaded from the seed copied with the command (15 R320). -/
def arrGens (seed : W32) : Map W32 := seedGens seed

/-- Convert the elements of a row in order, drawing from the generators where ornd is 4 (15 R320). -/
def convRow (okind fmt ornd : Nat) (ovf : Bool) (scale : Nat → FVal) : List (Nat × W32) → Map W32 → List Nat × Map W32
  | [], g => ([], g)
  | (c, x) :: rest, g =>
    let d := draw16 (mget 0 (c % 32) g)
    let draws := ornd == 4 && okind != 0
    let mode := modeConv (toW ornd) d.1
    let g := if draws then mput (c % 32) d.2 g else g
    let code := match okind with
      | 0 => x.toNat
      | 1 => (fp16.deliver mode (val32 x, 0)).1
      | 2 => (bf16.deliver mode (val32 x, 0)).1
      | _ => ((b8Of fmt).ofVal ovf mode (fDiv (val32 x) (scale (c / 32))).1).1
    let p := convRow okind fmt ornd ovf scale rest g
    (code :: p.1, p.2)

/-- The scale of a block of 32 elements (15 R320): the least E5M3 value not below amax ÷ maxfinite; 0x78 where amax is 0,
0xFE where an element is infinite or no value is large enough. -/
def blockScale (fmt : Nat) (xs : List W32) : Nat :=
  let mags := xs.map fun x => val32 (x &&& 0x7FFFFFFF)
  let amax := mags.foldl (fun a x => if x.isNan then a else if fLt a x then x else a) (.zero false)
  match amax with
  | .zero _ => 0x78
  | .inf _ => 0xFE
  | _ =>
    let top := (b8Of fmt).decode (b8Of fmt).maxCode
    ((List.range 0xFF).find? fun c => !fLt (fMul (e5m3Val c) top).1 amax).getD 0xFE

/-- Row r of a tout is written, with the generators after it (15 R320; 05 R385); a poisoned row makes poison, behind the
loads that have been performed (10 R220). -/
def State.toutRow (s : State) (q : QuadRef) (c : ArrCmd) (r : Nat) (g : Map W32) : RowRes × Map W32 :=
  let shape := mget 0 (mcF c.mc 5 0 8) (s.arr q).tiles
  let pd := s.physDie q.ctx q.die
  let w := c.for_
  let okind := mcF c.mc 9 0 2
  let fmt := mcF c.mc 9 2 5
  let cols := shapeCols shape
  let sz := if okind = 0 then 4 else if okind = 3 then 1 else 2
  let xs : List W32 := (rowKeys q shape r).map fun k => BitVec.ofNat 32 (s.loadLE k 4)
  let scales := if okind = 3 then (List.range (cols / 32)).map fun b => blockScale fmt ((xs.drop (32 * b)).take 32) else []
  let conv := convRow okind fmt (mcF c.mc 9 8 3) (mcF c.mc 9 7 1 = 1) (fun b => e5m3Val (scales.getD b 0x78))
    (xs.zipIdx.map fun x => (x.2, x.1)) g
  let oa := (mcReg c.mc 36).toNat
  let a := oa + r * cols * sz
  let sa := oa + shapeRows shape * cols + r * (cols / 32)
  match s.agentEach pd w a .write (cols * sz) with
  | (.pending, s) => (.pending s, g)
  | (.bad x k l, s) => (.failed s (agentTrap x k l a .write), g)
  | (.keys ks, s) =>
    match s.agentEach pd w sa .write scales.length with
    | (.pending, s) => (.pending s, g)
    | (.bad x k l, s) => (.failed s (agentTrap x k l sa .write), g)
    | (.keys ss, s) =>
      let hurt := s.rowHurt q shape r
      let s := if hurt then s.sampleEverywhere ((ks ++ ss).map lineOf) else s
      let s := s.store (ks.zip (conv.1.flatMap fun x => leBytes sz x) ++ (ss.zip scales).map fun p => (p.1, BitVec.ofNat 8 p.2))
      (.landed (if hurt then { s with poison := (ks ++ ss).foldl (fun p k => sadd (granuleOf k) p) s.poison } else s), conv.2)

/-! ## Commands start and complete -/

/-- The commands that may start now, by place in the queue: the first once nothing before it runs; a weight load while only streams
are before it (15 R315). -/
def Arr.startable (a : Arr) (now : Nat) : Option Nat :=
  let ready (c : ArrCmd) : Bool := decide (c.at_ + 2 ≤ now)
  match a.queue with
  | [] => none
  | c :: _ =>
    if (a.run.all fun x => x.ahead.contains c.id) && ready c && (decide (a.idleAt < now) || c.kind != 2) then some 0
    else
      let wlds := a.queue.zipIdx.find? fun x => x.1.kind == 0
      match wlds with
      | some (w, i) =>
        if ready w && ((a.queue.take i).all fun x => x.kind == 2) && (a.run.all fun x => x.cmd.kind == 2) then some i else none
      | none => none

/-- Why a command is skipped at its start (15 R315, R317, R318, R320). -/
def Arr.skips (a : Arr) (c : ArrCmd) : Bool :=
  let tile := if c.kind = 5 then c.tile else mcF c.mc 5 0 8
  let sh := mget 0 tile a.tiles
  match c.kind with
  | 1 => !a.shadow.ever
  | 2 =>
    !a.active.loaded || decide (streamK c.mc ≠ a.active.k) || decide (shapeType sh ≠ 0) ||
      decide (shapeRows sh < mcF c.mc 3 0 11) || decide (shapeCols sh < a.active.nc)
  | 5 => decide (shapeRows sh = 0)
  | 6 =>
    decide (shapeRows sh = 0) || (decide (shapeType sh = 1) && decide (mcF c.mc 9 0 2 ≠ 0)) ||
      (decide (mcF c.mc 9 0 2 = 3) && decide (shapeCols sh % 32 ≠ 0))
  | _ => false

/-- Is the die of a quad in token mode (21 R382)? -/
def State.tokenMode (s : State) (q : QuadRef) : Bool := s.pwrcfg.getLsbD (s.physDie q.ctx q.die)

/-- Cycles the next stream of an array waits before its rows enter: the ramp's fillers, and 64 for each degree above 95 while
the device throttles (15 R322; 21 R383). -/
def State.fillers (s : State) (q : QuadRef) : Nat :=
  let a := s.arr q
  let ramp := if s.tokenMode q then 0 else if a.ramped then a.rampFrom + 64 - s.now else 64
  let hot := if s.thr then 64 * (bits s.pwrstat 16 8 - 95) else 0
  ramp + hot

/-- May the array of a quad work: its context runs, not all its cores are in stopped halt groups (10 R222, R226)? -/
def State.arrUp (s : State) (q : QuadRef) : Bool :=
  s.enginesUp q.ctx && !((List.range 4).all fun p => s.coreHalted ⟨q.ctx, q.die, coreAt q.quad p⟩)

/-- A token goes back to the die's ring at the quad's place (21 R382). -/
def State.dropToken (s : State) (q : QuadRef) : State :=
  if !(s.arr q).token then s else
  let s := s.modArr q fun a => { a with token := false, wantToken := false }
  s.modPdie (s.physDie q.ctx q.die) fun d => { d with tokens := d.tokens ++ [s.physQuad q.ctx q.quad] }

/-- Has the array a stream in execution or waiting? -/
def Arr.hasStream (a : Arr) : Bool := a.queue.any (fun c => c.kind == 2) || a.run.any fun x => x.cmd.kind == 2

/-- A quad whose queue holds no stream, and that holds its token for none, gives it back (15 R322; 21 R382). -/
def State.doneToken (s : State) (q : QuadRef) : State :=
  if (s.arr q).hasStream ∨ (s.arr q).holdUntil.isSome then s else s.dropToken q

/-- The next command of a quad's array starts, or is skipped (15 R315). -/
def State.arrStart (s : State) (q : QuadRef) : State :=
  let a := s.arr q
  if !s.arrUp q then s else
  match a.startable s.now with
  | none => s
  | some i =>
    match a.queue[i]? with
    | none => s
    | some c =>
      if c.kind = 2 ∧ !a.skips c ∧ s.tokenMode q ∧ !a.token then s.modArr q fun a => { a with wantToken := true }
      else
        let s := s.modArr q fun a => { a with queue := a.queue.eraseIdx i }
        if a.skips c then (s.tellFail c (failOf q c { cls := 1, cause := 5 } 0)).doneToken q
        else
          let wait := if c.kind = 2 then s.fillers q + enterCycles c.mc a.active + 263 else 0
          let run : ArrRun := { cmd := c, start := s.now, finish := s.now + wait, gens := arrGens c.seed,
                                ahead := (a.queue.take i).map ArrCmd.id }
          s.modArr q fun a =>
            { a with
              run := a.run ++ [run]
              desc := if c.kind = 2 then (c.mc.take 32).zipIdx.map (fun x => (x.2, x.1)) else a.desc
              pendDesc := if c.kind = 2 then ((a.queue.find? fun x => x.kind == 2).map fun x => x.mc.take 32) else a.pendDesc
              ramped := if c.kind = 2 ∧ !s.tokenMode q then true else a.ramped
              rampFrom := if c.kind = 2 ∧ !a.ramped then s.now else a.rampFrom
              hold := if c.kind = 2 then none else a.hold
              holdUntil := if c.kind = 2 then none else a.holdUntil }

/-- The words that a tile names are zeroed (15 R320). -/
def State.zeroTile (s : State) (q : QuadRef) (shape : W32) : State :=
  let n := 4 * shapeRows shape * shapeCols shape
  s.wipe (accKey q (shapeBase shape * 256)) n

/-- What a command other than a stream or a tout does, all of it: the package and its failure, or none while a page is on its
way. -/
def State.runCmd (s : State) (q : QuadRef) (c : ArrCmd) : Option (State × Option (Trap × Nat)) × State :=
  let a := s.arr q
  let done (s : State) : Option (State × Option (Trap × Nat)) × State := (some (s, none), s)
  match c.kind with
  | 0 => s.runWld q c
  | 1 => done (s.modArr q fun a => { a with active := a.shadow, shadow := a.active })
  | 4 =>
    let x : W32 := c.shape.setWidth 32
    let s := s.modArr q fun a => { a with tiles := mput c.tile x a.tiles }
    done (if c.keep then s else s.zeroTile q x)
  | 5 => done (s.zeroTile q (mget 0 c.tile a.tiles))
  | _ => done s

/-- A command leaves execution; a failure is told to its slot (15 R315; 05 R385). -/
def State.arrEnd (s : State) (q : QuadRef) (c : ArrCmd) (f : Option (Trap × Nat)) : State :=
  let s := s.modArr q fun a =>
    { a with
      run := a.run.filter fun y => y.cmd.id != c.id
      idleAt := if c.kind = 2 then s.now else a.idleAt
      desc := match c.kind, a.pendDesc with
        | 2, some mc => mc.zipIdx.map fun x => (x.2, x.1)
        | _, _ => a.desc
      pendDesc := if c.kind = 2 then none else a.pendDesc }
  let s := match f with
    | some (tr, rows) => s.tellFail c (failOf q c tr rows)
    | none => s
  s.doneToken q

/-- A running command changed. -/
def State.modRun (s : State) (q : QuadRef) (id : Nat) (f : ArrRun → ArrRun) : State :=
  s.modArr q fun a => { a with run := a.run.map fun x => if x.cmd.id = id then f x else x }

/-- Rows of a running stream land in order, up to n of them; a failure stops it at its row (15 R318; 05 R385). -/
def State.landRows (s : State) (q : QuadRef) (c : ArrCmd) : Nat → Nat → State
  | 0, _ => s
  | n + 1, m =>
    match s.streamRow q c m with
    | .pending s => s
    | .failed s tr => s.arrEnd q c (some (tr, m))
    | .landed s => (s.modRun q c.id fun x => { x with done := m + 1 }).landRows q c n (m + 1)

/-- The row at which a stream of an array that may not work stops: its next 32-row boundary (10 R222, R226). -/
def rowStop (m : Nat) : Nat := cdiv m 32 * 32

/-- May a running stream of a quad go on: the array may work, and in token mode the quad holds a token, which it gave back if it
stopped (10 R222, R226; 21 R382)? -/
def State.streamUp (s : State) (q : QuadRef) : Bool := s.arrUp q && (!s.tokenMode q || (s.arr q).token)

/-- One arith cycle of a quad's array: the rows that are due land; a stream that has stopped at a boundary stands still (15 R318;
10 R222, R226). -/
def State.arrTick (s : State) (q : QuadRef) : State :=
  match (s.arr q).run.find? fun x => x.cmd.kind == 2 with
  | none => s
  | some x =>
    let due := rowsDue (s.arr q) x s.now
    if s.streamUp q then s.landRows q x.cmd (due - x.done) x.done
    else if x.done % 32 = 0 then s.modRun q x.cmd.id fun x => { x with start := x.start + 1, finish := x.finish + 1 }
    else s.landRows q x.cmd (min due (rowStop x.done) - x.done) x.done

/-- Rows of a tout are written in order, up to n of them; a failed access stops it at its row, poison is told at its end (15
R320; 05 R385; 10 R220). -/
def State.outRows (s : State) (q : QuadRef) (c : ArrCmd) : Nat → Nat → Map W32 → Option Trap → State
  | 0, r, _, hurt => s.arrEnd q c (hurt.map fun t => (t, r))
  | n + 1, r, g, hurt =>
    let shape := mget 0 (mcF c.mc 5 0 8) (s.arr q).tiles
    let hurt := if hurt.isNone && s.rowHurt q shape r then some (rowTrap q shape r) else hurt
    match s.toutRow q c r g with
    | (.pending s, _) => s
    | (.failed s tr, _) => s.arrEnd q c (some (tr, r))
    | (.landed s, g) =>
      (s.modRun q c.id fun x => { x with done := r + 1, gens := g, hurt := hurt }).outRows q c n (r + 1) g hurt

/-- A running command completes: a stream once all its rows have landed, another with its effect (15 R315). -/
def State.arrComplete (s : State) (q : QuadRef) : State :=
  let a := s.arr q
  if !s.arrUp q then s else
  match a.run.find? fun x => decide (x.finish ≤ s.now) && (x.cmd.kind != 2 || decide (x.done ≥ mcF x.cmd.mc 3 0 11)) with
  | none => s
  | some x =>
    match x.cmd.kind with
    | 2 => s.arrEnd q x.cmd none
    | 6 => s.outRows q x.cmd (shapeRows (mget 0 (mcF x.cmd.mc 5 0 8) a.tiles) - x.done) x.done x.gens x.hurt
    | _ =>
      match s.runCmd q x.cmd with
      | (none, s) => s
      | (some (s, f), _) => s.arrEnd q x.cmd f

/-- An array idle for 64 cycles after its last stream ramps down (15 R322). -/
def State.rampDown (s : State) (q : QuadRef) : State :=
  let a := s.arr q
  if a.ramped ∧ !a.hasStream ∧ a.holdUntil.isNone ∧ a.idleAt + 64 ≤ s.now then
    s.modArr q fun a => { a with ramped := false }
  else s

/-- The hold of mburst runs out with no stream: the token is released, and the ramp, but within 64 cycles of the last stream's end (15
R322). -/
def State.holdEnds (s : State) (q : QuadRef) : State :=
  let a := s.arr q
  match a.holdUntil with
  | none => s
  | some h =>
    if h > s.now then s
    else
      let s := s.modArr q fun a => { a with hold := none, holdUntil := none }
      if a.hasStream then s
      else (s.modArr q fun a => { a with ramped := a.ramped && decide (a.idleAt + 64 > s.now), wantToken := false }).dropToken q

/-- Has the stream of an array come to its 32-row boundary, or to its end (10 R222, R226)? -/
def Arr.still (a : Arr) : Bool := a.run.all fun x => x.cmd.kind != 2 || x.done % 32 == 0 || decide (x.done ≥ mcF x.cmd.mc 3 0 11)

/-- Quads of a die whose streams have stopped give their tokens back (21 R382). -/
def State.returnTokens (s : State) (pd : Nat) : State :=
  (List.range 64).foldl (fun s q =>
    match (s.coreAtPhys pd (coreAt q 0)).map CoreRef.quadRef with
    | some k => if (s.arr k).token && !s.arrUp k && (s.arr k).still then s.dropToken k else s
    | none => s) s

/-- Every free token of a die moves one hop; a quad that wants one takes it (21 R382, R383). -/
def State.passTokens (s : State) (pd : Nat) : State :=
  let s := s.returnTokens pd
  let fenced := (s.pdie pd).fenced
  let hop (t : Nat) : Nat :=
    ((List.range 64).map fun i => (t + 1 + i) % 64).find? (fun q => !fenced.getLsbD q) |>.getD t
  let moved := (s.pdie pd).tokens.map hop
  let s := s.modPdie pd fun d => { d with tokens := [] }
  moved.foldl (fun s t =>
    match (s.coreAtPhys pd (coreAt t 0)).map CoreRef.quadRef with
    | some q =>
      let a := s.arr q
      if !s.thr && s.arrUp q && s.tokenMode q && (a.wantToken || a.hasStream) && !a.token then
        s.modArr q fun a => { a with token := true, wantToken := false, holdUntil := a.hold.map fun h => s.now + h }
      else s.modPdie pd fun d => { d with tokens := d.tokens ++ [t] }
    | none => s.modPdie pd fun d => { d with tokens := d.tokens ++ [t] }) s

/-! ## Remote commands -/

/-- msend: the command goes out at the first try; the slot waits for the reply (15 R321). -/
def bodyMsend (d a b : Spec) : Body := fun r t s =>
  let x := readX t a
  let kind := bits x 8 4
  let q : QuadRef := ⟨r.ctx, bits x 6 2, bits x 0 6⟩
  let shape := readX t (a + 1)
  let mc := copyMc r t
  let lim := readX t d
  let more (s : State) (id : Nat) : Res := .hold s lim { s.arrWait q r t true with key := id }
  match t.reply with
  | some (id, cause) =>
    if cause = 0 then
      let s := s.modSlot r fun u => { u with reply := none }
      if kind = 3 then reportOr r { t with reply := none } s q true else .ok s
    else if cause = 255 then more (s.setSlot r t) id
    else .trap { cls := 0x0A, cause := cause, addr := toW (q.quad * 2 ^ 10 + q.die * 2 ^ 16 + s.pkg * 2 ^ 18),
                 aux := BitVec.ofNat 32 (bits (readX t b) 0 6) }
  | none =>
    if kind > 6 then .trap (illegal 3 a x)
    else if !(s.shapeOf r.ctx).hasQuad q.die q.quad then .trap (illegal 4 a x)
    else if kind = 4 ∧ !shapeOk (shape.setWidth 32) then .trap (illegal 3 (a + 1) shape)
    else match mcTrap (handOver r) mc kind with
    | some tr => .trap tr
    | none =>
      if bits x 21 43 ≠ 0 then .trap (rsvIn a x)
      else if kind = 4 ∧ bits shape 32 32 ≠ 0 then .trap (rsvIn (a + 1) shape)
      else if !s.mayRelease r .die then notYet r t s
      else
        let id := s.ids
        let c : MCmd := {
          from_ := r, die := q.die, quad := q.quad, kind := kind, keep := x.getLsbD 20, tile := bits x 12 8, shape := shape,
          cap := readX t b, mc := mc, seed := t.seed.setWidth 32, id := id, pc := t.pc, cid := s.cId r, iword := t.iword }
        let s := ({ s with ids := id + 1 } : State).setSlot r { t with reply := some (id, 255) }
        let s := (s.perform r .die).modCtx r.ctx fun y => { y with cmds := y.cmds ++ [c] }
        more s id

/-- The tile a command kind names, if it names one. -/
def MCmd.tileOf (c : MCmd) : Option Nat :=
  match c.kind with
  | 2 => some (mcF c.mc 5 0 8)
  | 6 => some (mcF c.mc 5 0 8)
  | 4 => some c.tile
  | 5 => some c.tile
  | _ => none

/-- The right a command kind needs, by its bit in byte 7 of the entry (07 R158). -/
def rightBit (kind : Nat) : Nat :=
  match kind with
  | 0 => 57
  | 1 => 57
  | 2 => 58
  | 3 => 58
  | 6 => 59
  | _ => 60

/-- The cause by which a capability refuses a command, 0 for none (07 R159; 10 R209). -/
def capCause (q : Quad) (c : MCmd) : Nat :=
  let e := mget 0 (bits c.cap 0 6) q.caps
  if bits c.cap 6 2 ≠ 0 then 5
  else if !e.getLsbD 56 then 1
  else if bits e 0 56 ≠ bits c.cap 8 56 then 2
  else if !e.getLsbD (rightBit c.kind) then 3
  else match c.tileOf with
  | some t => if t < bits e 64 16 ∨ t > bits e 80 16 then 4 else 0
  | none => 0

/-- A remote command arrives at its quad: it is refused with a report, accepted into the queue, or waits (07 R159; 15
R321). -/
def State.cmdArrives (s : State) (cx i : Nat) : State :=
  match (s.ctx cx).cmds[i]? with
  | none => s
  | some c =>
    let q : QuadRef := ⟨cx, c.die, c.quad⟩
    let t := s.slot c.from_
    let reply (s : State) (cause : Nat) : State := s.modCtx cx fun y =>
      { y with cmds := y.cmds.eraseIdx i, replies := y.replies ++ [{ dst := c.from_, id := c.id, cause := cause }] }
    if !s.enginesUp cx then s else
    let cause := capCause (s.quad q) c
    if cause ≠ 0 then
      let tr : Trap := { cls := 0x0A, cause := cause, addr := toW (c.quad * 2 ^ 10 + c.die * 2 ^ 16 + s.pkg * 2 ^ 18),
                         aux := BitVec.ofNat 32 (bits c.cap 0 6) }
      (reply s cause).report (s.physDie cx c.die) cx c.from_ c.cid c.pc c.iword tr
    else if c.kind = 3 then
      if (s.arr q).mine c.from_ t.gen true ≠ 0 ∨ ((s.ctx cx).cmds.take i).any (fun d => d.from_ == c.from_ && d.die == c.die && d.quad == c.quad)
      then s else reply s 0
    else if (s.arr q).occ ≥ Config.arrayQueue then s
    else
      let a : ArrCmd := {
        id := c.id, who := c.from_, gen := t.gen, remote := true, kind := c.kind, keep := c.keep, tile := c.tile,
        shape := c.shape, mc := c.mc, seed := c.seed, at_ := s.now, pc := c.pc, cid := c.cid, iword := c.iword }
      let s := reply (s.pushCmd q a) 0
      if c.kind = 2 ∧ t.st ≠ .empty then s.modSlot c.from_ fun u => { u with held := u.held ++ [.matrix q.die q.quad c.id] } else s

/-- A reply reaches the slot that waits for it (15 R321). -/
def State.replyArrives (s : State) (cx i : Nat) : State :=
  match (s.ctx cx).replies[i]? with
  | none => s
  | some y =>
    let s := s.modCtx cx fun x => { x with replies := x.replies.eraseIdx i }
    s.modSlot y.dst fun t => match t.reply with
      | some (id, _) => if id = y.id then { t with reply := some (id, y.cause) } else t
      | none => t

/-! ## Power and status -/

/-- mburst (15 R322). -/
def bodyMburst (a : Spec) : Body := fun r t s =>
  let x := readX t a
  if bits x 16 48 ≠ 0 then .trap (rsvIn a x)
  else
    let q := r.quadRef
    let tok := s.tokenMode q
    .ok (s.modArr q fun a =>
      { a with
        hold := if tok then some (bits x 0 16) else none
        holdUntil := if tok ∧ !a.token then none else some (s.now + bits x 0 16 + (if tok then 0 else 64))
        ramped := if tok then a.ramped else true
        rampFrom := if tok ∨ a.ramped then a.rampFrom else s.now
        wantToken := tok && !a.token })

/-- mstat (15 R323). -/
def mstatWord (s : State) (q : QuadRef) (t : Slot) : Word :=
  let a := s.arr q
  let b (x : Bool) (n : Nat) : Nat := if x then 2 ^ n else 0
  toW (rowsLanded a * 2 ^ 32 + b (t.fails.any MatFail.skipped) 9 +
    b (a.token || (a.ramped && decide (a.rampFrom + 64 ≤ s.now))) 8 + b a.active.loaded 7 +
    b (a.shadow.loaded && !(a.run.any fun x => x.cmd.kind == 0)) 6 + b (a.run.any fun x => x.cmd.kind == 0) 5 +
    b (a.run.any fun x => x.cmd.kind == 2) 4 + a.occ)

def execMset (c : Ctl) (a : Spec) (i : BitVec 9) : State → Host.Outcome State Fault Refusal :=
  issue (.mset c a i) c 4 false (rX a) noRegs (guardOn · c) (bodyMset a i)

def execWld (c : Ctl) (a : Spec) : State → Host.Outcome State Fault Refusal :=
  issue (.wld c a) c 4 false (rX a) noRegs (guardOn · c) fun r t s => place 0 false 0 0 (readX t a) r t s

def execWswap (c : Ctl) (a : Spec) : State → Host.Outcome State Fault Refusal :=
  issue (.wswap c a) c 4 false (rX a) noRegs (guardOn · c) fun r t s => place 1 false 0 0 (readX t a) r t s

def execXstr (c : Ctl) (a : Spec) : State → Host.Outcome State Fault Refusal :=
  issue (.xstr c a) c 4 false (rX a) noRegs (guardOn · c) fun r t s => place 2 false 0 0 (readX t a) r t s

def execMwait (c : Ctl) (a : Spec) : State → Host.Outcome State Fault Refusal :=
  issue (.mwait c a) c 4 false (rX a) noRegs (guardOn · c) (bodyMwait a)

def execTcfg (c : Ctl) (d a b : Spec) : State → Host.Outcome State Fault Refusal :=
  issue (.tcfg c d a b) c 4 false (rXXX d a b) noRegs (guardOn · c) (bodyTcfg d a b)

def execTzero (c : Ctl) (a b : Spec) : State → Host.Outcome State Fault Refusal :=
  issue (.tzero c a b) c 4 false (rXX a b) noRegs (guardOn · c)
    fun r t s => place 5 false (bits (readX t a) 0 8) 0 (readX t b) r t s

def execTout (c : Ctl) (a : Spec) : State → Host.Outcome State Fault Refusal :=
  issue (.tout c a) c 4 false (rX a) noRegs (guardOn · c) fun r t s => place 6 false 0 0 (readX t a) r t s

def execMsend (c : Ctl) (d a b : Spec) : State → Host.Outcome State Fault Refusal :=
  issue (.msend c d a b) c 4 false (fun t => [xReg t d, xReg t a, xReg t (a + 1), xReg t b]) noRegs (guardOn · c)
    (bodyMsend d a b)

def execMburst (c : Ctl) (a : Spec) : State → Host.Outcome State Fault Refusal :=
  issue (.mburst c a) c 4 false (rX a) noRegs (guardOn · c) (bodyMburst a)

def execMstat (c : Ctl) (d : Spec) : State → Host.Outcome State Fault Refusal :=
  issue (.mstat c d) c 4 false noRegs (rX d) (guardOn · c) (okBody fun r t s =>
    s.fly r (.value [writeX t d (mstatWord s r.quadRef (s.slot r))]))

end Sys2Proof.Machine
end

