-- ==== Sys2Proof/Machine/EvTask.lean ====
section
/-! DEFINITION. Events of binding and dispatch: ring, handler and stage binds, dealing, siblings, levelling, the stage
governor (01 R18, R19, R22, R34; 02 R41 to R57; 08 R386). An event that is not enabled changes nothing (log 5). -/

namespace Sys2Proof.Machine

open Sys2Proof

/-! ## Binding -/

/-- May a slot's core run a ring entry (01 R15; 02 R51, R56)? A core given to a pipeline takes only what belongs to its card
(log 32). -/
def State.mayRun (s : State) (r : SlotRef) (e : RingEnt) : Bool :=
  let mine (card : Option Nat) : Bool := match s.stageOf r.coreRef with
    | none => true
    | some p => card == some p.1.card
  match e with
  | .record c _ => mine (some c)
  | .sibling c _ _ _ _ _ _ _ _ _ _ => mine c
  | .swapped a =>
    match mfind a (s.ctx r.ctx).swapped with
    | none => false
    | some w =>
      let home := if w.slot.handler.isSome then some w.core else w.slot.pin
      (match home with
        | none => true
        | some k => k == r.core) && mine w.slot.cardId
  | .reserved _ => false

/-- The first ring entry that the core at a quad position may run, for its lowest free slot (02 R51). -/
def State.coreTakes (s : State) (q : QuadRef) (p : Nat) : Option (Nat × RingEnt × SlotRef) :=
  let k : CoreRef := ⟨q.ctx, q.die, coreAt q.quad p⟩
  (((List.range 4).map k.slotRef).find? s.canBind).bind fun r =>
    ((s.quad q).ring.zipIdx.find? fun e => s.mayRun r e.1).map fun e => (e.2, e.1, r)

/-- The next bind of a quad: cores that have taken nothing in this fabric cycle are served in ascending position, one entry
each; where none of them takes one, the next fabric cycle begins (02 R51; 16 R340). -/
def State.nextBind (s : State) (q : QuadRef) : Option (Nat × RingEnt × SlotRef) :=
  match ((List.range 4).filter fun p => !(s.quad q).served.getLsbD p).findSome? (s.coreTakes q) with
  | some x => some x
  | none => (List.range 4).findSome? (s.coreTakes q)

/-- A core has taken a ring entry. -/
def State.noteServed (s : State) (r : SlotRef) : State :=
  let p := posOf r.core
  s.modQuad r.quadRef fun q => { q with served := (if q.served.getLsbD p then 0 else q.served) ||| (1#4 <<< p) }

/-- The fabric cycle of a quad's binds is over where no core that is still to be served may take an entry (02 R51; 20 R364). -/
def State.serveOver (s : State) (q : QuadRef) : State :=
  if (s.quad q).served = 0 ∨ (((List.range 4).filter fun p => !(s.quad q).served.getLsbD p).findSome? (s.coreTakes q)).isSome then s
  else s.modQuad q fun y => { y with served := 0 }

/-- The quads of every context at the end of a cycle. -/
def State.servesOver (s : State) : State :=
  s.quads.foldl (fun s x => if x.2.served = 0 then s else s.serveOver (quadOfKey x.1)) s

/-- A free slot takes the first ring entry it may run (01 R18; 02 R51). -/
def State.bindTask (s : State) (r : SlotRef) : State :=
  match s.nextBind r.quadRef with
  | none => s
  | some (i, e, r') =>
    if r' ≠ r then s else
    let s := (s.noteServed r).modQuad r.quadRef fun q => { q with ring := q.ring.eraseIdx i }
    match e with
    | .record c n => s.bindRecord r c n
    | .sibling _ _ _ _ _ _ _ _ _ _ _ => s.bindSibling r e
    | .swapped a => s.bindSwapped r a
    | .reserved _ => s

def execBindTask (r : SlotRef) (s : State) : Host.Outcome State Fault Refusal := .next (s.bindTask r)

/-- One arith cycle of a slot's task-local zeroing: 512 bytes in ascending order (01 R19). -/
def State.zeroSlot (s : State) (r : SlotRef) : State :=
  match (s.slot r).zero with
  | none => s
  | some n =>
    (s.wipe (localKey r n) 512).modSlot r fun t => { t with zero := if n + 512 ≥ 0x8000 then none else some (n + 512) }

def execTaskLocalZeroing (r : SlotRef) (s : State) : Host.Outcome State Fault Refusal := .next (s.zeroSlot r)

/-- The entry of a core mailbox whose message may start a handler task (01 R21, R22, R33). -/
def State.startable (s : State) (k : CoreRef) (b : Nat) : Option Nat :=
  let x := s.box k b
  match x.mode.toNat with
  | 1 => x.oldest.map Prod.fst
  | 2 =>
    let ok := (x.inSt 2).filter fun e => isDev e.2.src || decide (e.2.time < s.settleAt k.ctx k.die e.2.loc)
    (earliest x.seq (ok.map fun e => (e.1, s.entryMsg k b e.1, e.2.seq))).map Prod.fst
  | _ => none

/-- A message starts a handler task in a free slot; the classes are served in rising order (01 R21, R22). -/
def State.handlerBind (s : State) (r : SlotRef) : State :=
  let k := r.coreRef
  if !s.canBind r then s else
  match (List.range 4).findSome? fun c => (s.startable k (16 + c)).map fun e => (16 + c, e) with
  | some (b, e) => s.bindHandler r b e
  | none => s

def execHandlerBind (r : SlotRef) (s : State) : Host.Outcome State Fault Refusal := .next (s.handlerBind r)

/-- Has a core a bound stage task (02 R56)? -/
def State.hasStage (s : State) (k : CoreRef) : Bool :=
  (List.range 4).any fun n => let t := s.slot (k.slotRef n); t.st != .empty && t.stage.isSome

/-- A core of a pipeline without a bound stage task binds one; a move that is pending takes effect (02 R56, R57). -/
def State.stageBind (s : State) (r : SlotRef) : State :=
  let k := r.coreRef
  let pos := posOf r.core
  if !s.canBind r || s.hasStage k then s else
  match s.stageOf k with
  | none => s
  | some (p, n) =>
    let m := (mfind pos p.moves).getD n
    match p.stages[m]? with
    | none => s
    | some st =>
      if st.closed then s else
      let p := { p with cores := mput pos m p.cores, moves := mdel pos p.moves }
      (s.modQuad r.quadRef fun q => { q with pipe := some p }).bindStage r p m

def execStageBind (r : SlotRef) (s : State) : Host.Outcome State Fault Refusal := .next (s.stageBind r)

/-! ## Dealing -/

/-- The card at the head of a queue, with its number. -/
def State.headCard (s : State) (j : JobQ) : Option (Nat × Card) :=
  j.cards.head?.bind fun id => (mfind id (s.ctx j.ctx).cards).map fun c => (id, c)

/-- Entries of a quad that the dispatcher may deal into (02 R50). -/
def State.dealRoom (s : State) (cx : Nat) (q : Nat × Nat) : Nat :=
  let y := s.quad ⟨cx, q.1, q.2⟩
  if y.requeue = [] then y.ringFree else 0

/-- Is a card's gate open (02 R42)? At a location that the graph does not declare it is: the frontier there reads as never (log
77). -/
def State.gateOpen (s : State) (cx : Nat) (c : Card) : Bool :=
  !c.flags.getLsbD 2 || c.gateOpen || decide (c.time < s.frontierAt cx c.die c.gloc)

/-- Is a queue eligible (02 R43; 08 R386)? A pipeline card waits for its quad to serve no other (log 33). -/
def State.eligible (s : State) (j : JobQ) : Bool :=
  match s.headCard j with
  | none => false
  | some (_, c) =>
    s.enginesUp j.ctx && !s.ctxHalted j.ctx && (c.batch == 0 || s.rootHas j.ctx c.batch) && s.gateOpen j.ctx c &&
      (c.quads.any fun q => decide (0 < s.dealRoom j.ctx q)) &&
      (!c.flags.getLsbD 1 || c.quads.all fun q => (s.quad ⟨j.ctx, q.1, q.2⟩).pipe.isNone)

/-- One queue brought up to date: an open gate stays open; a queue that becomes eligible gives up its credit (02 R42, R47). -/
def State.refreshQueue (s : State) (pd q : Nat) : State :=
  let d := s.pdie pd
  let j := mget {} q d.jobs
  let e := s.eligible j
  let s := match s.headCard j with
    | some (id, c) =>
      if c.flags.getLsbD 2 && !c.gateOpen && s.enginesUp j.ctx && s.gateOpen j.ctx c then
        s.modCtx j.ctx fun x => { x with cards := mput id { c with gateOpen := true } x.cards }
      else s
    | none => s
  s.modPdie pd fun d => { d with jobs := mput q { j with eligible := e, pass := if e && !j.eligible && j.pass < d.v then d.v else j.pass } d.jobs }

/-- Every queue of a die brought up to date. -/
def State.refreshQueues (s : State) (pd : Nat) : State := (s.pdie pd).jobs.foldl (fun s j => s.refreshQueue pd j.1) s

/-- The eligible queue with the least pass, ties to the lower number (02 R46). -/
def PDie.choose (d : PDie) : Option (Nat × JobQ) :=
  (d.jobs.filter fun j => j.2.eligible).foldl (fun a j => match a with
    | none => some j
    | some b => if j.2.pass < b.2.pass then some j else a) none

/-- Records in the next chunk, before the ring's room limits it (02 R44). -/
def Card.chunk (c : Card) : Nat :=
  let rem := c.count - c.next
  min rem (max c.cmin (min c.cmax (Machine.cdiv rem (c.cdiv * c.quads.length))))

/-- The quad with the most free entries, ties to the lowest relative quad number (02 R44), then to the lowest die (log
104). -/
def State.roomiest (s : State) (cx : Nat) (qs : List (Nat × Nat)) : Option (Nat × Nat) :=
  (qs.foldl (fun a q =>
    let n := s.dealRoom cx q
    match a with
    | none => some (q, n)
    | some b => if n > b.2 ∨ (n = b.2 ∧ q.2 < b.1.2) then some (q, n) else a) (none : Option ((Nat × Nat) × Nat))).map Prod.fst

/-- The passes and V after a chunk; V is taken from all of them where one would exceed 2^63 (02 R45, R46). A queue that is not
eligible may have less than V, which it takes again before it is chosen (R47): such a pass becomes 0. -/
def PDie.charge (d : PDie) (q stride n : Nat) : PDie :=
  let j := mget {} q d.jobs
  let d := { d with v := j.pass, jobs := mput q { j with pass := j.pass + toW (stride * n) } d.jobs }
  if d.jobs.any fun x => decide (x.2.pass.toNat > 2 ^ 63) then
    { d with v := 0, jobs := d.jobs.map fun x => (x.1, { x.2 with pass := toW (x.2.pass.toNat - d.v.toNat) }) }
  else d

/-- Chunks that a dispatcher has dealt in the arith cycle that lasts (02 R44; log 81). -/
def State.dealtNow (s : State) (pd : Nat) : Nat := if (s.pdie pd).dealAt = s.now then (s.pdie pd).dealt else 0

/-- A pipeline card gives its quad's cores to its stages (02 R56). -/
def Card.toPipe (c : Card) (id now : Nat) : Pipe :=
  let cores := (List.range 4).filterMap fun p => (c.masks.findIdx? fun m => m.testBit p).map fun n => (p, n)
  { card := id, loc := c.loc, time := c.time, cardAddr := c.addr, stages := c.stages, cores := cores, moves := [],
    governed := now / Config.governPeriod }

/-- A dispatcher chooses a queue and deals one chunk of its head card, at most one in each of the fabric cycles of an arith cycle
(02 R44, R46). The records of a pipeline card take no ring entries; with its last one the quad's cores go to the pipeline (02
R56; log 81). -/
def State.dealChunk (s : State) (pd : Nat) : State :=
  if s.dealtNow pd ≥ Config.dealsPerCycle then s else
  let s := s.refreshQueues pd
  match (s.pdie pd).choose with
  | none => s
  | some (q, j) =>
    match s.headCard j with
    | none => s
    | some (id, c) =>
      match s.roomiest j.ctx c.quads with
      | none => s
      | some t =>
        let k : QuadRef := ⟨j.ctx, t.1, t.2⟩
        let pipe := c.flags.getLsbD 1
        let n := min c.chunk (s.dealRoom j.ctx t)
        let s := if pipe then
            if c.next + n ≥ c.count then s.modQuad k fun y => { y with pipe := some (c.toPipe id (s.now - s.pclock)) } else s
          else s.modQuad k fun y => { y with ring := y.ring ++ (List.range n).map fun i => .record id (c.next + i) }
        let s := s.modCtx j.ctx fun x => { x with cards := mput id { c with next := c.next + n } x.cards }
        let m := s.dealtNow pd + 1
        let s := s.modPdie pd fun d =>
          let d := { d with dealAt := s.now, dealt := m }.charge q (2 ^ 20 / j.tickets) n
          if c.next + n ≥ c.count then { d with jobs := mmod {} q (fun j => { j with cards := j.cards.drop 1 }) d.jobs } else d
        s.refreshQueues pd

def execDealChunk (pd : Nat) (s : State) : Host.Outcome State Fault Refusal := .next (s.dealChunk pd)

/-- A requeued task enters directly behind those that entered before it. Where siblings have entered at the head since, it goes behind
the requeued ones and not ahead of the siblings: the manual leaves open which of its two places that is (02 R49, R50; log 94). -/
def Quad.enter (y : Quad) : Quad :=
  match y.requeue with
  | [] => y
  | a :: rest =>
    if y.ringFree = 0 then y else
    let isSw (e : RingEnt) : Bool := match e with
      | .swapped _ => true
      | _ => false
    let n := (y.ring.zipIdx.filter fun e => isSw e.1).foldl (fun _ e => e.2 + 1) 0
    { y with ring := y.ring.take n ++ [.swapped a] ++ y.ring.drop n, requeue := rest }

/-- The oldest task of a quad's requeue list enters the ring (02 R50); that of a context that is switched out, on restore (10 R223). -/
def State.requeueEnter (s : State) (q : QuadRef) : State := if s.enginesUp q.ctx then s.modQuad q Quad.enter else s

def execRequeueListEntry (q : QuadRef) (s : State) : Host.Outcome State Fault Refusal := .next (s.requeueEnter q)

/-- Has a sibling of a group that is still to enter the ring been cancelled (07 R163)? -/
def State.sibCancelled (s : State) (cx : Nat) (e : RingEnt) : Bool :=
  match e with
  | .sibling _ _ g d i _ _ _ _ _ _ => ((mfind g (s.die cx d).groups).map fun y => y.cancelled.getLsbD i).getD false
  | _ => false

/-- A block of siblings whose count the root has accepted enters the head of the ring; those cancelled meanwhile end (01 R34; 07
R163; 08 R386). -/
def State.siblingsEnter (s : State) (q : QuadRef) : State :=
  match (s.quad q).forks.findIdx? fun f => s.rootHas q.ctx f.batch with
  | none => s
  | some i =>
    match (s.quad q).forks[i]? with
    | none => s
    | some f =>
      let gone := f.ents.filter (s.sibCancelled q.ctx)
      let s := s.modQuad q fun y =>
        { y with ring := (f.ents.filter fun e => !s.sibCancelled q.ctx e) ++ y.ring, forks := y.forks.eraseIdx i }
      gone.foldl (fun s e => s.endUnbound q.ctx q.die e) s

def execGforkSiblingsEnter (q : QuadRef) (s : State) : Host.Outcome State Fault Refusal := .next (s.siblingsEnter q)

/-! ## Levelling -/

/-- May levelling ship an entry (02 R53)? -/
def shippable (e : RingEnt) : Bool :=
  match e with
  | .record _ _ => true
  | .sibling _ _ _ _ _ _ _ _ _ _ _ => true
  | _ => false

/-- Neighbours of a quad on its grid that lie in the shape: north, east, south, west (02 R52). -/
def quadNeighbours (sh : Shape) (d q : Nat) : List Nat :=
  let n := if q ≥ 8 then [q - 8] else []
  let e := if q % 8 < 7 then [q + 1] else []
  let so := if q < 56 then [q + 8] else []
  let w := if q % 8 > 0 then [q - 1] else []
  (n ++ e ++ so ++ w).filter fun x => sh.hasQuad d x

/-- The neighbour with the least depth, ties in order. -/
def leastDepth (depth : Nat → Nat) (l : List Nat) : Option Nat :=
  l.foldl (fun a q => match a with
    | none => some q
    | some b => if depth q < depth b then some q else a) none

/-- What a quad ships in a period: the neighbour and the number of records (02 R52). -/
def shipPlan (sh : Shape) (depth : Nat → Nat) (d q : Nat) : Option (Nat × Nat) :=
  (leastDepth depth (quadNeighbours sh d q)).bind fun b =>
    if depth q > depth b + 8 then some (b, min 16 ((depth q - depth b) / 2)) else none

/-- A quad ships records from the tail of its ring: their entries stay reserved (02 R53, R54). -/
def State.shipFrom (s : State) (cx d q dest n : Nat) : State :=
  let k : QuadRef := ⟨cx, d, q⟩
  let ring := (s.quad k).ring
  let places := (ring.zipIdx.filter fun e => shippable e.1).map Prod.snd
  let go := places.drop (places.length - n)
  if go = [] then s else
  let id := s.ids
  let sh : Ship := { die := d, from_ := q, dest := dest, ents := go.filterMap fun i => ring[i]?, st := 0 }
  let s := ({ s with ids := id + 1 } : State).modQuad k fun y =>
    { y with ring := ring.zipIdx.map fun e => if go.contains e.2 then .reserved id else e.1 }
  s.modCtx cx fun x => { x with ships := mput id sh x.ships }

/-- The levelling decision of a die's quads, in the arith cycle in which a period starts (02 R52). -/
def State.level (s : State) (cx d : Nat) : State :=
  let period := (s.now - s.pclock) / Config.levelPeriod
  let sh := s.shapeOf cx
  if !s.enginesUp cx || decide ((s.now - s.pclock) % Config.levelPeriod ≠ 0) || decide (d ≥ sh.dieCount) || decide (period ≤ (s.die cx d).leveled) then s else
  let depth (q : Nat) : Nat := (s.quad ⟨cx, d, q⟩).ring.length
  let plans := (sh.quadsOn d).filterMap fun q => (shipPlan sh depth d q).map fun p => (q, p)
  let s := s.modDie cx d fun x => { x with leveled := period }
  plans.foldl (fun s p => s.shipFrom cx d p.1 p.2.1 p.2.2) s

def execNeighbourLevelling (cx d : Nat) (s : State) : Host.Outcome State Fault Refusal := .next (s.level cx d)

/-- A shipment arrives: placed at the tail, bounced, or waiting while the context is halted (02 R54). -/
def State.shipArrives (s : State) (cx i : Nat) : State :=
  match (s.ctx cx).ships[i]? with
  | none => s
  | some (id, sh) =>
    if sh.st ≠ 0 || !s.enginesUp cx || s.ctxHalted cx then s else
    let q : QuadRef := ⟨cx, sh.die, sh.dest⟩
    let y := s.quad q
    if y.requeue = [] ∧ sh.ents.length ≤ y.ringFree then
      (s.modQuad q fun y => { y with ring := y.ring ++ sh.ents }).modCtx cx fun x =>
        { x with ships := mput id { sh with ents := [], st := 1 } x.ships }
    else s.modCtx cx fun x => { x with ships := mput id { sh with st := 2 } x.ships }

def execLevellingShipment (cx i : Nat) (s : State) : Host.Outcome State Fault Refusal := .next (s.shipArrives cx i)

/-- The acknowledgement of a shipment: the sender frees the reserved entries (02 R54). -/
def State.shipAck (s : State) (cx i : Nat) : State :=
  match (s.ctx cx).ships[i]? with
  | none => s
  | some (id, sh) =>
    if sh.st ≠ 1 || !s.enginesUp cx then s else
    (s.modQuad ⟨cx, sh.die, sh.from_⟩ fun y => { y with ring := y.ring.filter fun e => e != .reserved id }).modCtx cx
      fun x => { x with ships := mdel id x.ships }

def execShipmentAcknowledge (cx i : Nat) (s : State) : Host.Outcome State Fault Refusal := .next (s.shipAck cx i)

/-- Records back in the entries that were reserved for them. -/
def refill (ship : Nat) : List RingEnt → List RingEnt → List RingEnt
  | [], _ => []
  | e :: l, ents =>
    if e = .reserved ship then (match ents with
      | [] => refill ship l []
      | x :: rest => x :: refill ship l rest)
    else e :: refill ship l ents

/-- A bounced shipment: the records re-enter the sender's ring where they left it (02 R54). -/
def State.shipBounce (s : State) (cx i : Nat) : State :=
  match (s.ctx cx).ships[i]? with
  | none => s
  | some (id, sh) =>
    if sh.st ≠ 2 || !s.enginesUp cx then s else
    (s.modQuad ⟨cx, sh.die, sh.from_⟩ fun y => { y with ring := refill id y.ring sh.ents }).modCtx cx
      fun x => { x with ships := mdel id x.ships }

def execShipmentBounce (cx i : Nat) (s : State) : Host.Outcome State Fault Refusal := .next (s.shipBounce cx i)

/-! ## Stage governor -/

/-- Every die of the contexts that run levels where a period starts (02 R52). -/
def State.levelAll (s : State) : State :=
  if (s.now - s.pclock) % Config.levelPeriod ≠ 0 then s else
  s.ctxs.foldl (fun s x => (List.range 4).foldl (fun s d => s.level x.1 d) s) s

/-- Occupancy of a stage's input ring (02 R57; 06 R137): none where the die's governor cannot read it (log 80). -/
def State.occupancy (s : State) (cx : Nat) (st : Stage) : Nat :=
  match s.agentByte cx st.ring.toNat .read with
  | .keys (k :: _) => s.loadLE k 8 - s.loadLE (k + 8) 8
  | _ => 0

/-- Cores that count for a stage: those without a move pending (02 R57). -/
def Pipe.coresOf (p : Pipe) (n : Nat) : List Nat :=
  (p.cores.filter fun c => c.2 == n && (mfind c.1 p.moves).isNone).map Prod.fst

/-- The move of a period: the core's position and its new stage (02 R57). -/
def Pipe.move (p : Pipe) (occ : Nat → Nat) : Option (Nat × Nat) :=
  let ns := p.stages.zipIdx
  let above := ns.filter fun x => occ x.2 > x.1.high
  let under := ns.filter fun x => occ x.2 < x.1.low && (p.coresOf x.2).length > 1
  let target := above.foldl (fun a x => match a with
    | none => some x.2
    | some b => if occ x.2 > occ b then some x.2 else a) none
  let from_ := under.foldl (fun a x => match a with
    | none => some x.2
    | some b => if occ x.2 ≤ occ b then some x.2 else a) none
  match target, from_ with
  | some t, some f => (p.coresOf f).getLast?.map fun c => (c, t)
  | _, _ => none

/-- The stage governor's decision, in the arith cycle in which a period starts (02 R57). -/
def State.govern (s : State) (q : QuadRef) : State :=
  let period := (s.now - s.pclock) / Config.governPeriod
  match (s.quad q).pipe with
  | none => s
  | some p =>
    if !s.enginesUp q.ctx || decide ((s.now - s.pclock) % Config.governPeriod ≠ 0) || decide (period ≤ p.governed) then s else
    let occ (n : Nat) : Nat := ((p.stages[n]?).map (s.occupancy q.ctx)).getD 0
    let moves := match p.move occ with
      | some (c, t) => mput c t p.moves
      | none => p.moves
    s.modQuad q fun y => { y with pipe := some { p with moves := moves, governed := period } }

def execStageGovernor (q : QuadRef) (s : State) : Host.Outcome State Fault Refusal := .next (s.govern q)

/-- Every quad's governor acts where a period starts (02 R57). -/
def State.governAll (s : State) : State :=
  if (s.now - s.pclock) % Config.governPeriod ≠ 0 then s else
  s.quads.foldl (fun s x => if x.2.pipe.isSome then s.govern ⟨x.1 / 512, x.1 / 128 % 4, x.1 % 128⟩ else s) s

/-! ## Cancelled siblings -/

/-- A sibling that was cancelled ends at its instruction boundary, or once frozen where a fault came first, its count retired without
a release (01 R17; 07 R163). -/
def State.endCancelled (s : State) (r : SlotRef) : State :=
  let t := s.slot r
  if t.st ≠ .empty ∧ t.cancelled ∧ settled t ∧ t.fault.isNone ∧ s.resident r.ctx ∧ !s.coreHalted r.coreRef then s.finish r true else s

def execCancelledSiblingEnd (r : SlotRef) (s : State) : Host.Outcome State Fault Refusal := .next (s.endCancelled r)

/-- The deadline of a group record has been reached: it acts, if its cycle's group unit has not made it act yet, and the record
is then resolved (07 R162, R163). -/
def State.deadlineNow (s : State) (cx d g : Nat) : State :=
  match mfind g (s.die cx d).groups with
  | none => s
  | some y =>
    if y.dline ≠ 0 ∧ y.isOpen ∧ y.left = 0 ∧ s.enginesUp cx ∧ !s.ctxHalted cx then (s.groupDeadline cx d g).resolveGroup cx d g
    else s

def execGroupDeadline (cx d g : Nat) (s : State) : Host.Outcome State Fault Refusal := .next (s.deadlineNow cx d g)

end Sys2Proof.Machine
end

