-- ==== Sys2Proof/Machine/EvMesh.lean ====
section
/-! DEFINITION. Events of the message mesh: injection, delivery, refusal, the group stages of the routers (06 R132, R135,
R136; 07 R154 to R156; 08 R172, R173). -/

namespace Sys2Proof.Machine

open Sys2Proof

/-! ## Send buffers -/

/-- The slot number under which a core's message unit holds the combined messages that its router emitted. -/
abbrev routerSlot : Nat := 5

/-- The slot number under which a core's message unit holds what swapped-out tasks that ended left in their send buffers (06 R135; log
90). -/
abbrev orphanSlot : Nat := 6

/-- The send buffer of a slot, of the core's crossing unit, of its router, or of tasks that ended swapped out. -/
def State.sendBuf (s : State) (r : SlotRef) : List SendEnt :=
  if r.slot = unitSlot then (s.core r.coreRef).xsend
  else if r.slot = routerSlot then (s.core r.coreRef).rsend
  else if r.slot = orphanSlot then (s.core r.coreRef).osend
  else (s.slot r).send

/-- A message of a send buffer changed or taken out, wherever its buffer is now: with a slot, with a crossing unit, with a
swapped-out task. -/
def State.modSend (s : State) (cx id : Nat) (f : SendEnt → Option SendEnt) : State :=
  let g (l : List SendEnt) : List SendEnt := l.filterMap fun e => if e.id = id then f e else some e
  let s := { s with slots := s.slots.map fun (x : Nat × Slot) =>
    if (slotOfKey x.1).ctx = cx ∧ x.2.send ≠ [] then (x.1, { x.2 with send := g x.2.send }) else x }
  let s := { s with cores := s.cores.map fun (x : Nat × Core) =>
    if x.1 / 2048 = cx ∧ (x.2.xsend ≠ [] ∨ x.2.rsend ≠ [] ∨ x.2.osend ≠ []) then
      (x.1, { x.2 with xsend := g x.2.xsend, rsend := g x.2.rsend, osend := g x.2.osend })
    else x }
  s.modCtx cx fun c => { c with swapped := c.swapped.map fun (x : Nat × Swapped) => (x.1, { x.2 with slot := { x.2.slot with send := g x.2.slot.send } }) }

/-- Copies of a message on their way: n more, or one accepted; the last one frees its entry (06 R135). -/
def State.copies (s : State) (cx : Nat) (from_ : Option SlotRef) (id : Nat) (more : Nat) (less : Nat) : State :=
  if from_.isNone then s else
  s.modSend cx id fun e => if e.out + more ≤ less then none else some { e with out := e.out + more - less }

/-- Key of the core a descriptor names. -/
def dstKey (cx : Nat) (d : Word) : Nat := coreKey ⟨cx, dDie d, dCore d⟩

/-- The cores that the copies of a buffered message go to. -/
def State.dests (s : State) (r : SlotRef) (e : SendEnt) : List Nat :=
  match e.group with
  | none => [dstKey r.ctx e.msg.dst]
  | some g => s.groupReach r.ctx g 1024 [] [(r.die, r.core)]

/-- Must a later message of a buffer wait behind an earlier one that has not been accepted everywhere: same destination core
and class, whichever mailbox (06 R135)? Where only refused copies are left, theirs are the cores that count. -/
def State.sameDest (s : State) (r : SlotRef) (a b : SendEnt) : Bool :=
  dCls a.msg.dst == dCls b.msg.dst &&
    match a.group, b.group with
    | none, none => a.msg.dst.extractLsb' 3 19 == b.msg.dst.extractLsb' 3 19
    | some _, none =>
      dPkg b.msg.dst == s.pkg && ((decide (a.out > a.refused.length) && (s.dests r a).contains (dstKey r.ctx b.msg.dst)) ||
        a.refused.any fun x => x.1 == dstKey r.ctx b.msg.dst)
    | none, some _ => dPkg a.msg.dst == s.pkg && (s.dests r b).contains (dstKey r.ctx a.msg.dst)
    | some _, some _ =>
      let l := s.dests r b
      (decide (a.out > a.refused.length) && (s.dests r a).any l.contains) || a.refused.any fun x => l.contains x.1

/-- Has the unit that must know a message's count accepted its batch, and the root forwarded it where the destination is in
another package (08 R172)? -/
def State.countKnown (s : State) (r : SlotRef) (e : SendEnt) : Bool :=
  e.batch == 0 ||
    (if e.group.isNone && dPkg e.msg.dst == s.pkg && dDie e.msg.dst == r.die then s.dieHas r.ctx e.batch
     else s.rootHas r.ctx e.batch &&
       (e.group.isSome || dPkg e.msg.dst == s.pkg || !((s.ctx r.ctx).pod.any fun p => p.id == e.batch && p.pkg == dPkg e.msg.dst)))

/-- Is a buffered message held back by an earlier one of the buffer (06 R135)? -/
def State.heldBack (s : State) (r : SlotRef) (l : List SendEnt) (i : Nat) : Bool :=
  match l[i]? with
  | some e => (l.take i).any (s.sameDest r · e)
  | none => false

/-- A buffered message enters the mesh, in buffer order; messages that a refused one holds back are passed (06 R135; 08
R172). -/
def State.inject (s : State) (r : SlotRef) (i : Nat) : State :=
  let l := s.sendBuf r
  match l[i]? with
  | none => s
  | some e =>
    let passed := (l.take i).zipIdx.all fun x => x.1.sent || s.heldBack r l x.2
    if e.sent || !passed || !s.enginesUp r.ctx || !s.countKnown r e || s.heldBack r l i then s
    else
      let f : Flit := { from_ := some r, ent := e.id, msg := e.msg, group := e.group, die := r.die, core := r.core, port := 4 }
      (s.modSend r.ctx e.id fun e => some { e with sent := true }).modCtx r.ctx fun c => { c with mesh := c.mesh ++ [f] }

def execMessageInjection (r : SlotRef) (i : Nat) (s : State) : Host.Outcome State Fault Refusal := .next (s.inject r i)

/-! ## Delivery -/

/-- Does a router forward a message of a group now, by its entry's mask: not a contribution that it holds, one that waits for its
place, or one that it combines with others still to come (07 R155)? -/
def State.forwards (s : State) (cx : Nat) (f : Flit) (grp : Nat) : Bool :=
  let k : CoreRef := ⟨cx, f.die, f.core⟩
  let e := mget 0 grp (s.core k).groups
  if bits e 5 3 = 1 ∨ bits e 5 3 = 2 then
    match (s.core k).combs.find? fun c => c.group == grp && c.time == f.msg.time with
    | some c => !(c.had.contains f.port || (mfind f.port c.parts).isSome) &&
        ((List.range 5).filter fun p => (bits e 8 5).testBit p).all fun p =>
          p == f.port || c.had.contains p || (mfind p c.parts).isSome
    | none => (s.core k).combs.length ≥ Config.combEntries ||
        ((List.range 5).filter fun p => (bits e 8 5).testBit p).all fun p => p == f.port
  else true

/-- The output ports that a message stands ready at (06 R136; log 91): of a group, those of its router's mask; of another, the local
port of its destination's router, or the links to its package. -/
def State.outPorts (s : State) (cx : Nat) (f : Flit) : List Nat :=
  match f.group with
  | some grp =>
    if s.forwards cx f grp then
      let m := bits (mget 0 grp (s.core ⟨cx, f.die, f.core⟩).groups) 0 5
      ((List.range 5).filter fun p => m.testBit p).map fun p => 8 * coreKey ⟨cx, f.die, f.core⟩ + p
    else []
  | none =>
    if dPkg f.msg.dst ≠ s.pkg then (if s.sendsTo (dPkg f.msg.dst) then [2 ^ 64 + dPkg f.msg.dst] else [])
    else
      let k : CoreRef := ⟨cx, dDie f.msg.dst, dCore f.msg.dst⟩
      if f.from_.isSome || (s.deliver k (dBox f.msg.dst) f.msg).isSome then [8 * coreKey k + 4] else []

/-- Cycles of refusal after which a class goes ahead of the lower ones once: 64 fabric cycles (00 R6; 06 R136). -/
abbrev refusedSpan : Nat := 32

/-- The messages that stand ready at a port. -/
def State.readyAt (s : State) (cx o : Nat) : List Flit := (s.ctx cx).mesh.filter fun g => (s.outPorts cx g).contains o

/-- The class that a port owes a grant: of those refused there for 64 fabric cycles the one refused first, of equals the lowest (06 R136). -/
def State.owed (s : State) (here : List Flit) : Option Nat :=
  let late := here.filterMap fun g => g.since.bind fun n => if n + refusedSpan ≤ s.now then some (n, dCls g.msg.dst) else none
  (late.foldl (fun (a : Option (Nat × Nat)) x => match a with
    | none => some x
    | some y => if x.1 < y.1 ∨ (x.1 = y.1 ∧ x.2 < y.2) then some x else some y) none).map Prod.snd

/-- Is a message granted its ports: each of them grants the class that it owes a grant, else the lowest class that stands ready (06
R136)? -/
def State.granted (s : State) (cx : Nat) (f : Flit) : Bool :=
  (s.outPorts cx f).all fun o =>
    let here := s.readyAt cx o
    match s.owed here with
    | some c => c == dCls f.msg.dst
    | none => !(here.any fun g => decide (dCls g.msg.dst < dCls f.msg.dst))

/-- What a grant does to the messages that stand ready at its ports: those of its class are refused no more, the others from now on,
where they were not before (06 R136). -/
def State.regrant (s : State) (cx : Nat) (f : Flit) : State :=
  let os := s.outPorts cx f
  let after (g : Flit) : Flit :=
    if !(s.outPorts cx g).any os.contains then g
    else if dCls g.msg.dst == dCls f.msg.dst then { g with since := none }
    else { g with since := some (g.since.getD s.now) }
  s.modCtx cx fun c => { c with mesh := c.mesh.map after }

/-- State with a message taken out of the mesh. -/
def State.unmesh (s : State) (cx i : Nat) : State := s.modCtx cx fun c => { c with mesh := c.mesh.eraseIdx i }

/-- A message that its port is granted reaches its destination core, or leaves for another package (06 R132, R135, R136). -/
def State.arriveMsg (s : State) (cx i : Nat) : State :=
  match (s.ctx cx).mesh[i]? with
  | none => s
  | some f =>
    if f.group.isSome || !s.enginesUp cx || !s.granted cx f then s
    else
    let s := s.regrant cx f
    if dPkg f.msg.dst ≠ s.pkg then
      (if s.sendsTo (dPkg f.msg.dst) then ((s.unmesh cx i).copies cx f.from_ f.ent 0 1).linkGood (dPkg f.msg.dst) else s)
    else
      let k : CoreRef := ⟨cx, dDie f.msg.dst, dCore f.msg.dst⟩
      match s.deliver k (dBox f.msg.dst) f.msg with
      | some t => (t.unmesh cx i).copies cx f.from_ f.ent 0 1
      | none =>
        if f.from_.isNone then s
        else (s.unmesh cx i).modSend cx f.ent fun e => some { e with refused := e.refused ++ [(coreKey k, s.now)] }

def execMessageDelivery (cx i : Nat) (s : State) : Host.Outcome State Fault Refusal := .next (s.arriveMsg cx i)

/-- Destination descriptor of a multicast copy at a core: its mailbox of the message's class (13 R286). -/
def State.copyDst (s : State) (d : Word) (k : CoreRef) : Word :=
  toW (bits d 30 12 * 2 ^ 30 + s.pkg * 2 ^ 13 + k.die * 2 ^ 11 + k.core * 2 ^ 3 + 4)

/-- The core of a key. -/
def coreOfKey (k : Nat) : CoreRef := ⟨k / 2048, k / 512 % 4, k % 512⟩

/-- A refused message is offered again 64 cycles after its refusal; of a multicast only the refused copies (06 R135). -/
def State.reoffer (s : State) (r : SlotRef) (i : Nat) : State :=
  match (s.sendBuf r)[i]? with
  | none => s
  | some e =>
    if !s.enginesUp r.ctx then s else
    match e.refused.find? fun x => decide (x.2 + Config.reofferAge ≤ s.now) with
    | none => s
    | some x =>
      let m := if e.group.isNone then e.msg else { e.msg with dst := s.copyDst e.msg.dst (coreOfKey x.1) }
      let f : Flit := { from_ := some r, ent := e.id, msg := m, group := none, die := r.die, core := r.core, port := 4 }
      (s.modSend r.ctx e.id fun e => some { e with refused := e.refused.erase x }).modCtx r.ctx
        fun c => { c with mesh := c.mesh ++ [f] }

def execRefusedMessageReoffer (r : SlotRef) (i : Nat) (s : State) : Host.Outcome State Fault Refusal := .next (s.reoffer r i)

/-! ## Routers -/

/-- The copies of a message that leave a router by a mask (07 R155): by the local port to the core's mailbox. -/
def State.egress (s : State) (f : Flit) (cx : Nat) (m : Nat) : List Flit :=
  (ports m).filterMap fun p =>
    if p = 4 then some { f with group := none, msg := { f.msg with dst := s.copyDst f.msg.dst ⟨cx, f.die, f.core⟩ } }
    else (s.neighbour cx f.die f.core p).map fun n => { f with die := n.1, core := n.2, port := facing p }

/-- Messages forwarded at a router: each copied to the egress ports; where there is none it ends as a dead letter (06 R140;
07 R155). -/
def State.forward (s : State) (cx : Nat) (f : Flit) (ms : List Msg) (m : Nat) : State :=
  let outs := ms.map fun x => (x, s.egress { f with msg := x } cx m)
  let all := outs.flatMap Prod.snd
  let s := (outs.filter fun x => x.2 == []).foldl (fun s x => s.deadLetter ⟨cx, f.die, f.core⟩ x.1 4 false) s
  (s.modCtx cx fun c => { c with mesh := c.mesh ++ all }).copies cx f.from_ f.ent all.length 1

/-- The messages that a drop-zero stage makes of one (07 R155). -/
def dropZeros (m : Msg) : List Msg :=
  ((List.range 32).filter fun j => lane m.payload j != 0).map fun j =>
    { m with payload := BitVec.ofNat 1024 (j + (lane m.payload j).toNat * 2 ^ 32) }

/-- Source field of the n-th combined message. The manual does not say whose it is: a free value but for the bits it fixes,
`dev` and [63:43] zero (06 R129; 07 R155; log 6). -/
def combinedSrc (n : Nat) : Word := Config.combinedSrc n &&& toW (2 ^ 42 - 1)

/-- The payload of a combined message: every NaN as 0x7FC0_0000 (07 R156). -/
def canonNan (v : Vec) : Vec :=
  ofLanes fun i => let x := lane v i; if bits x 23 8 = 255 ∧ bits x 0 23 ≠ 0 then 0x7FC00000 else x

/-- Contributions of a combining entry combined: a partial message that fell out at a gang switch first, then the ports in the
order local, north, east, south, west (07 R156; 08 R173). -/
def Comb.merge (c : Comb) (op : Nat) : Option Msg :=
  let f (a b : W32) : W32 := if op = 1 then rAdd a b else maxNan a b
  let l := c.base.toList ++ [4, 0, 1, 2, 3].filterMap fun p => mfind p c.parts
  match l with
  | [] => none
  | m :: rest =>
    let m := rest.foldl (fun a b =>
      { a with
        payload := ofLanes fun i => f (lane a.payload i) (lane b.payload i)
        weight := a.weight + b.weight
        counted := a.counted || b.counted
        poisoned := a.poisoned || b.poisoned }) m
    some { m with payload := canonNan m.payload }

/-- Has a contribution of a port come? -/
def Comb.has (c : Comb) (p : Nat) : Bool := c.had.contains p || (mfind p c.parts).isSome

/-- A contribution to a reduction (07 R155, R156), by a port of imask or another (log 113): held, combined and emitted, waiting, or
forwarded uncombined. The router's
message unit keeps an emitted message until its copies have been accepted (06 R135, R136). -/
def State.combine (s : State) (cx i : Nat) (f : Flit) (grp op imask emask : Nat) : State :=
  let k : CoreRef := ⟨cx, f.die, f.core⟩
  let cs := (s.core k).combs
  let fits (c : Comb) : Bool := c.group == grp && c.time == f.msg.time && (c.base.toList ++ c.parts.map Prod.snd).all fun p => p.loc == f.msg.loc
  let go (j : Nat) (c : Comb) : State :=
    let c := { c with parts := mput f.port f.msg c.parts }
    let s := (s.unmesh cx i).copies cx f.from_ f.ent 0 1
    if (ports imask).all c.has then
      let s := s.modCore k fun x => { x with combs := x.combs.eraseIdx j }
      match c.merge op with
      | some m =>
        let m := { m with src := combinedSrc s.fresh }
        let e : SendEnt := { id := s.ids, msg := m, batch := 0, group := some grp, sent := true, out := 1, refused := [] }
        let s := ({ s with fresh := s.fresh + 1, ids := s.ids + 1 } : State).modCore k fun x => { x with rsend := x.rsend ++ [e] }
        s.forward cx { f with from_ := some ⟨cx, f.die, f.core, routerSlot⟩, ent := e.id, msg := m } [m] emask
      | none => s
    else s.modCore k fun x => { x with combs := if j < x.combs.length then x.combs.set j c else x.combs ++ [c] }
  match cs.findIdx? fits with
  | some j => match cs[j]? with
    | some c => if c.has f.port then s else go j c
    | none => s
  | none =>
    if cs.length < Config.combEntries then go cs.length { group := grp, time := f.msg.time, parts := [] }
    else (s.unmesh cx i).forward cx f [f.msg] emask

/-- A router applies its group entry to a message that its ports are granted (06 R136; 07 R155). -/
def State.route (s : State) (cx i : Nat) : State :=
  match (s.ctx cx).mesh[i]? with
  | none => s
  | some f =>
    match f.group with
    | none => s
    | some grp =>
      if !s.enginesUp cx || !s.granted cx f then s else
      let s := s.regrant cx f
      let f := { f with since := none }
      let e := mget 0 grp (s.core ⟨cx, f.die, f.core⟩).groups
      let emask := bits e 0 5
      match bits e 5 3 with
      | 1 => s.combine cx i f grp 1 (bits e 8 5) emask
      | 2 => s.combine cx i f grp 2 (bits e 8 5) emask
      | 3 => (s.unmesh cx i).forward cx f (if f.port = 4 then dropZeros f.msg else [f.msg]) emask
      | _ => (s.unmesh cx i).forward cx f [f.msg] emask

def execRouterGroupMessage (cx i : Nat) (s : State) : Host.Outcome State Fault Refusal := .next (s.route cx i)

end Sys2Proof.Machine
end

