-- ==== Sys2Proof/Machine/Fetch.lean ====
section
/-! DEFINITION. Fetching an instruction: the lines a core keeps, permission, poison, the length (05 R116; 09 R189; 10 R217,
R220; 11 R233). -/

namespace Sys2Proof.Machine

open Sys2Proof

/-- How a fetch ends: bytes, a walk that must complete first, a fault. -/
inductive FetchRes where
  | bytes (bs : List Byte)
  | walk (va : Nat)
  | fault (tr : Trap)
deriving DecidableEq, Repr

/-- The two bytes of a unit in a line that the core keeps (09 R189). -/
def keptUnit (c : Core) (va : Nat) : Option (List Byte) :=
  (c.fetched.find? fun l => l.1 == va / 64).map fun l => (l.2.drop (va % 64)).take 2

/-- The line of a unit read at its home. -/
def lineBytes (s : State) (key va : Nat) : List Byte := memBytes s.mem (key - va % 64) 64

/-- A 16-bit unit: from a kept line, else from an executable translated page, behind what the die's bridges carry of its line; a line
without poison is kept (05 R112, R116; 10 R220). -/
def State.fetchUnit (s : State) (r : SlotRef) (va : Nat) : FetchRes × State :=
  match keptUnit (s.core r.coreRef) va with
  | some bs => (.bytes bs, s)
  | none =>
    if region (r.core == supCore) va ≠ .trans then (.fault (transFault 2 va 0 .fetch), s)
    else match s.access r va 2 2 .fetch with
    | .keys (k :: _) =>
      match poisonTrap s va (keysFrom k 2) (fun _ => true) with
      | some tr => (.fault tr, s)
      | none =>
        let s := s.bridgeOut r.ctx r.die [lineOf k]
        let line := lineBytes s k va
        let bs := (line.drop (va % 64)).take 2
        if (poisoned s (keysFrom (k - va % 64) 64)).isSome then (.bytes bs, s)
        else (.bytes bs, s.modCore r.coreRef fun c => { c with fetched := c.fetched ++ [(va / 64, line)] })
    | .walk a _ => (.walk a, s)
    | .fault tr => (.fault tr, s)
    | _ => (.fault (transFault 2 va 0 .fetch), s)

/-- Does a first unit begin a 32-bit instruction (11 R233)? -/
def isLong (bs : List Byte) : Bool :=
  match bs with
  | b :: _ => b.getLsbD 0
  | [] => false

/-- The bytes of the instruction at an address (11 R233). -/
def State.fetchInstr (s : State) (r : SlotRef) (pc : Nat) : FetchRes × State :=
  match s.fetchUnit r pc with
  | (.bytes bs, s) =>
    if isLong bs then
      match s.fetchUnit r (pc + 2) with
      | (.bytes cs, s) => (.bytes (bs ++ cs), s)
      | x => x
    else (.bytes bs, s)
  | x => x

/-- The first unit of the instruction at an address, for a fault between instructions: nothing is kept or walked for it. -/
def State.unitAt (s : State) (r : SlotRef) (pc : Nat) : Option (List Byte) :=
  match (s.fetchUnit r pc).1 with
  | .bytes bs => some bs
  | .fault _ => none
  | .walk _ =>
    match s.agentByte r.ctx pc .fetch with
    | .keys (k :: _) => some (memBytes s.mem k 2)
    | _ => none

/-- Length of the instruction at an address, 0 where it cannot be fetched (10 R217). -/
def State.lenAt (s : State) (r : SlotRef) (pc : Nat) : Nat :=
  match s.unitAt r pc with
  | some bs => if isLong bs then 4 else 2
  | none => 0

/-- The address after n instructions, or what keeps one of them from being fetched. -/
def State.passOver (s : State) (r : SlotRef) : Nat → Word → (Option FetchRes × Word) × State
  | 0, pc => ((none, pc), s)
  | n + 1, pc =>
    match s.fetchUnit r pc.toNat with
    | (.bytes bs, s) => s.passOver r n (pc + if isLong bs then 4 else 2)
    | (x, s) => ((some x, pc), s)

/-- rep: the repetition is set going; where the pass count is 0 the pc goes to the address after the body, whose instructions have
to be fetched for their lengths (12 R272; log 82). -/
def bodyRep (a : Spec) (l n : BitVec 4) : Body := fun r t s =>
  let pc := (s.slot r).pc
  let len := l.toNat + 1
  if readX t a = 0 then
    match s.passOver r len pc with
    | ((none, pc), s) => .ok (s.modSlot r fun u => { u with pc := pc })
    | ((some (.walk va), _), s) => .stay ((s.setSlot r t).startWalk r va .fetch 4)
    | ((some (.fault tr), _), _) => .trap tr
    | ((some (.bytes _), _), s) => .ok s
  else
    .ok (s.modSlot r fun u =>
      { u with rep := some { pass := 0, passes := (readX t a).toNat, pos := 0, len := len, stride := n.toNat, start := pc } })

def execRep (c : Ctl) (a : Spec) (l n : BitVec 4) : State → Host.Outcome State Fault Refusal :=
  issue (.rep c a l n) c 4 true (rX a) noRegs (guardOn · c) (bodyRep a l n)

/-- Low bit positions of the fields of a word that name vector registers (12 R273). -/
def vecFields (i : Instr) : List Nat :=
  match i with
  | .vcmpf .. => [21, 16]
  | .vcmpi .. => [21, 16]
  | .vld .. => [27]
  | .vst .. => [27]
  | .vldx .. => [27, 17]
  | .vstx .. => [27, 17]
  | .vaddI32 .. => [27, 22, 17]
  | .vsubI32 .. => [27, 22, 17]
  | .vmulI32 .. => [27, 22, 17]
  | .vmulhI32 .. => [27, 22, 17]
  | .vand .. => [27, 22, 17]
  | .vor .. => [27, 22, 17]
  | .vxor .. => [27, 22, 17]
  | .vandn .. => [27, 22, 17]
  | .vshl .. => [27, 22, 17]
  | .vshr .. => [27, 22, 17]
  | .vsra .. => [27, 22, 17]
  | .vminI32 .. => [27, 22, 17]
  | .vmaxI32 .. => [27, 22, 17]
  | .vminN32 .. => [27, 22, 17]
  | .vmaxN32 .. => [27, 22, 17]
  | .vabsI32 .. => [27, 22]
  | .vaddF32 .. => [27, 22, 17]
  | .vsubF32 .. => [27, 22, 17]
  | .vmulF32 .. => [27, 22, 17]
  | .vminF32 .. => [27, 22, 17]
  | .vmaxF32 .. => [27, 22, 17]
  | .vabsF32 .. => [27, 22]
  | .vnegF32 .. => [27, 22]
  | .vsqrtF32 .. => [27, 22]
  | .vrcpF32 .. => [27, 22]
  | .vrsqF32 .. => [27, 22]
  | .vexp2F32 .. => [27, 22]
  | .vlog2F32 .. => [27, 22]
  | .vfloorF32 .. => [27, 22]
  | .vceilF32 .. => [27, 22]
  | .vrintF32 .. => [27, 22]
  | .vcopysignF32 .. => [27, 22, 17]
  | .vfmaF32 .. => [27, 22, 17]
  | .vfmsF32 .. => [27, 22, 17]
  | .vfnmaF32 .. => [27, 22, 17]
  | .vfmaF16x2 .. => [27, 22, 17]
  | .vfmaBf16x2 .. => [27, 22, 17]
  | .vdot2F16 .. => [27, 22, 17]
  | .vdot2Bf16 .. => [27, 22, 17]
  | .vdot4I8 .. => [27, 22, 17]
  | .vdot4N8 .. => [27, 22, 17]
  | .vaddF16x2 .. => [27, 22, 17]
  | .vsubF16x2 .. => [27, 22, 17]
  | .vmulF16x2 .. => [27, 22, 17]
  | .vmaxF16x2 .. => [27, 22, 17]
  | .vminF16x2 .. => [27, 22, 17]
  | .vaddBf16x2 .. => [27, 22, 17]
  | .vsubBf16x2 .. => [27, 22, 17]
  | .vmulBf16x2 .. => [27, 22, 17]
  | .vmaxBf16x2 .. => [27, 22, 17]
  | .vminBf16x2 .. => [27, 22, 17]
  | .vcvtF32I32 .. => [27, 22]
  | .vcvtI32F32 .. => [27, 22]
  | .vcvtF32N32 .. => [27, 22]
  | .vcvtN32F32 .. => [27, 22]
  | .vpackF16x2 .. => [27, 22, 17]
  | .vpackBf16x2 .. => [27, 22, 17]
  | .vcvtF32F16 .. => [27, 22]
  | .vcvtF32Bf16 .. => [27, 22]
  | .vcvtB8F32 .. => [27, 22]
  | .vcvtF32B8 .. => [27, 22]
  | .vcvtE5m3F32 .. => [27, 22]
  | .vcvtF32E5m3 .. => [27, 22]
  | .vmov .. => [27, 17]
  | .vbcast .. => [27]
  | .vins .. => [27]
  | .vext .. => [22]
  | .vshuf .. => [27, 22, 17]
  | .vrot .. => [27, 22]
  | .vzlo .. => [27, 22, 17]
  | .vzhi .. => [27, 22, 17]
  | .viota .. => [27]
  | .vsumI32 .. => [22]
  | .vsumF32 .. => [22]
  | .vmaxrF32 .. => [22]
  | .vminrF32 .. => [22]
  | .vmaxrI32 .. => [22]
  | .vminrI32 .. => [22]
  | .vargmaxF32 .. => [22]
  | .vorr .. => [22]
  | .send .. => [27]
  | .mcast .. => [27]
  | .recv .. => [27]
  | .vaddF32_16 .. => [10, 5]
  | .vsubF32_16 .. => [10, 5]
  | .vmulF32_16 .. => [10, 5]
  | .vmaxF32_16 .. => [10, 5]
  | .vminF32_16 .. => [10, 5]
  | .vaddI32_16 .. => [10, 5]
  | .vsubI32_16 .. => [10, 5]
  | .vand16 .. => [10, 5]
  | .vor16 .. => [10, 5]
  | .vxor16 .. => [10, 5]
  | .vmov16 .. => [10, 5]
  | .vaddF16x2_16 .. => [10, 5]
  | .vmulF16x2_16 .. => [10, 5]
  | .vaddBf16x2_16 .. => [10, 5]
  | .vmulBf16x2_16 .. => [10, 5]
  | .vshl16 .. => [10, 5]
  | _ => []

/-- A five-bit field of a word moved on by n modulo 32 (12 R272). -/
def moveField (w n lo : Nat) : Nat :=
  let f := w / 2 ^ lo % 32
  w - f * 2 ^ lo + (f + n) % 32 * 2 ^ lo

/-- The bytes of an instruction as they execute on a pass of a repetition (12 R272, R273). -/
def passBytes (t : Slot) (bs : List Byte) : List Byte :=
  match t.rep with
  | none => bs
  | some x =>
    match decode bs with
    | .error _ => bs
    | .ok (i, len) => leBytes len ((vecFields i).foldl (fun w lo => moveField w (x.pass * x.stride) lo) (leNat (bs.take len)))

/-- The word at a slot's pc as it would execute, 0 where it cannot be fetched: what the packet of a fault raised between
instructions shows (10 R212; 12 R275; log 62). -/
def State.wordAt (s : State) (r : SlotRef) : W32 :=
  let t := s.slot r
  let pc := t.pc.toNat
  match s.unitAt r pc with
  | some bs =>
    let cs := if isLong bs then (s.unitAt r (pc + 2)).getD [] else []
    if isLong bs && cs.isEmpty then 0 else BitVec.ofNat 32 (leNat (passBytes t (bs ++ cs)))
  | none => 0

/-- A slot whose fault falls between instructions, with the word at its pc as the faulting one (10 R212). -/
def State.between (s : State) (r : SlotRef) : State := s.modSlot r fun t => { t with iword := s.wordAt r }

end Sys2Proof.Machine
end

