-- ==== Sys2Proof/Machine/EvTilth.lean ====
section
/-! DEFINITION. Events of counts and frontiers, of landing results, bounded waits, the watchdog, fault packets, walks and
storage, invalidations, engines, barriers, and of store buffers (04 R96, R102; 05 R112, R119 to R122; 06 R141, R145, R146; 08
R171 to R181; 11 R231; 13 R293; 15 R315 to R328; 21 R379). -/

namespace Sys2Proof.Machine

open Sys2Proof

/-! ## Counts and frontiers -/

/-- The oldest entry of a delta buffer has waited its 128 cycles (08 R171); the flush waits while the unit takes no batch
(08 R174). -/
def State.ageFlush (s : State) (k : CoreRef) : State :=
  let c := s.core k
  if c.delta ≠ [] ∧ c.deltaAt + Config.flushAge ≤ s.now ∧ !s.tilthFull k.ctx k.die ∧ s.enginesUp k.ctx then s.flush k none else s

def execDeltaFlushAge (k : CoreRef) (s : State) : Host.Outcome State Fault Refusal := .next (s.ageFlush k)

/-- One notice of a full unit, a die's or the root, until it accepts a batch again (06 R141; 08 R174; log 63). -/
def State.fullNotice (s : State) (cx pd : Nat) (root : Bool) : State :=
  if (if root then (s.pdie pd).toldRoot else (s.pdie pd).toldDie) then s else
  (s.modPdie pd fun d => if root then { d with toldRoot := true } else { d with toldDie := true }).notice pd cx 4
    (toW (if root then 4 else pd))

/-- A die's tilth unit accepts its oldest batch, once it has room for it (08 R174; log 109). -/
def State.tilthAccept (s : State) (cx d : Nat) : State :=
  match (s.ctx cx).inflight.find? fun b => b.die == d with
  | none => s
  | some b =>
    let pd := s.physDie cx d
    if !s.tilthTakes cx b then s.fullNotice cx pd false
    else
      let s := if (s.pdie pd).toldDie then s.modPdie pd fun y => { y with toldDie := false } else s
      (s.modCtx cx fun x => { x with inflight := x.inflight.filter fun y => y.id != b.id }).dieAccept cx b

def execTilthBatchAccept (cx d : Nat) (s : State) : Host.Outcome State Fault Refusal :=
  .next (if s.enginesUp cx then s.tilthAccept cx d else s)

/-- Is the root's table full, the overflow table of die 0 too (08 R174; log 48)? -/
def State.rootFull (s : State) : Bool :=
  decide (s.rootUse ≥ Config.tilthOnChip) && decide ((s.overUsed 0).length ≥ s.overSize 0)

/-- Does the root take a batch whose entries leave it these counts (08 R174; log 109)? -/
def State.rootTakes (s : State) (cx : Nat) (counts : List Delta) : Bool :=
  !s.rootFull && decide ((dropZero counts).length - (s.ctx cx).counts.length ≤ s.rootRoom)

/-- An underflow told: to the fdrop that waits for the batch, which faults, or to the supervisor (08 R175). -/
def State.underflow (s : State) (cx : Nat) (b : Batch) (e : Delta) : State :=
  let tell (s : State) : State :=
    s.report (s.physDie cx b.die) cx ⟨cx, b.die, e.org.r.core, e.org.r.slot⟩ e.org.who e.org.pc e.org.iword (frontierFault 1 e.loc e.time)
  match b.owner with
  | some (r, l, t) =>
    if l = e.loc ∧ t = e.time ∧ !e.held then
      match (s.slot r).fdrop with
      | some (id, pc, rep) =>
        if id = b.id then (s.modSlot r fun u => { u with rep := rep }).takeFault r pc 4 (frontierFault 1 l t) else tell s
      | none => tell s
    else tell s
  | none => tell s

/-- The other packages of the pod, to whose roots this root forwards what it accepts (01 R31; 21 R372; log 85). -/
def State.podOthers (s : State) : List Nat :=
  (List.range 8).flatMap fun i =>
    let w := mget 0 (0x40000 + 8 * i) s.regs
    if w = 0 then [] else (List.range 64).filterMap fun j => if w.getLsbD j && 64 * i + j != s.pkg then some (64 * i + j) else none

/-- The root forwards its oldest batch on the scale-up links (01 R31; 08 R172; 21 R379). -/
def State.podSend (s : State) (cx : Nat) : State :=
  if !s.enginesUp cx || !((s.ctx cx).pod.head?.any fun p => s.sendsTo p.pkg) then s else s.modCtx cx fun x => { x with pod := x.pod.drop 1 }

/-- A batch of another package's root is applied whole and the frontiers are computed anew (01 R31; 08 R175). -/
def State.podTake (s : State) (cx : Nat) (es : List Delta) : State :=
  let p := applyBatch (s.ctx cx).counts es
  if !s.linkUp || !s.enginesUp cx || !s.rootTakes cx p.1 then s else
  let s := (s.modCtx cx fun x => ({ x with counts := dropZero p.1 } : Ctx).recompute).spillRoot
  p.2.foldl (fun s e => s.report (s.physDie cx 0) cx ⟨cx, 0, 0, 0⟩ 0 0 0 (frontierFault 1 e.loc e.time)) s

/-- The root applies its oldest batch whole and computes the frontiers anew; an fdrop that waited for it goes on (08 R175). -/
def State.rootApply (s : State) (cx : Nat) : State :=
  match (s.ctx cx).toRoot with
  | [] => s
  | b :: rest =>
    let p := applyBatch (s.ctx cx).counts b.entries
    if !s.rootTakes cx p.1 then s.fullNotice cx 0 true else
    let s := if (s.pdie 0).toldRoot then s.modPdie 0 fun y => { y with toldRoot := false } else s
    let s := s.modCtx cx fun x => ({ x with toRoot := rest, counts := dropZero p.1 } : Ctx).recompute
    let s := (s.modCtx cx fun x => { x with pod := x.pod ++ s.podOthers.map fun p => ⟨p, b.id, b.entries⟩ }).spillRoot
    let s := p.2.foldl (fun s e => s.underflow cx b e) s
    match b.owner with
    | some (r, _, _) => s.modSlot r fun t => match t.fdrop with
      | some x => if x.1 = b.id then { t with fdrop := none } else t
      | none => t
    | none => s

def execRootBatchApply (cx : Nat) (s : State) : Host.Outcome State Fault Refusal :=
  .next (if s.enginesUp cx then s.rootApply cx else s)

/-- A change of F or F′ arrives at a die: its copies change, and a change of F wakes the slots of the context there (08 R176;
12 R269). -/
def State.broadcast (s : State) (cx d : Nat) : State :=
  let x := s.ctx cx
  let old := s.die cx d
  let s := if old.f = x.f ∧ old.fset = x.fset then s else s.modDie cx d fun y => { y with f := x.f, fset := x.fset }
  if old.f = x.f then s
  else { s with slots := s.slots.map fun (y : Nat × Slot) =>
    let r := slotOfKey y.1
    if r.ctx = cx ∧ r.die = d ∧ y.2.st ≠ .empty then (y.1, { y.2 with wake := true }) else y }

def execFrontierBroadcast (cx d : Nat) (s : State) : Host.Outcome State Fault Refusal :=
  .next (if s.enginesUp cx then s.broadcast cx d else s)

/-! ## Results and waits -/

/-- A variable-latency result lands; not before an earlier fixed-latency write of its register (04 R95, R96). One of another package
has come over its link (21 R379). -/
def State.landResult (s : State) (r : SlotRef) (i : Nat) : State :=
  let t := s.slot r
  match t.flights[i]? with
  | none => s
  | some f =>
    if s.up r.ctx ∧ !(f.regs.any (early t)) then
      match f.lines.find? fun l => keyKind (64 * l) == 6 with
      | some l => (s.landOne r i).linkGood (keyUnit (64 * l))
      | none => s.landOne r i
    else s

def execResultLanding (r : SlotRef) (i : Nat) (s : State) : Host.Outcome State Fault Refusal := .next (s.landResult r i)

/-- The body of an instruction that waits, with its control bits and destinations (11 R231). -/
def waitBody (i : Instr) : Option (Ctl × (Slot → List Reg) × Body) :=
  let base (p : Bool) (a : Spec) (t : Slot) : List Reg := if p then [xReg t a] else []
  match i with
  | .ld c d a o sc z p => some (c, rX d, bodyLoad d a z (addrM · a) (acqOf o sc) p)
  | .st c d a o sc z p => some (c, base p a, bodyStore d a z (addrM · a) (relOf o sc) p)
  | .ldo c d a z f => some (c, rX d, bodyLoad d a z (addrO · a z f) none false)
  | .sto c d a z f => some (c, noRegs, bodyStore d a z (addrO · a z f) none false)
  | .vld c d a o sc z p => some (c, fun t => .v d :: base p a t, bodyVld c d a z (acqOf o sc) p)
  | .vst c d a o sc z p => some (c, base p a, bodyVst c d a z (relOf o sc) p)
  | .vldx c d a b e => some (c, fun _ => [.v d], bodyVldx c d a b e)
  | .vstx c d a b e => some (c, noRegs, bodyVstx c d a b e)
  | .ldf c d a o sc z k => some (c, rX d, bodyLdf d a o sc z k)
  | .send c d a b => some (c, noRegs, bodySend d a b)
  | .mcast c d a b => some (c, noRegs, bodyMcast d a b)
  | .recv c d a b => some (c, fun _ => [.v d], bodyRecv d a b)
  | .mprobe c d a b => some (c, rX d, bodyMprobe d a b)
  | .hdlr c a b => some (c, noRegs, bodyHdlr a b)
  | .fhold c a b => some (c, noRegs, bodyFhold a b)
  | .fdrop c a b => some (c, noRegs, bodyFdrop a b)
  | .fwait c d a b => some (c, noRegs, bodyFwait d a b)
  | .bar c sc a b => some (c, noRegs, bodyBar sc a b true true)
  | .barw c sc a b => some (c, noRegs, bodyBar sc a b false true)
  | .racq c d a b => some (c, rPair d, bodyRacq d a b)
  | .rtake c d a b => some (c, rPair d, bodyRtake d a b)
  | .jpost c a b => some (c, noRegs, bodyJpost a b)
  | .gfork c d a b => some (c, rX d, bodyGfork d a b)
  | .gjoin c d a => some (c, rX d, bodyGjoin d a)
  | .cwait c a b => some (c, noRegs, bodyCwait a b)
  | .sread c a b => some (c, noRegs, bodySilt 0 a b)
  | .swrite c a b => some (c, noRegs, bodySilt 1 a b)
  | .sflush c a b => some (c, noRegs, bodySilt 2 a b)
  | .tlbsync c a => some (c, noRegs, bodyTlbsync a)
  | .park c a => some (c, noRegs, bodyPark a)
  | .wld c a => some (c, noRegs, fun r t s => place 0 false 0 0 (readX t a) r t s)
  | .wswap c a => some (c, noRegs, fun r t s => place 1 false 0 0 (readX t a) r t s)
  | .xstr c a => some (c, noRegs, fun r t s => place 2 false 0 0 (readX t a) r t s)
  | .mwait c a => some (c, noRegs, bodyMwait a)
  | .tcfg c d a b => some (c, noRegs, bodyTcfg d a b)
  | .tzero c a b => some (c, noRegs, fun r t s => place 5 false (bits (readX t a) 0 8) 0 (readX t b) r t s)
  | .tout c a => some (c, noRegs, fun r t s => place 6 false 0 0 (readX t a) r t s)
  | .msend c d a b => some (c, noRegs, bodyMsend d a b)
  | .qdef c a b => some (c, noRegs, bodyQdef a b)
  | .qslope c a b => some (c, noRegs, bodyQchange false a b)
  | .qquant c a b => some (c, noRegs, bodyQchange true a b)
  | .qsnap c d a b => some (c, noRegs, bodyQsnap d a b)
  | .endTask c => some (c, noRegs, bodyEnd)
  | _ => none

/-- The waiting instruction tried again with the operands it read at issue: how its body ends. -/
def State.retryWait (s : State) (r : SlotRef) (w : Wait) : Option Res :=
  let t := s.slot r
  (waitBody w.instr).map fun x =>
    x.2.2 r (applyWrites t w.old) (s.setSlot r (retire (noteRecent { t with wait := none } (x.2.1 t)) s.now x.1.w w.len))

/-- A waiting instruction that something must come before: its walk, and the stores on their way that it waits for (05 R112). -/
def State.staying (s s' : State) (r : SlotRef) : State :=
  ({ s' with slots := s.slots, cur := s.cur } : State).modSlot r fun t => { t with walk := (s'.slot r).walk }

/-- The condition of a bounded wait holds and its instruction completes, or faults (11 R231); else the wait goes on. -/
def State.waitEnds (s : State) (r : SlotRef) : State :=
  match (s.slot r).wait with
  | none => s
  | some w =>
    if !s.mayGoOn r then s else
    match s.retryWait r w with
    | some (.ok s') => s'
    | some (.trap tr) => s.takeFault r (s.slot r).pc w.len tr
    | some (.stay s') => s.staying s' r
    | _ => s

def execWaitSatisfied (r : SlotRef) (s : State) : Host.Outcome State Fault Refusal := .next (s.waitEnds r)

/-- The limit of a bounded wait has run out: a condition that holds now still completes it, another fault comes first, else
fault.wait; an instruction that first needs a walk is judged after it (10 R210, R213; 11 R231; 13 R295). -/
def State.waitOver (s : State) (r : SlotRef) : State :=
  match (s.slot r).wait with
  | none => s
  | some w =>
    if !s.mayGoOn r || w.lim == 0 || w.left != 0 then s else
    let s := s.barMeets r w
    let fault (i : WaitInfo) : State := s.takeFault r (s.slot r).pc w.len (waitFault i w.lim)
    match s.retryWait r w with
    | some (.ok s') => s'
    | some (.trap tr) => s.takeFault r (s.slot r).pc w.len tr
    | some (.wait _ i) => fault i
    | some (.hold _ _ i) => fault i
    | some (.stay s') => s.staying s' r
    | none => fault w.info

def execWaitExpiry (r : SlotRef) (s : State) : Host.Outcome State Fault Refusal := .next (s.waitOver r)

/-- A watchdog that has run out faults at the instruction boundary, or at once in a wait (04 R102; 10 R210); a slot whose walk is on
its way has begun its instruction (18 R355). -/
def State.watchdogFault (s : State) (r : SlotRef) : State :=
  let t := s.slot r
  if t.wdogPend ∧ t.st = .running ∧ t.fault.isNone ∧ t.walk.isNone ∧ s.up r.ctx ∧ !s.coreHalted r.coreRef then
    let len := match t.wait with
      | some w => w.len
      | none => s.lenAt r t.pc.toNat
    (s.modSlot r fun t => { t with wdogPend := false, iword := if t.wait.isSome then t.iword else s.wordAt r }).takeFault r t.pc
      len { cls := 0x0D, cause := 1 }
  else s

def execWatchdogExpiry (r : SlotRef) (s : State) : Host.Outcome State Fault Refusal := .next (s.watchdogFault r)

/-- A packet that met a full queue is offered again after 256 cycles: that of a frozen slot, or the oldest a die holds (06
R141). -/
def State.reofferPacket (s : State) (pd : Nat) (w : Option SlotRef) : State :=
  match w with
  | some r =>
    let t := s.slot r
    match t.packet with
    | none => s
    | some p =>
      if s.physDie r.ctx r.die ≠ pd ∨ t.ready > s.now ∨ !s.up r.ctx then s
      else if s.sqRoom pd then (s.modSlot r fun t => { t with packet := none }).pushPacket pd p
      else s.modSlot r fun t => { t with ready := s.now + Config.packetPeriod }
  | none =>
    let d := s.pdie pd
    match d.heldPkts with
    | [] => s
    | p :: rest =>
      if d.offered + Config.packetPeriod > s.now then s
      else
        let s := s.modPdie pd fun d => { d with offered := s.now }
        if s.sqRoom pd then (s.modPdie pd fun d => { d with heldPkts := rest }).pushPacket pd p else s

def execFaultPacketReoffer (pd : Nat) (w : Option SlotRef) (s : State) : Host.Outcome State Fault Refusal :=
  .next (s.reofferPacket pd w)

/-! ## Walks and storage -/

/-- A walk of a slot completes (05 R119). -/
def State.walkEnds (s : State) (r : SlotRef) (va : Word) (x : Access) : State :=
  match (s.slot r).walk with
  | none => s
  | some (a, y, len) => if a = va.toNat ∧ y = x ∧ s.up r.ctx then s.walkDone r a y len else s

def execPageWalk (r : SlotRef) (va : Word) (x : Access) (s : State) : Host.Outcome State Fault Refusal :=
  .next (s.walkEnds r va x)

def execSiltSubmission (pd e : Nat) (s : State) : Host.Outcome State Fault Refusal := .next (s.siltSubmit pd e)

def execNvmeCompletion (pd cid st : Nat) (s : State) : Host.Outcome State Fault Refusal := .next (s.siltComplete pd cid st)

/-- Slots of a context that hold a task. -/
def State.taskSlots (s : State) (cx : Nat) : List SlotRef :=
  (s.slots.filter fun x => (slotOfKey x.1).ctx == cx && x.2.st != .empty).map fun x => slotOfKey x.1

/-- Every store of a context reaches its home; those to another package stay while no link works (05 R112). -/
def State.drainAll (s : State) (cx : Nat) : State :=
  (s.shapeOf cx).quads.foldl (fun s q =>
    let k : QuadRef := ⟨cx, q.1, q.2⟩
    if (s.quad k).sb = [] then s else s.drainQuad k) s

/-- Every access of a context is performed: loads have their values, stores are at their homes. -/
def State.performAll (s : State) (cx : Nat) : State := ((s.taskSlots cx).foldl (fun s r => s.sampleAll r) s).drainAll cx

/-- Has a context accesses on their way: atomics of other packages, stores that have not reached their homes? -/
def State.outstanding (s : State) (cx : Nat) : Bool :=
  (s.slots.any fun x => (slotOfKey x.1).ctx == cx && !settled x.2) ||
    (s.shapeOf cx).quads.any fun q => (s.quad ⟨cx, q.1, q.2⟩).sb != []

/-- Contexts whose accesses an invalidation of a slot may concern: its own, for a supervisor every resident one. -/
def State.invScope (s : State) (cx : Nat) : List Nat :=
  if cx = 0 then ((s.ctxs.filter fun x => x.2.resident.isSome).map Prod.fst) else [cx]

/-- A slot's invalidations are acknowledged: every access under the old translation is at its home (05 R121). -/
def State.ackInv (s : State) (r : SlotRef) : State :=
  if (s.slot r).inv = 0 ∨ !s.up r.ctx then s
  else
    let cs := s.invScope r.ctx
    let s := cs.foldl (fun s cx => s.performAll cx) s
    if cs.any s.outstanding then s else s.modSlot r fun t => { t with inv := 0 }

def execTlbinvAcknowledge (r : SlotRef) (s : State) : Host.Outcome State Fault Refusal := .next (s.ackInv r)

/-! ## Engines -/

def execCopyEntryRelease (cx d ch : Nat) (s : State) : Host.Outcome State Fault Refusal := .next (s.copyStart cx d ch)

def execCopyLineWritten (cx d ch : Nat) (s : State) : Host.Outcome State Fault Refusal := .next (s.copyLine cx d ch)

def execCopyEntryComplete (cx d ch : Nat) (s : State) : Host.Outcome State Fault Refusal := .next (s.copyDone cx d ch)

def execArrayCommandStart (q : QuadRef) (s : State) : Host.Outcome State Fault Refusal := .next (s.arrStart q)

def execArrayCommandComplete (q : QuadRef) (s : State) : Host.Outcome State Fault Refusal := .next (s.arrComplete q)

def execMsendCommandArrival (cx i : Nat) (s : State) : Host.Outcome State Fault Refusal := .next (s.cmdArrives cx i)

def execMsendReply (cx i : Nat) (s : State) : Host.Outcome State Fault Refusal := .next (s.replyArrives cx i)

def execArrayRampDown (q : QuadRef) (s : State) : Host.Outcome State Fault Refusal := .next (s.rampDown q)

def execTokenPass (pd : Nat) (s : State) : Host.Outcome State Fault Refusal := .next (s.passTokens pd)

def execBurstHoldExpiry (q : QuadRef) (s : State) : Host.Outcome State Fault Refusal := .next (s.holdEnds q)

def execCrossingFiring (k : CoreRef) (s : State) : Host.Outcome State Fault Refusal := .next (s.fire k)

def execQsnapSample (cx i : Nat) (s : State) : Host.Outcome State Fault Refusal := .next (s.sampleSnap cx i)

def execBarrierCompletion (cx : Nat) (sc : Scope) (u id : Nat) (s : State) : Host.Outcome State Fault Refusal :=
  .next (s.barDone cx sc u id)

/-! ## Stores and errors -/

/-- A store-buffer entry reaches its line's home, after the earlier ones of its line (05 R112). -/
def State.storeHome (s : State) (q : QuadRef) (i : Nat) : State :=
  let sb := (s.quad q).sb
  match sb[i]? with
  | none => s
  | some e =>
    if !s.up q.ctx || !s.canLeave e || (sb.take i).any fun x => x.line == e.line then s
    else
      let s := if e.out then s else s.bridgeOut q.ctx q.die [e.line]
      let s := (s.store e.bytes).modQuad q fun x => { x with sb := x.sb.eraseIdx i }
      if farEnt e then s.linkGood (keyUnit (64 * e.line)) else s

def execStoreReachesHome (q : QuadRef) (i : Nat) (s : State) : Host.Outcome State Fault Refusal := .next (s.storeHome q i)

end Sys2Proof.Machine
end

