-- ==== Sys2Proof/Machine/EvGang.lean ====
section
/-! DEFINITION. Gang switches, halt groups, the supervisor's commands for slots and swapped-out tasks, fencing (05 R123; 06
R148, R149; 10 R216 to R229; 21 R374). -/

namespace Sys2Proof.Machine

open Sys2Proof

/-! ## Switch requests -/

/-- Does a partition other than p use a context, or is it about to (10 R221)? -/
def State.usedElsewhere (s : State) (p cx : Nat) : Bool :=
  s.parts.any fun x => x.1 != p &&
    (x.2.ctx == cx || (x.2.cur.map SwReq.ctx) == some cx || (x.2.queued.map SwReq.ctx) == some cx)

/-- May a partition take a context: it exists, its image has the shape, no other partition uses it (10 R221)? -/
def State.fitsPart (s : State) (p cx : Nat) : Bool :=
  match (s.part p).place with
  | none => false
  | some pl =>
    cx == 0 || ((s.ctx cx).exist && ((s.ctx cx).shape.all fun sh => sh == pl.shape) && !s.usedElsewhere p cx)

/-- First die of a partition. -/
def Part.firstDie (x : Part) : Nat := (x.place.map fun pl => pl.physDie 0).getD 0

/-- Queue a request behind a switch in progress, or refuse it (10 R224). -/
def Part.enqueue (x : Part) (q : SwReq) : Part :=
  let cur := (x.cur.map SwReq.prio).getD 0
  if q.prio ≤ cur then { x with res := 3 }
  else match x.queued with
  | none => { x with queued := some q }
  | some o => if o.prio < q.prio then { x with queued := some q, res := 2 } else { x with res := 3 }

/-- A write to pswctl (10 R221, R224). -/
def State.switchRequest (s : State) (p : Nat) (v : Word) : State :=
  let s := s.modPart p fun x => { x with prio := v.extractLsb' 16 2, tctx := v.setWidth 16 }
  let x := s.part p
  let q : SwReq := { t := x.pswtime, prio := bits v 16 2, ctx := bits v 0 16 }
  if x.place.isNone || !s.fitsPart p q.ctx then s.modPart p fun x => { x with res := 4 }
  else if x.st ≥ 2 then s.modPart p fun x => x.enqueue q
  else if q.ctx = x.ctx then s.modPart p fun x => { x with res := 1, st := 0, cur := none }
  else s.modPart p fun x => { x with res := if x.st = 1 then 2 else 0, st := 1, cur := some q }

/-- A switch request with its time: pswtime, then pswctl (10 R221). -/
def State.switchAt (s : State) (p : Nat) (t v : Word) : State :=
  (s.modPart p fun x => { x with pswtime := t }).switchRequest p v

/-- What a write to the control space does: nothing in recovery and in the boot ROM, where the block it goes to does not answer (21
R380). -/
def State.whenBooted (s u : State) : State := if s.boot = 2 then u else s

def execGangSwitchRequest (p : Nat) (t v : Word) (s : State) : Host.Outcome State Fault Refusal :=
  .next (s.whenBooted (s.switchAt p t v))

/-! ## Stop -/

/-- A slot stops at its instruction boundary: atomics are executed and results land, as they come, a wait is given up and will be
reissued (04 R97; 10 R222). -/
def State.stopSlot (s : State) (r : SlotRef) : State :=
  ((s.atomicsHome r).landSlot r).modSlot r fun t => { t with wait := none, walk := none }

/-- Apply a context's batches one after the other, at its dies and at the root, as far as the units take them (08 R171, R174, R177; 10
R222). -/
def State.settleCounts (s : State) (cx : Nat) : State :=
  let s := (List.range (s.shapeOf cx).dieCount).foldl (fun s d =>
    iter ((s.ctx cx).inflight.filter fun b => b.die == d).length (fun _ s => s.tilthAccept cx d) s) s
  iter (s.ctx cx).toRoot.length (fun _ s => s.rootApply cx) s

/-- Cores of a context. -/
def State.coresOf (s : State) (cx : Nat) : List CoreRef := (s.shapeOf cx).cores.map fun c => ⟨cx, c.1, c.2⟩

/-- A router's open combining entry falls out as one partial message, which goes back into the same entry (07 R156). -/
def State.partial_ (s : State) (k : CoreRef) (c : Comb) : Comb :=
  let m := c.merge (bits (mget 0 c.group (s.core k).groups) 5 3)
  { c with base := m, had := (List.range 5).filter c.has, parts := [] }

/-- The entries of the fallout buffer: the messages with the router each fell out at, the partial messages, the shipments; with
each, whether its payload is poisoned (06 R148; 10 R220; log 36). -/
def State.falloutEntries (s : State) (cx : Nat) : List (List Byte × Bool) :=
  let at_ (die core port : Nat) : Nat := core + die * 2 ^ 8 + port * 2 ^ 16
  ((s.ctx cx).mesh.map fun f => (f.msg.letter (at_ f.die f.core f.port) 0, f.msg.poisoned)) ++
    ((s.coresOf cx).flatMap fun k => (s.core k).combs.flatMap fun c => c.base.toList.map fun m => (m.letter (at_ k.die k.core 5) 0, m.poisoned)) ++
    (((s.ctx cx).ships.filter fun x => x.2.st != 1).map fun x => (leBytes 192 (Config.shipEntry x.1).toNat, false))

/-- Entries written into a partition's fallout buffer, as far as it reaches. -/
def State.writeFallout (s : State) (p : Nat) (es : List (List Byte × Bool)) : State :=
  let x := s.part p
  es.zipIdx.foldl (fun s e =>
    let k := pkey .hbm 0 (x.foBase.toNat + 192 * e.2)
    if 192 * (e.2 + 1) ≤ x.foSize.toNat then s.storeHurt (cellsFrom k e.1.1) e.1.2 (keysFrom (k + 64) 128) else s) s

/-- What is in flight in a context's mesh falls out (06 R148): messages, open combining entries, shipments. -/
def State.fallOut (s : State) (p cx : Nat) : State :=
  let s := { s with cores := s.cores.map fun (x : Nat × Core) =>
    if x.1 / 2048 = cx ∧ x.2.combs ≠ [] then (x.1, { x.2 with combs := x.2.combs.map (s.partial_ (coreOfKey x.1)) }) else x }
  (s.writeFallout p (s.falloutEntries cx)).modCtx cx fun x => { x with fallout := x.fallout ++ x.mesh, mesh := [] }

/-- What of a context comes to rest at a stop, as far as it can: its slots, its delta buffers, its batches (10 R222). -/
def State.rest (s : State) (cx : Nat) : State :=
  let s := (s.taskSlots cx).foldl State.stopSlot s
  let s := (s.coresOf cx).foldl (fun s k => s.flush k none) s
  s.settleCounts cx

/-- A partition stops at T: slots, buffers, messages in the mesh (10 R222; 06 R148). Engine work stays where the image keeps it
(log 36). -/
def State.stopPart (s : State) (p : Nat) : State :=
  let cx := (s.part p).ctx
  let s := s.modPart p fun x => { x with st := 2 }
  if cx = 0 then s else ((s.rest cx).fallOut p cx).modCtx cx fun x => { x with savedAt := s.now }

/-- A switch starts at its time (10 R222). -/
def State.switchStart (s : State) (p : Nat) : State :=
  let x := s.part p
  match x.cur with
  | none => s
  | some q => if x.st = 1 ∧ q.t ≤ s.clock then s.stopPart p else s

def execGangSwitchStart (p : Nat) (s : State) : Host.Outcome State Fault Refusal := .next (s.switchStart p)

/-! ## Save -/

/-- Lies a handed-over address in a partition's vaults or local store (05 R107)? -/
def inPartition (a : Nat) : Bool :=
  match region false a with
  | .trans => false
  | .nothing => false
  | _ => true

/-- Has a slot of a context a result on its way, or a fault that waits for one (04 R97)? -/
def State.unrested (s : State) (cx : Nat) : Bool :=
  s.slots.any fun x => (slotOfKey x.1).ctx == cx && (x.2.flights != [] || x.2.pend != [] || x.2.fault.isSome)

/-- Has a context work that must end before the save (10 R222): results on their way, stores that no link carries, batches that no
tilth unit has applied, silt requests into its vaults or local store, streams that are not at a 32-row boundary? -/
def State.mustWait (s : State) (cx : Nat) : Bool :=
  s.unrested cx || s.outstanding cx || (s.ctx cx).inflight != [] || (s.ctx cx).toRoot != [] ||
    (s.pdies.any fun d => d.2.silt.any fun q => q.ctx == cx && q.fault.isNone && inPartition q.buf) ||
    (s.shapeOf cx).quads.any fun q => !(s.arr ⟨cx, q.1, q.2⟩).still

/-- Halt groups of a die that have members in a place. -/
def State.haltsIn (s : State) (pl : Place) (pd : Nat) : List (Nat × Halt) :=
  (s.pdie pd).halts.filter fun h => (List.range 256).any fun pk =>
    (h.2.mem.getD (pk / 64) 0).getLsbD (pk % 64) && (pl.relCore pd pk).isSome

/-- Lie all members of a group in a place? -/
def Halt.inside (h : Halt) (pl : Place) (pd : Nat) : Bool :=
  (List.range 256).all fun pk => !(h.mem.getD (pk / 64) 0).getLsbD (pk % 64) || (pl.relCore pd pk).isSome

/-- The halted state of a context goes into its image (10 R223, R227). -/
def State.saveHalts (s : State) (cx : Nat) (pl : Place) : State :=
  (List.range pl.shape.dieCount).foldl (fun s d =>
    let pd := pl.physDie d
    ((s.haltsIn pl pd).filter fun h => h.2.st ≠ 0).foldl (fun s h =>
      let mem := (List.range 256).filterMap fun pk => if (h.2.mem.getD (pk / 64) 0).getLsbD (pk % 64) then pl.relCore pd pk else none
      let s := s.modCtx cx fun x => { x with halted := x.halted ++ [⟨pd, d, h.1, h.2.since, mem.map Prod.snd, false⟩] }
      if h.2.inside pl pd then s.modPdie pd fun y => { y with halts := mput h.1 { h.2 with st := 0 } y.halts } else s) s) s

/-- The dispatcher queues of a context on a die go into its image, with the dispatcher's V; their assignment stays (02 R45; 10
R223). -/
def State.saveJobs (s : State) (cx d pd : Nat) : State :=
  let js := (s.pdie pd).jobs.filter fun j => j.2.ctx == cx
  let s := s.modCtx cx fun x =>
    { x with jobs := js.foldl (fun m j => mput (d * 256 + j.1) j.2 m) x.jobs, vs := mput d (s.pdie pd).v x.vs }
  s.modPdie pd fun y => { y with jobs := y.jobs.map fun (j : Nat × JobQ) =>
    if j.2.ctx = cx then (j.1, { j.2 with cards := [], eligible := false }) else j }

/-- The overflow entries of a context go into its image: they leave the tables (08 R177). -/
def State.saveOver (s : State) (cx d pd : Nat) : State :=
  (s.writeOver pd (s.die cx d).moved []).modDie cx d fun x => { x with moved := [] }

/-- The next target of a switch whose save has ended: a queued request takes the place of the original one (10 R224). -/
def State.retarget (s : State) (p : Nat) : State :=
  let x := s.part p
  match x.queued with
  | none => s
  | some q =>
    (s.modPart p fun x => { x with cur := some q, queued := none, res := 2 }).notice x.firstDie 0 6 (toW p)

/-- The image of a partition's context is complete, as data of the context: the save ends (10 R222, R223; log 27). -/
def State.saveNow (s : State) (p : Nat) : State :=
  let x := s.part p
  let cx := x.ctx
  let s : State := match x.place with
    | none => s
    | some pl =>
      if cx = 0 then s else
      let s := s.saveHalts cx pl
      let s := (List.range pl.shape.dieCount).foldl (fun s d => (s.saveJobs cx d (pl.physDie d)).saveOver cx d (pl.physDie d)) s
      (s.writeOver 0 (s.ctx cx).moved []).modCtx cx fun c =>
        { c with resident := none, shape := some pl.shape, moved := [], leftAt := s.now }
  (s.modPart p fun x => { x with st := 4, ctx := 0 }).retarget p

/-- Tokens that a context's quads hold go back, their streams having stopped (21 R382). -/
def State.dropTokens (s : State) (cx : Nat) : State :=
  (s.shapeOf cx).quads.foldl (fun s q => s.dropToken ⟨cx, q.1, q.2⟩) s

/-- A switch goes on: once the outgoing context's stores are performed and its work has come to rest the save begins; then it
ends (10 R221 to R223). -/
def State.switchSave (s : State) (p : Nat) : State :=
  let x := s.part p
  if x.st = 3 then s.saveNow p
  else if x.st ≠ 2 then s
  else
    if x.ctx = 0 then s.modPart p fun x => { x with st := 3 } else
    let s := (s.rest x.ctx).performAll x.ctx
    if s.mustWait x.ctx then s else (s.dropTokens x.ctx).modPart p fun x => { x with st := 3 }

def execGangSwitchSave (p : Nat) (s : State) : Host.Outcome State Fault Refusal := .next (s.switchSave p)

/-! ## Restore -/

/-- Cycle numbers of a slot moved on by the time its context was out. -/
def Slot.shift (t : Slot) (n : Nat) : Slot :=
  { t with ready := t.ready + n, wake := true, send := t.send.map fun (e : SendEnt) =>
    { e with refused := e.refused.map fun (x : Nat × Nat) => (x.1, x.2 + n) } }

/-- Cycle numbers of a core moved on; what it fetched is dropped. -/
def Core.shift (c : Core) (n : Nat) : Core :=
  { c with
    deltaAt := c.deltaAt + n, fetched := []
    xsend := c.xsend.map fun (e : SendEnt) => { e with refused := e.refused.map fun (x : Nat × Nat) => (x.1, x.2 + n) }
    rsend := c.rsend.map fun (e : SendEnt) => { e with refused := e.refused.map fun (x : Nat × Nat) => (x.1, x.2 + n) }
    osend := c.osend.map fun (e : SendEnt) => { e with refused := e.refused.map fun (x : Nat × Nat) => (x.1, x.2 + n) } }

/-- Cycle numbers of an array moved on: those of what runs, which stopped last, by m (10 R222). -/
def Arr.shift (a : Arr) (n m : Nat) : Arr :=
  { a with
    queue := a.queue.map fun (c : ArrCmd) => { c with at_ := c.at_ + n }
    run := a.run.map fun (x : ArrRun) => { x with start := x.start + m, finish := x.finish + m }
    rampFrom := a.rampFrom + n, idleAt := a.idleAt + n, holdUntil := a.holdUntil.map fun h => h + n
    token := false, wantToken := a.wantToken || a.token }

/-- Everything of a context that names a cycle moved on; read caches and translations dropped (10 R222). -/
def State.shiftCtx (s : State) (cx n m : Nat) : State :=
  let s := { s with slots := s.slots.map fun (x : Nat × Slot) =>
    if (slotOfKey x.1).ctx = cx ∧ x.2.st ≠ Bound.empty then (x.1, x.2.shift n) else x }
  let s := { s with cores := s.cores.map fun (x : Nat × Core) => if x.1 / 2048 = cx then (x.1, x.2.shift n) else x }
  { s with quads := s.quads.map fun (x : Nat × Quad) =>
    if x.1 / 512 = cx then (x.1, { x.2 with rcache := [], tlb := [], arr := x.2.arr.shift n m }) else x }

/-- The dispatcher queues of an image come back to a die, with V (02 R45; 10 R223; log 84). A queue that the driver has meanwhile
given to another context stays in the image (log 37); one that it has given to the same context again takes the image's tickets, depth,
base, pass and cards (log 95). -/
def State.loadJobs (s : State) (cx d pd : Nat) : State :=
  let s := match mfind d (s.ctx cx).vs with
    | some v => s.modPdie pd fun y => { y with v := v }
    | none => s
  (List.range 256).foldl (fun s q =>
    match mfind (d * 256 + q) (s.ctx cx).jobs with
    | none => s
    | some j =>
      let here := (mget {} q (s.pdie pd).jobs).ctx
      if here ≠ cx ∧ here ≠ 0 then s else
      (s.modPdie pd fun y => { y with jobs := mput q { j with eligible := false } y.jobs }).modCtx cx fun x =>
        { x with jobs := mdel (d * 256 + q) x.jobs }) s

/-- The halted state of an image comes back: the groups that were not released meanwhile are stopped (10 R223, R227). -/
def State.loadHalts (s : State) (cx : Nat) (pl : Place) : State :=
  ((s.ctx cx).halted.filter fun h => !h.freed).foldl (fun s h =>
    s.modPdie (pl.physDie h.die) fun y =>
      { y with halts := mput h.grp { mget {} h.grp y.halts with st := 2, since := h.since } y.halts }) s

/-- Payload of a service notice (06 R130). -/
def servicePayload (kind what : Nat) (since now : Word) : Vec :=
  BitVec.ofNat 1024 (kind + what * 2 ^ 32 + since.toNat * 2 ^ 64 + now.toNat * 2 ^ 128)

/-- Some cores of a released halt group: spilled messages come first, then the notices to all of them (06 R130, R149; 10 R227). -/
def State.released (s : State) (ks : List CoreRef) (what : Nat) (since : Word) : State :=
  let s := ks.foldl (fun s k => (List.range 20).foldl (fun s b => s.unspillBox k b (s.lateFor k b).length) s) s
  ks.foldl (fun s k =>
    if (s.ctx k.ctx).useAttr.getLsbD 1 then s.postService k (servicePayload 2 what since s.clock) else s) s

/-- The releases that were written while a context was switched out take effect (10 R227). -/
def State.lateReleases (s : State) (cx : Nat) (pl : Place) : State :=
  let hs := (s.ctx cx).halted.filter SavedHalt.freed
  let s := s.modCtx cx fun x => { x with halted := [] }
  hs.foldl (fun s h => s.released (h.members.map fun k => ⟨cx, h.die, k⟩) (h.grp + 16 * pl.physDie h.die) h.since) s

/-- The fallout of a context is re-injected at its routers (06 R148; 10 R222). -/
def State.reinject (s : State) (cx p : Nat) : State :=
  let x := s.ctx cx
  if x.fallout = [] ∧ !(x.ships.any fun y => y.2.st != 1) ∧ !((s.coresOf cx).any fun k => (s.core k).combs != []) then s else
  (s.modCtx cx fun x => { x with mesh := x.mesh ++ x.fallout.map fun (f : Flit) => { f with since := none }, fallout := [] }).notice (s.part p).firstDie cx 3 (toW p)

/-- The package time base at a cycle. -/
def State.clockAt (s : State) (n : Nat) : Word := toW ((n - s.pclock) * 5 / 4)

/-- Bring a context into a partition: its image, or zeroed memories (10 R222; 05 R126; 06 R130, R148). -/
def State.enter (s : State) (p cx : Nat) (pl : Place) : State :=
  let x := s.ctx cx
  let old := x.shape.isSome
  let s := s.modCtx cx fun c =>
    { c with
      resident := some p, shape := some pl.shape
      useAttr := (if c.privch then 1 else 0) + (if c.svcn then 2 else 0)
      useDef := some [c.dround, c.db8fmt, c.dcheck, c.dwlimit, c.dseed, c.saveba, c.hsbase] }
  let s := s.modPart p fun y => { y with ctx := cx }
  let s := if old then s.shiftCtx cx (s.now - x.savedAt) (s.now - x.leftAt) else s
  let s := (List.range pl.shape.dieCount).foldl (fun s d => s.loadJobs cx d (pl.physDie d)) s
  let s := ((List.range pl.shape.dieCount).foldl (fun s d => s.spillDie (pl.physDie d)) s).spillRoot
  let s := s.loadHalts cx pl
  let s := s.reinject cx p
  let s := s.lateReleases cx pl
  if old && (s.ctx cx).useAttr.getLsbD 1 then
    (s.coresOf cx).foldl (fun s k => s.postService k (servicePayload 1 p (s.clockAt x.savedAt) s.clock)) s
  else s

/-- The incoming context is restored; a queued request arms (10 R222, R224). -/
def State.switchRestore (s : State) (p : Nat) : State :=
  let x := s.part p
  match x.cur, x.place with
  | some q, some pl =>
    if x.st ≠ 4 then s else
    let ok := s.fitsPart p q.ctx
    let s := if ok ∧ q.ctx ≠ 0 then s.enter p q.ctx pl else s
    s.modPart p fun y =>
      { y with
        st := if y.queued.isSome then 1 else 0, cur := y.queued, queued := none
        res := if ok then 1 else 4 }
  | _, _ => s

def execGangSwitchRestore (p : Nat) (s : State) : Host.Outcome State Fault Refusal := .next (s.switchRestore p)

/-! ## Halt groups -/

def execHaltStopCommand (pd g : Nat) (s : State) : Host.Outcome State Fault Refusal :=
  .next (s.whenBooted (s.haltGroups pd [g]))

/-- Member cores of a halt group, in the contexts that run there. -/
def State.members (s : State) (pd : Nat) (h : Halt) : List CoreRef :=
  ((List.range 256).filter fun pk => (h.mem.getD (pk / 64) 0).getLsbD (pk % 64)).filterMap fun pk => s.coreAtPhys pd pk

/-- A saved halt group that is released while its context is switched out (10 R227). -/
def SavedHalt.release (pd g : Nat) (y : SavedHalt) : SavedHalt := if y.pd = pd ∧ y.grp = g then { y with freed := true } else y

/-- The images that hold a group stopped note its release, for their restore (10 R227). -/
def State.noteRelease (s : State) (pd g : Nat) : State :=
  { s with ctxs := s.ctxs.map fun x => (x.1, { x.2 with halted := x.2.halted.map (SavedHalt.release pd g) }) }

/-- A halt group is released (06 R130, R149; 10 R227). -/
def State.haltRelease (s : State) (pd g : Nat) : State :=
  let h := mget {} g (s.pdie pd).halts
  let s := s.noteRelease pd g
  if h.st = 0 then s else
  let s := s.modPdie pd fun y => { y with halts := mput g { h with st := 0 } y.halts }
  s.released (s.members pd h) (g + 16 * pd) h.since

def execHaltRelease (pd g : Nat) (s : State) : Host.Outcome State Fault Refusal :=
  .next (s.whenBooted (s.haltRelease pd g))

/-! ## Commands of the supervisor -/

/-- The slot a dctl command names, with its dsts (10 R217). -/
def State.dctlSlot (s : State) (pd k sl : Nat) : Option (SlotRef × Nat) :=
  (s.coreAtPhys pd k).map fun c => (c.slotRef sl, s.dsts pd k sl)

/-- The done bit of a slot's dctl set. -/
def State.dctlDone (s : State) (pd k sl : Nat) : State :=
  { s with regs := mput (0x50000000 + (pd * 256 + k) * 4 + sl) 8 s.regs }

/-- A slot that froze at a recv of a poisoned entry leaves it for good: the entry is freed and its count retired. The count of a
handler that froze at its bind is retired where it restarts (10 R220). -/
def State.dropPoisoned (s : State) (r : SlotRef) : State :=
  let t := s.slot r
  let k := r.coreRef
  let atBind := match t.handler with
    | some h => t.issued == 0 && t.hmsg.counted && (entryTrap s k h.1 h.2).isSome
    | none => false
  if atBind then (s.retireMsg {} k t.hmsg false).modSlot r fun u => { u with hmsg := { u.hmsg with counted := false } } else
  match decode32 t.iword with
  | .ok (.recv _ _ a _) =>
    let bx := selBox r (readX t a)
    match (s.box k bx).oldest with
    | some (e, g) => if (entryTrap s k bx e).isSome then (s.freeEntry k bx e).retireMsg {} k g false else s
    | none => s
  | _ => s

/-- Where a slot resumes: at pc; after a brk at the instruction after it, in a repetition the next of the body (10 R217; 12
R275). -/
def resumed (t : Slot) : Slot :=
  if !t.brk then t else if t.rep.isSome then advance t 4 else { t with pc := t.pc + 4 }

/-- resume (10 R217). -/
def State.dctlResume (s : State) (pd k sl : Nat) : State :=
  match s.dctlSlot pd k sl with
  | some (r, d) =>
    if d = 2 ∨ d = 4 then
      let s := s.modSlot r resumed
      (s.unfreeze r (s.slot r).pc).dctlDone pd k sl
    else s
  | none => s

/-- restart: at npc; a repetition is given up (10 R217; 12 R275). -/
def State.dctlRestart (s : State) (pd k sl : Nat) : State :=
  match s.dctlSlot pd k sl with
  | some (r, d) =>
    if d = 2 ∨ d = 4 then
      let s := (s.dropPoisoned r).modSlot r fun t => { t with rep := none }
      (s.unfreeze r (s.slot r).npc).dctlDone pd k sl
    else s
  | none => s

/-- kill (10 R217, R218). -/
def State.dctlKill (s : State) (pd k sl : Nat) : State :=
  match s.dctlSlot pd k sl with
  | some (r, d) => if d = 3 then (s.finish r true).dctlDone pd k sl
    else if d = 2 ∨ d = 4 then ((s.dropPoisoned r).finish r true).dctlDone pd k sl else s
  | none => s

def execDctlResume (pd k sl : Nat) (s : State) : Host.Outcome State Fault Refusal := .next (s.dctlResume pd k sl)

def execDctlRestart (pd k sl : Nat) (s : State) : Host.Outcome State Fault Refusal := .next (s.dctlRestart pd k sl)

def execDctlKill (pd k sl : Nat) (s : State) : Host.Outcome State Fault Refusal := .next (s.dctlKill pd k sl)

/-- The result field of a die's swcmd (21 R374). -/
def State.swResult (s : State) (pd res : Nat) : State :=
  s.modPdie pd fun d => { d with swcmd := (d.swcmd &&& ~~~0x33#64) ||| toW (res * 16) }

/-- A swapped-out task by its save-area address, on the die whose supervisor has its packet: the context and the task (05 R123;
21 R374). -/
def State.swTask (s : State) (pd a : Nat) : Option (Nat × Swapped) :=
  s.ctxs.findSome? fun x => (mfind a x.2.swapped).bind fun w => if w.pd = pd then some (x.1, w) else none

/-- A swcmd command with its result: 1 done, 2 no such task here, 3 not held by a storage fault (21 R374). -/
def State.swCommand (s : State) (pd : Nat) (a : Word) (kill : Bool) : State :=
  match s.swTask pd a.toNat with
  | none => s.swResult pd 2
  | some (cx, w) =>
    if !w.held then s.swResult pd 3
    else if kill then (s.killSwapped cx a.toNat w).swResult pd 1
    else (s.requeue cx a.toNat).swResult pd 1

def execSwcmdRequeue (pd : Nat) (a : Word) (s : State) : Host.Outcome State Fault Refusal :=
  .next (s.whenBooted (s.swCommand pd a false))

def execSwcmdKill (pd : Nat) (a : Word) (s : State) : Host.Outcome State Fault Refusal :=
  .next (s.whenBooted (s.swCommand pd a true))

/-! ## Fencing -/

/-- The partition that holds a physical quad. -/
def State.partOfQuad (s : State) (pd q : Nat) : Option Nat := (s.partAt pd (coreAt q 0)).map Prod.fst

/-- Dissolve a partition. -/
def State.dropPart (s : State) (p : Nat) : State :=
  s.modPart p fun x => { x with place := none, ctx := 0, st := 0, cur := none, queued := none, pstat := 0 }

/-- A partition is to be switched to no context, before or behind whatever switch is in progress (10 R228; log 38). -/
def Part.evict (x : Part) : Part :=
  let q : SwReq := { t := 0, prio := 3, ctx := 0 }
  if x.st ≤ 1 then { x with st := 1, cur := some q, queued := none }
  else if x.cur.map SwReq.ctx = some 0 then { x with queued := none }
  else { x with queued := some q }

/-- Firmware goes on with the fencing of a quad: its partition is switched out as any is, then dissolved; the quad is fenced, a
notice and a message tell of it (10 R222, R228, R229; 21 R373, R377; log 38). -/
def State.fenceQuad (s : State) (pd q : Nat) : State :=
  if pd > 3 ∨ q > 63 ∨ (s.pdie pd).fenced.getLsbD q then s else
  let fence (s : State) : State :=
    let s := { (s.modPdie pd fun d => { d with fenced := setM d.fenced q }) with rr := true }
    (s.notice pd 0 5 (toW (pd * 64 + q))).ucieSend 0x200
  match s.partOfQuad pd q with
  | some p =>
    let x := s.part p
    if x.ctx = 0 ∧ x.st ≤ 1 then fence (s.dropPart p) else s.modPart p Part.evict
  | none => fence s

def execQuadFence (pd q : Nat) (s : State) : Host.Outcome State Fault Refusal := .next (s.fenceQuad pd q)

end Sys2Proof.Machine
end

