-- ==== Sys2Proof/Machine/EvHost.lean ====
section
/-! DEFINITION. Commands of the driver and the host: partitions, contexts and their graphs, router and capability entries,
rings, queue indices, job queues, host queues (01 R11, R13, R25, R27; 02 R41, R45; 05 R126, R384; 06 R139 to R147; 07 R151 to
R158; 21 R374 to R378). -/

namespace Sys2Proof.Machine

open Sys2Proof

/-! ## Partitions -/

/-- The place a pshape register asks for; none where it is out of range (01 R11; 21 R374). -/
def shapeOfReg (v : Word) : Option Place :=
  if v.getLsbD 8 then
    let m : BitVec 4 := v.extractLsb' 17 4
    if m = 0 then none else some (.dies m)
  else
    let w := bits v 0 4 + 1
    let h := bits v 4 4 + 1
    let nw := bits v 11 6
    if w + nw % 8 ≤ 8 ∧ h + nw / 8 ≤ 8 then some (.rect (bits v 9 2) nw w h) else none

/-- The physical quads of a place. -/
def Place.quads (pl : Place) : List (Nat × Nat) := pl.shape.quads.map fun q => (pl.physDie q.1, pl.physQuad q.2)

/-- Partitions formed. -/
def State.formed (s : State) : List (Nat × Part) := s.parts.filter fun p => p.2.place.isSome

/-- The pstat of a form command: 1, or the refusal (01 R11; 21 R374); the order of several is log 112's. -/
def State.formResult (s : State) (p : Nat) : Nat :=
  if (s.part p).place.isSome then 7
  else if s.formed.length ≥ Config.partitions then 2
  else match shapeOfReg (s.part p).pshape with
  | none => 5
  | some pl =>
    if pl.quads.any fun q => (s.partOfQuad q.1 q.2).isSome then 3
    else if pl.quads.any fun q => (s.pdie q.1).fenced.getLsbD q.2 then 4
    else 1

/-- Form a partition: not in recovery, not after a thermal trip until the junctions have been below 95 °C and a reset has cleared it
(01 R11; 21 R380, R383). -/
def State.formPart (s : State) (p : Nat) : State :=
  if s.boot ≠ 2 ∨ s.trip ∨ s.cooling ∨ p ≥ Config.partitions then s else
  let c := s.formResult p
  let pl := if c = 1 then shapeOfReg (s.part p).pshape else (s.part p).place
  s.modPart p fun x => { x with pstat := c, place := pl }

def execPartitionForm (p : Nat) (s : State) : Host.Outcome State Fault Refusal := .next (s.formPart p)

/-- Dissolve a partition, unless a context is resident (21 R374). -/
def State.dissolvePart (s : State) (p : Nat) : State :=
  if (s.part p).place.isNone then s
  else if (s.part p).ctx ≠ 0 then s.modPart p fun x => { x with pstat := 6 }
  else s.dropPart p

def execPartitionDissolve (p : Nat) (s : State) : Host.Outcome State Fault Refusal :=
  .next (s.whenBooted (s.dissolvePart p))

/-! ## Contexts -/

/-- cxstat of a refusal (21 R374). -/
def cxRefused (cause part num : Nat) : Word := toW (1 + num * 2 ^ 32 + part * 2 ^ 42 + cause * 2 ^ 56)

/-- Does a key belong to a memory of a context: local store, shared region, vault, accumulators? -/
def keyOfCtx (cx k : Nat) : Bool :=
  match keyKind k with
  | 0 => keyUnit k / 8192 == cx
  | 1 => keyUnit k / 2048 == cx
  | 2 => keyUnit k / 512 == cx
  | 7 => keyUnit k / 512 == cx
  | _ => false

/-- Everything the package keeps for a context is dropped, its memories zeroed (01 R13; 05 R126). -/
def State.forgetCtx (s : State) (cx : Nat) : State :=
  { s with
    slots := s.slots.filter fun x => x.1 / 8192 != cx
    boxes := s.boxes.filter fun x => x.1 / 65536 != cx
    cores := s.cores.filter fun x => x.1 / 2048 != cx
    quads := s.quads.filter fun x => x.1 / 512 != cx
    dies := s.dies.filter fun x => x.1 / 4 != cx
    ctxs := mdel cx s.ctxs
    mem := s.mem.filter fun c => !keyOfCtx cx c.1
    full := s.full.filter fun k => !keyOfCtx cx k
    poison := s.poison.filter fun k => !keyOfCtx cx k }

/-- Create a context (21 R374); in recovery only the boot block answers (21 R380). -/
def State.createCtx (s : State) (cx : Nat) : State :=
  if s.boot ≠ 2 then s
  else if cx = 0 ∨ cx ≥ 65536 ∨ (s.ctx cx).exist then { s with cxstat := cxRefused 16 0 0 }
  else { (s.forgetCtx cx).modCtx cx fun _ => { exist := true } with cxstat := 0 }

def execContextCreate (cx : Nat) (s : State) : Host.Outcome State Fault Refusal := .next (s.createCtx cx)

/-- Destroy a context (21 R374). -/
def State.destroyCtx (s : State) (cx : Nat) : State :=
  if !(s.ctx cx).exist then { s with cxstat := cxRefused 18 0 0 }
  else if (s.ctx cx).resident.isSome then { s with cxstat := cxRefused 17 0 0 }
  else { s.forgetCtx cx with cxstat := 0 }

def execContextDestroy (cx : Nat) (s : State) : Host.Outcome State Fault Refusal :=
  .next (s.whenBooted (s.destroyCtx cx))

/-! ## Graphs -/

/-- A location entry in order (07 R151): its start hold, or none where a reserved bit is set. -/
def locEntry (x : Nat) : Option (Option Time) :=
  if fld x 16 16 / 2 ≠ 0 then none
  else some (if fld x 16 1 % 2 = 1 then some (BitVec.ofNat 128 (fld x 0 16)) else none)

/-- An edge word (07 R152), or none where a check fails. -/
def edgeWord (nloc : Nat) (x : Word) : Option Edge :=
  let e : Edge := { src := bits x 0 8, dst := bits x 8 8, kind := bits x 16 2, k := bits x 18 2, n := bits x 32 32 }
  if bits x 20 12 ≠ 0 ∨ e.src ≥ nloc ∨ e.dst ≥ nloc ∨ (e.kind = 0 ∧ (e.k ≠ 0 ∨ e.n ≠ 0)) ∨ (e.kind = 3 ∧ e.n ≠ 0) then none
  else some e

/-- The coordinate an edge advances, 4 for none (01 R27). -/
def Edge.adv (e : Edge) : Nat := if (e.kind = 1 ∨ e.kind = 2) ∧ e.n ≥ 1 then e.k else 4

/-- The least a at which an edge keeps a cycle from advancing: zero j at j, incz j,0 above j; 5 for none (01 R27). -/
def Edge.resets (e : Edge) : Nat := if e.kind = 3 then e.k else if e.kind = 2 ∧ e.n = 0 then e.k + 1 else 5

/-- Locations that some locations reach. -/
def reachSet (es : List Edge) : Nat → List Nat → List Nat
  | 0, l => l
  | n + 1, l =>
    let m := es.foldl (fun l e => if smem e.src l then sadd e.dst l else l) l
    if m = l then l else reachSet es n m

/-- Does edge e lie on a closed walk that does not advance (01 R27): over edges that advance nothing below b, through one
that resets at b, or through any where none advances at all? -/
def onBadCycle (es : List Edge) (e : Edge) : Bool :=
  (List.range 5).any fun b =>
    let live := es.filter fun x => decide (b ≤ x.adv)
    let fromE := reachSet live Config.frontierRounds [e.dst]
    decide (b ≤ e.adv) && live.any fun f =>
      (decide (f.resets ≤ b) || b == 4) && smem f.src fromE && smem e.src (reachSet live Config.frontierRounds [f.dst])

/-- How the check of an image ends (07 R153): the graph, or the part and the number of the first failing check. -/
inductive GraphCheck where
  | ok (nloc : Nat) (starts : List (Nat × Time)) (edges : List Edge)
  | bad (part num : Nat)
deriving DecidableEq, Repr

/-- The first item without a value, by number, or every value. -/
def allSome {α β : Type} (f : Nat → Option α) (g : List α → β) (h : Nat → β) : Nat → Nat → List α → β
  | _, 0, l => g l
  | i, n + 1, l => match f i with
    | none => h i
    | some x => allSome f g h (i + 1) n (l ++ [x])

/-- The checks of an image at a key, in image order, the cycle test last (07 R151 to R153). -/
def State.checkGraph (s : State) (k : Nat) : GraphCheck :=
  let h := s.loadLE k 16
  let nloc := fld h 0 2
  let nedge := fld h 2 2
  if nloc = 0 ∨ nloc > 256 ∨ nedge > 1024 ∨ fld h 4 12 ≠ 0 then .bad 0 0
  else allSome (fun i => locEntry (s.loadLE (k + 16 + 32 * i) 32))
    (fun ls =>
      let starts := ls.zipIdx.filterMap fun x => x.1.map fun t => (x.2, t)
      allSome (fun e => edgeWord nloc (toW (s.loadLE (k + 16 + 32 * nloc + 8 * e) 8)))
        (fun es => match es.findIdx? (onBadCycle es) with
          | some e => .bad 3 e
          | none => .ok nloc starts es)
        (fun e => .bad 2 e) 0 nedge [])
    (fun i => .bad 1 i) 0 nloc []

/-- The counts of start holds (01 R28). -/
def startCounts (l : List (Nat × Time)) : List Delta := l.map fun x => ⟨x.1, x.2, false, 1, {}⟩

/-- Holds a context no count but start holds (07 R153)? -/
def Ctx.onlyStarts (x : Ctx) : Bool :=
  x.inflight == [] && x.toRoot == [] &&
    x.counts.all fun e => !e.held && decide (e.d = 1) && x.starts.contains (e.loc, e.time)

/-- Load a context's graph and place its start holds; a refused image changes nothing (07 R153; 21 R374). -/
def State.loadGraph (s : State) (cx : Nat) : State :=
  let x := s.ctx cx
  if !x.exist then { s with cxstat := cxRefused 18 0 0 }
  else if x.resident.isSome || !x.onlyStarts then { s with cxstat := cxRefused 2 0 0 }
  else match s.checkGraph (pkey .hbm 0 x.cxgraph.toNat) with
  | .bad part num => { s with cxstat := cxRefused 2 part num }
  | .ok nloc starts edges =>
    let s := s.modCtx cx fun x =>
      ({ x with nloc := nloc, edges := edges, starts := starts, loaded := true, counts := startCounts starts } : Ctx).recompute
    let y := s.ctx cx
    let s := (List.range 4).foldl (fun s d => s.modDie cx d fun z => { z with f := y.f, fset := y.fset }) s
    { s with cxstat := 0 }

def execGraphLoad (cx : Nat) (s : State) : Host.Outcome State Fault Refusal :=
  .next (s.whenBooted (s.loadGraph cx))

/-! ## Router and capability entries -/

/-- May a router take a group entry (07 R154)? -/
def groupEntryOk (pl : Place) (k : CoreRef) (v : W32) : Bool :=
  decide (bits v 13 19 = 0) && decide (bits v 5 3 < 4) && !((bits v 5 3 == 1 || bits v 5 3 == 2) && bits v 8 5 == 0) &&
    (List.range 4).all fun p => !v.getLsbD p || (pl.neighbour k.die k.core p).isSome

/-- The place of the partition that holds a physical core. -/
def State.placeAt (s : State) (pd k : Nat) : Option Place := (s.partAt pd k).bind fun x => (s.part x.1).place

/-- A write to rtent by an agent, for the context it has selected (07 R154; 21 R374; log 21). -/
def State.writeRouter (s : State) (ag : Agent) (pd k g : Nat) (v : W32) : State :=
  match s.coreOfCtx (s.sel ag .cx).toNat pd k, s.placeAt pd k with
  | some c, some pl =>
    if groupEntryOk pl c v then (s.modCore c fun x => { x with groups := mput (g % 1024) v x.groups }).setSel ag .rtBad 0
    else s.setSel ag .rtBad 1
  | _, _ => s.setSel ag .rtBad 1

def execRouterEntryWrite (pd k g : Nat) (v : W32) (s : State) : Host.Outcome State Fault Refusal :=
  .next (s.whenBooted (s.writeRouter .host pd k g v))

/-- A write to rchent. -/
def State.writeReach (s : State) (ag : Agent) (pd k g : Nat) (v : Word) : State :=
  match s.coreOfCtx (s.sel ag .cx).toNat pd k with
  | some c => s.modCore c fun x => { x with reach := mput (g % 1024) (v.setWidth 16) x.reach }
  | none => s

/-- May a quad take a capability entry (07 R158)? -/
def capEntryOk (lo hi : Word) : Bool :=
  decide (bits lo 61 3 = 0) && decide (bits hi 32 32 = 0) && decide (bits hi 0 16 ≤ bits hi 16 16)

/-- A write to capent1 by an agent, for the context it has selected (07 R158; 21 R374; log 21). -/
def State.writeCap (s : State) (ag : Agent) (pd q e : Nat) (lo hi : Word) : State :=
  match s.coreOfCtx (s.sel ag .cx).toNat pd (coreAt q 0) with
  | some c =>
    if capEntryOk lo hi then
      (s.modQuad c.quadRef fun x => { x with caps := mput (e % 64) (hi ++ lo) x.caps }).setSel ag .capBad 0
    else s.setSel ag .capBad 1
  | none => s.setSel ag .capBad 1

def execCapabilityEntryWrite (pd q e : Nat) (lo hi : Word) (s : State) : Host.Outcome State Fault Refusal :=
  .next (s.whenBooted (s.writeCap .host pd q e lo hi))

/-! ## Rings and queue indices -/

/-- Entry n of a ring is marked discarded, and commit passes it (06 R139; 21 R374): none where the command is refused. -/
def State.discard (s : State) (cx a n : Nat) : Option State :=
  match s.agentByte cx a .read with
  | .keys (k :: _) =>
    if !ringPlace k ∨ a % 128 ≠ 0 then none else
    match s.ringAt k with
    | none => none
    | some g =>
      if g.fnext ≤ n ∧ n < g.tnext ∧ s.ringState g n = 3 then some (commit g g.tnext g.slots g.fnext (s.setRing g n 5)) else none
  | _ => none

/-- A write to rdcmd by an agent. -/
def State.discardBy (s : State) (ag : Agent) (cx a n : Nat) : State :=
  match s.discard cx a n with
  | some s => s.setSel ag .rdBad 0
  | none => s.setSel ag .rdBad 1

def execRingEntryDiscard (cx : Nat) (a sq : Word) (s : State) : Host.Outcome State Fault Refusal :=
  .next (s.whenBooted (s.discardBy .host cx a.toNat sq.toNat))

/-- May a consumed index be written (06 R140): no more than n entries, none beyond the filled index? -/
def indexOk (tail v : W32) (n : Nat) : Bool := decide ((tail - v).toNat ≤ n)

/-- A write to dlhead (06 R140). -/
def State.deadHead (s : State) (pd k : Nat) (v : W32) : State :=
  let q := mget {} k (s.pdie pd).dls
  if indexOk q.tail v Config.deadLetters then s.modPdie pd fun d => { d with dls := mput k { q with head := v } d.dls } else s

def execDeadLetterHeadWrite (pd k : Nat) (v : W32) (s : State) : Host.Outcome State Fault Refusal :=
  .next (s.whenBooted (s.deadHead pd k v))

/-- A write to sqhead (06 R141). -/
def State.supHead (s : State) (pd : Nat) (v : W32) : State :=
  if indexOk (s.pdie pd).sqTail v Config.packetQueue then s.modPdie pd fun d => { d with sqHead := v } else s

def execSupervisorQueueHeadWrite (pd : Nat) (v : W32) (s : State) : Host.Outcome State Fault Refusal :=
  .next (s.whenBooted (s.supHead pd v))

/-- A write to fftail: the notice is armed again once the count is above the mark (06 R147). -/
def State.frameTail (s : State) (pd k : Nat) (v : W32) : State :=
  if s.boot ≠ 2 ∨ k ≥ 3 then s else (s.modFree pd k fun q => { q with tail := v }).lowNotice pd k

def execFreeFrameTailWrite (pd k : Nat) (v : W32) (s : State) : Host.Outcome State Fault Refusal := .next (s.frameTail pd k v)

/-- The zeroing engine has cleared a frame; its words are empty (05 R126). -/
def State.frameZeroed (s : State) (tier a len : Nat) : State :=
  if tier > 1 then s else
  let k := pkey (if tier = 0 then .hbm else .cxl) 0 a
  let s := s.wipe k len
  { s with full := s.full.filter fun w => !(decide (k ≤ w) && decide (w < k + len)) }

def execFrameZeroingComplete (tier a len : Nat) (s : State) : Host.Outcome State Fault Refusal := .next (s.frameZeroed tier a len)

/-- A field that counts from 1, whose largest value is written as 0 (log 22). -/
def fullZero (n top : Nat) : Nat := if n = 0 then top else n

/-- The driver assigns a job queue: pass and V are 0 (02 R41, R45; log 39); cards of another context are gone. A depth out of
range is ignored (log 22), as is a write in recovery (21 R380). -/
def State.assignQueue (s : State) (pd q : Nat) (v bs : Word) : State :=
  let depth := fullZero (bits v 28 4) 16
  let cx := bits v 0 16
  if s.boot ≠ 2 ∨ depth < 4 ∨ q > 255 then s else
  s.modPdie pd fun d =>
    let j := mget {} q d.jobs
    let same := j.ctx == cx
    let j : JobQ := {
      ctx := cx, tickets := fullZero (bits v 16 10) 1024, depth := depth, base := bs
      cards := if same then j.cards else [], posted := if same then j.posted else 0, pass := 0, eligible := false }
    { d with v := 0, jobs := mput q j d.jobs }

def execJobQueueAssign (pd q : Nat) (v bs : Word) (s : State) : Host.Outcome State Fault Refusal := .next (s.assignQueue pd q v bs)

/-! ## Host queues -/

/-- A host queue changed. -/
def State.modHostq (s : State) (q : Nat) (f : HostQ → HostQ) : State := { s with hostqs := mput q (f (mget {} q s.hostqs)) s.hostqs }

/-- Is a host queue enabled (21 R375)? -/
def HostQ.en (q : HostQ) : Bool := q.cfg.getLsbD 28
/-- Context, die and quad of a host queue. -/
def HostQ.ctx (q : HostQ) : Nat := bits q.cfg 12 16
def HostQ.die (q : HostQ) : Nat := bits q.cfg 4 2
def HostQ.quad (q : HostQ) : Nat := bits q.cfg 6 6

/-- May a configuration enable its queue (21 R375)? -/
def State.hostCfgOk (s : State) (q : HostQ) : Bool :=
  decide (4 ≤ bits q.cfg 0 4) &&
    match (s.ctx q.ctx).shape with
    | some sh => sh.hasQuad q.die q.quad
    | none => false

/-- A write to hqcfg, accepted while the queue is not enabled (21 R375), and not in recovery (21 R380). -/
def State.hostConfig (s : State) (q : Nat) (v : Word) : State :=
  if s.boot ≠ 2 ∨ q > 255 ∨ (mget {} q s.hostqs).en then s else
  s.modHostq q fun x =>
    let y := { x with cfg := toW (bits v 0 30) }
    if s.hostCfgOk y then y else { y with cfg := y.cfg &&& ~~~(1#64 <<< 28) }

def execHostQueueConfig (q : Nat) (v : Word) (s : State) : Host.Outcome State Fault Refusal := .next (s.hostConfig q v)

/-- The doorbell: a tail beyond the depth stops the queue (21 R376); not in recovery (21 R380). -/
def State.doorbell (s : State) (q : Nat) (v : W32) : State :=
  if s.boot ≠ 2 ∨ q > 255 then s else
  s.modHostq q fun x =>
    let x := { x with tail := v }
    if (v - x.head).toNat > x.depth then { x with cfg := x.cfg &&& ~~~(1#64 <<< 28) } else x

def execHostQueueDoorbell (q : Nat) (v : W32) (s : State) : Host.Outcome State Fault Refusal := .next (s.doorbell q v)

/-- A record that the device reads for a host post, in the translated space or the partition windows; its page is fetched
first. A failed access keeps what it changed (05 R384, R385). -/
def hostRec (s : State) (pd : Nat) (w : Who) (a n al : Nat) : Rec :=
  if (hostHand a).isNone then .stop (.trap (recIllegal a 0))
  else if a % al ≠ 0 then .stop (.trap (misaligned 1 a n))
  else match s.agentEach pd w a .read n with
  | (.pending, s) => .stop (.stay s)
  | (.bad c k _, s) => .stop (.hold s 0 { cause := k, addr := toW a, i0 := c, i1 := 0 })
  | (.keys ks, _) =>
    match poisonTrap s a ks (fun _ => true) with
    | some tr => .stop (.trap tr)
    | none => .val (leNat (ks.map fun k => memGet k s.mem))

/-- What the device supplies as a poster for a host queue (21 R376). -/
def hostPoster (s : State) (n : Nat) (q : HostQ) : Poster :=
  let r : SlotRef := ⟨q.ctx, q.die, coreAt q.quad 0, 0⟩
  { rd := hostRec s (s.physDie q.ctx q.die) ⟨q.ctx, r, 0, 0, 0, workOf 6 n⟩
    hand := hostHand
    bad := fun a => .trap (recIllegal a 0)
    die := q.die
    quad := q.quad
    view := r
    shape := s.shapeOf q.ctx }

/-- The head of a host queue goes on. -/
def State.hostNext (s : State) (n : Nat) : State := s.modHostq n fun q => { q with head := q.head + 1 }

/-- A refused card: its completion, and the head goes on (21 R376, R377). -/
def State.hostRefuse (s : State) (n : Nat) (card : Word) (idx : W32) (st cause : Nat) : State :=
  (s.hostComplete n { card := card, idx := idx, st := st, cause := cause }).hostNext n

/-- A card accepted from a host queue (21 R376; 08 R386). -/
def State.hostAccept (s : State) (n : Nat) (q : HostQ) (a : Word) (p : Posted) : State :=
  let c := p.card
  let b := if c.count = 0 then (0, s) else s.dieCount q.ctx q.die c.loc c.time c.count
  let view : SlotRef := ⟨q.ctx, q.die, coreAt q.quad 0, 0⟩
  let s := (b.2.addSched q.ctx q.die p.ents c.time view 0 0 0).2
  let s := s.addCard q.ctx { c with hq := some (n, q.head.toNat), batch := b.1 } p.raw
  let s := if c.flags.getLsbD 8 then s else s.hostComplete n { card := a, idx := q.head, st := 0, cause := 0 }
  s.hostNext n

/-- The device handles the entry at the head of a host queue (21 R376, R377). -/
def State.hostEntry (s : State) (n : Nat) : State :=
  let q := mget {} n s.hostqs
  if n > 255 ∨ !q.en ∨ q.head = q.tail ∨ !s.enginesUp q.ctx then s else
  let a := toW (s.loadLE (pkey .hbm 0 (bits q.base 0 52 + 8 * (q.head.toNat % q.depth))) 8)
  match s.readCard q.ctx (hostPoster s n q) a.toNat with
  | .error (.stay s) => s
  | .error (.hold s _ w) => s.hostRefuse n a q.head 2 w.cause
  | .error (.trap tr) => s.hostRefuse n a q.head 2 tr.cause
  | .error _ => s
  | .ok p =>
    let c := p.card
    let j := mget {} c.queue (s.pdie (s.physDie q.ctx q.die)).jobs
    if p.rsv.isSome then s.hostRefuse n a q.head 2 2
    else if c.time < mget Time.never c.loc (s.ctx q.ctx).f then s.hostRefuse n a q.head 3 0
    else if c.count ≠ 0 ∧ (j.full ∨ s.tilthFull q.ctx q.die) then s
    else s.hostAccept n q a p

def execHostQueueEntry (q : Nat) (s : State) : Host.Outcome State Fault Refusal := .next (s.hostEntry q)

/-- A write to hqctl: consumed entries make room for waiting completions (21 R377). -/
def State.hostHead (s : State) (q : Nat) (v : W32) : State :=
  if s.boot ≠ 2 ∨ q > 255 then s else
  let s := s.modHostq q fun x => { x with chead := v }
  s.hostRetry q (mget {} q s.hostqs).waiting.length

def execHostCompletionHeadWrite (q : Nat) (v : W32) (s : State) : Host.Outcome State Fault Refusal := .next (s.hostHead q v)

/-- A host access through the HBM window (21 R378): an aligned word; a write of a part of a poisoned granule writes nothing (10
R220). -/
def State.hostWindow (s : State) (wr : Bool) (off : Nat) (v : Word) : State :=
  if !wr ∨ off ≥ 2 ^ 25 ∨ off % 8 ≠ 0 then s else
  let k := pkey .hbm 0 (bits s.hwin 0 27 * 2 ^ 25 + off)
  if (poisoned s (keysFrom k 8)).isSome then s else s.storeLE k 8 v.toNat

def execHostHbmAccess (wr : Bool) (off : Nat) (v : Word) (s : State) : Host.Outcome State Fault Refusal :=
  .next (s.hostWindow wr off v)

end Sys2Proof.Machine
end

