-- ==== Sys2Proof/Machine/EvDev.lean ====
section
/-! DEFINITION. The device as a whole: scale-up traffic, errors, heat and power, boot and attestation, and writes of the
control space by offset (08 R181; 10 R219, R228; 21 R372 to R383). -/

namespace Sys2Proof.Machine

open Sys2Proof

/-! ## Scale-up -/

/-- The result kept for a sequence number, the oldest of 256 making room (08 R181). -/
def Peer.keep (p : Peer) (sq : Nat) (x : W32) : Peer :=
  let l := p.results ++ [(sq, x)]
  { p with results := l.drop (l.length - Config.linkWindow), high := some (BitVec.ofNat 32 sq) }

/-- Is a sequence number above the highest executed, modulo 2^32 (08 R181)? -/
def Peer.above (p : Peer) (sq : Nat) : Bool :=
  match p.high with
  | none => true
  | some h => let d := BitVec.ofNat 32 sq - h; decide (d ≠ 0) && !d.msb

/-- An atomic of another package arrives: a new one executes at its word's home, any other changes nothing here (08 R181; 09
R206). One that meets poison does not execute (10 R220; log 41). -/
def State.remoteRequest (s : State) (p sq : Nat) (f : Aop) (key : Nat) (a b : W32) : State :=
  let k := pkey .hbm 0 key
  if !(s.peer p).above sq ∨ key % 4 ≠ 0 ∨ (poisoned s (keysFrom k 4)).isSome then s else
  let old : W32 := BitVec.ofNat 32 (s.loadLE k 4)
  (s.storeLE k 4 (aop f old a b).toNat).modPeer p fun x => x.keep (sq % 2 ^ 32) old

def execScaleupAtomicRequest (p sq : Nat) (f : Aop) (key : Nat) (a b : W32) (s : State) : Host.Outcome State Fault Refusal :=
  .next (s.remoteRequest p sq f key a b)

/-- Is a flight a request of another package, by its number? -/
def Flight.isRemote (p sq : Nat) : Flight → Bool
  | .remote _ q n _ => q == p && n == sq
  | _ => false

/-- A value of another package on its way to a scalar register; that of an acquiring atomic acquires as it lands (08 R181; 09
R188). -/
def Flight.arrived (v : W32) (f : Flight) : Flight :=
  match f with
  | .remote (.g n) _ _ none => .value [.g n (v.setWidth 64)]
  | .remote (.g n) _ _ (some sc) => .acquired [.g n (v.setWidth 64)] sc
  | .remote (.ring j) _ _ none => .value [.ring j (v.setWidth 64)]
  | .remote (.ring j) _ _ (some sc) => .acquired [.ring j (v.setWidth 64)] sc
  | .remote _ _ _ none => .value []
  | .remote _ _ _ (some sc) => .acquired [] sc
  | f => f

/-- The request a number names is over: it is forgotten, and the requests that waited for room in the window go out (08 R181). -/
def State.requestOver (s : State) (p sq : Nat) : State :=
  (s.modPeer p fun x => { x with out := x.out.filter fun q => q.seq != sq }).sendAtomics p

/-- The result of a remote atomic arrives: the one its word gave (08 R181; 09 R206; log 42). -/
def State.remoteReply (s : State) (p sq : Nat) (v : W32) : State :=
  match (s.peer p).out.find? fun q => q.seq == sq with
  | none => s
  | some q =>
    if q.res = some v ∧ s.linkUp then
      (s.modSlot q.who fun t =>
        { t with flights := t.flights.map fun f => if f.isRemote p sq then f.arrived v else f }).requestOver p sq |>.linkGood p
    else s

def execScaleupAtomicReply (p sq : Nat) (v : W32) (s : State) : Host.Outcome State Fault Refusal :=
  .next (s.remoteReply p sq v)

/-- Arith cycles before a request is sent again: 16 µs (08 R181). -/
abbrev resendAge : Nat := 12800

/-- The fault of an access to another package that was given up: its slot takes it at its next instruction (08 R181; 10 R213; log
42). -/
def State.linkFault (s : State) (r : SlotRef) (p sq tries : Nat) : State :=
  s.modSlot r fun t =>
    if t.st = .running ∧ t.linkErr.isNone then
      { t with linkErr := some (waitFault { cause := 12, addr := toW p, i0 := sq, i1 := tries } 0) }
    else t

/-- The fault of a lost access is taken, at the instruction boundary or at once in a wait (log 42). -/
def State.takeLink (s : State) (r : SlotRef) : State :=
  let t := s.slot r
  match t.linkErr with
  | none => s
  | some tr =>
    if t.st = .running ∧ t.fault.isNone ∧ t.walk.isNone ∧ s.up r.ctx ∧ !s.coreHalted r.coreRef then
      let len := match t.wait with
        | some w => w.len
        | none => s.lenAt r t.pc.toNat
      (s.modSlot r fun t => { t with linkErr := none, iword := if t.wait.isSome then t.iword else s.wordAt r }).takeFault r t.pc
        len tr
    else s

/-- A request sent without a result after 16 µs is sent again, up to eight times; then its slot faults (08 R181). -/
def State.resend (s : State) (p sq : Nat) : State :=
  match (s.peer p).out.find? fun q => q.seq == sq with
  | none => s
  | some q =>
    if q.tries = 0 ∨ q.sent + resendAge > s.now then s
    else if q.tries < 8 then
      s.modPeer p fun x => { x with out := x.out.map fun y => if y.seq = sq then { y with tries := y.tries + 1, sent := s.now } else y }
    else
      ((s.modSlot q.who fun t => { t with flights := t.flights.filter fun f => !f.isRemote p sq }).linkFault q.who p sq 8).requestOver
        p sq

def execScaleupRetransmit (p sq : Nat) (s : State) : Host.Outcome State Fault Refusal := .next (s.resend p sq)

/-- A link fails; the traffic bound to it moves to the next that works, and goes on there once the requests sent before are answered or
given up (21 R379). -/
def State.linkFails (s : State) (l : Nat) : State :=
  if l ≥ 32 then s else
  let t : State := { s with links := mput l { mget {} l s.links with works := false } s.links }
  { t with peers := t.peers.map fun p =>
    if s.linkFor p.1 = some l ∧ t.linkUp ∧ (p.2.out.any fun q => q.tries != 0) then (p.1, { p.2 with moving := true }) else p }

def execLinkFailure (l : Nat) (s : State) : Host.Outcome State Fault Refusal := .next (s.linkFails l)

/-- The packages that a slot's accesses in flight go to: of its loads, and of its stores in the quad's buffer. -/
def State.farPkgs (s : State) (r : SlotRef) : List Nat :=
  let ls := (s.slot r).flights.flatMap Flight.lines ++ ((s.quad r.quadRef).sb.filter fun e => e.who == r).map SbEnt.line
  (ls.filter fun l => keyKind (l * 64) == 6).map fun l => keyUnit (l * 64)

/-- Is an access to a package on a link; on any where none works (21 R379)? -/
def State.onLink (s : State) (l p : Nat) : Bool := !s.linkUp || s.linkFor p == some l

/-- The package of an access of a running slot on a link. -/
def State.farAccess (s : State) (l : Nat) (x : Nat × Slot) : Option (SlotRef × Nat) :=
  let r := slotOfKey x.1
  if x.2.st == .running then ((s.farPkgs r).find? (s.onLink l)).map fun p => (r, p) else none

/-- The accesses of a slot to a package are given up. -/
def State.dropFar (s : State) (r : SlotRef) (p : Nat) : State :=
  let goes (l : Nat) : Bool := keyKind (l * 64) == 6 && keyUnit (l * 64) == p
  let s := s.modSlot r fun t => { t with flights := t.flights.filter fun f => !(f.lines.any goes) }
  s.modQuad r.quadRef fun q => { q with sb := q.sb.filter fun e => !(e.who == r && goes e.line) }

/-- A flit fails its check and the link sends it again; after eight failed replays an access on that link ends in fault.wait; with
every link down each access ends so (21 R379; log 42). -/
def State.replay (s : State) (l : Nat) : State :=
  let x := mget {} l s.links
  if l ≥ 32 ∨ (!x.works && s.linkUp) then s
  else if x.replays < 7 then { s with links := mput l { x with replays := x.replays + 1 } s.links }
  else
    let s := { s with links := mput l { x with replays := 0 } s.links }
    match s.slots.findSome? (s.farAccess l) with
    | some y => (s.dropFar y.1 y.2).linkFault y.1 y.2 0 8
    | none => s

def execLinkLevelReplay (l : Nat) (s : State) : Host.Outcome State Fault Refusal := .next (s.replay l)

/-! ## Errors -/

/-- Kind of the keys that name messages in the mesh: the unit is the context, the offset the message's place. -/
abbrev meshKind : Nat := 9

/-- Rows of the tiles of a quad that hold a word of its accumulator store: each is one granule (10 R219; 15 R320). -/
def State.tileRows (s : State) (q : QuadRef) (w : Nat) : List (W32 × Nat) :=
  (s.quad q).arr.tiles.filterMap fun x =>
    let b := shapeBase x.2 * 256
    let c := shapeCols x.2
    if b ≤ w ∧ w < b + shapeRows x.2 * c then some (x.2, (w - b) / c) else none

/-- An uncorrectable error poisons its granule (10 R219): a granule of memory, the tile rows that hold a word of an accumulator
store, or the payload of a message in the mesh. -/
def State.poisonAt (s : State) (key : Nat) : State :=
  if keyKind key = meshKind then
    s.modCtx (keyUnit key) fun x => { x with mesh := lmod (keyOff key) (fun f => { f with msg := { f.msg with poisoned := true } }) x.mesh }
  else
    let g := granuleOf key
    let n := granuleSize (keyKind key)
    if n = 0 then s else
    let s := s.sampleEverywhere ((List.range (n / 64 + 1)).map fun i => lineOf g + i)
    let s := { s with poison := sadd g s.poison }
    if keyKind key = 7 then
      let q := quadOfKey (keyUnit key)
      (s.tileRows q (keyOff key / 4)).foldl (fun s x => s.hurtRow q x.1 x.2) s
    else s

def execUncorrectableError (key : Nat) (s : State) : Host.Outcome State Fault Refusal := .next (s.poisonAt key)

/-- Package time in which corrected errors of one quad count together, in ns (21 R374). -/
abbrev errorWindow : Nat := 2 ^ 36

/-- A corrected error is counted, saturating; a quad whose count within the window exceeds the threshold is fenced (10 R219, R228;
21 R374; log 83). -/
def State.corrected (s : State) (pd q : Nat) : State :=
  let now := s.clock.toNat
  let old := (mget [] q (s.pdie pd).quadErrs).filter fun t => decide (now < t + errorWindow)
  let s := s.modPdie pd fun d =>
    { d with
      corrected := if d.corrected = BitVec.allOnes 64 then d.corrected else d.corrected + 1
      quadErrs := mput q (old ++ [now]) d.quadErrs }
  if old.length + 1 > s.cerrth.toNat then s.fenceQuad pd q else s

def execCorrectedError (pd q : Nat) (s : State) : Host.Outcome State Fault Refusal := .next (s.corrected pd q)

/-- The supervisor restarts a copy channel or gives it up (10 R215; log 28). -/
def execCopyChannelRestart (cx d ch : Nat) (ab : Bool) (s : State) : Host.Outcome State Fault Refusal :=
  .next (s.copyRestart cx d ch ab)

/-! ## Heat and power -/

/-- pwrstat from a junction temperature and a power (21 R374). -/
def powerWord (tj pw : Nat) : Word := toW (pw % 65536 + tj % 256 * 65536)

/-- The power limit. -/
def State.powerCap (s : State) : Nat := bits s.pwrcfg 8 16

/-- A new reading: the power averaged over the last 1 ms of package time and the hottest junction, which the device measures; above a
limit tokens and stream starts are held back from then on (21 R374, R383; log 56). -/
def State.sense (s : State) (tj pw : Nat) : State :=
  { s with
    pwrstat := powerWord tj pw, cooling := s.cooling && decide (95 ≤ tj % 256)
    thr := s.thr || decide (tj % 256 > 95) || decide (pw % 65536 > s.powerCap) }

/-- Too hot or too much power: tokens and stream starts are held back (21 R383). -/
def State.throttle (s : State) (tj pw : Nat) : State :=
  if tj > 95 ∨ pw > s.powerCap then { s.sense tj pw with thr := true } else s

def execThermalThrottle (tj pw : Nat) (s : State) : Host.Outcome State Fault Refusal := .next (s.throttle tj pw)

/-- Heat and power are back within their limits (21 R383). -/
def State.throttleEnd (s : State) (tj pw : Nat) : State :=
  if s.thr ∧ tj < 95 ∧ pw < s.powerCap then { s.sense tj pw with thr := false } else s

def execThermalThrottleEnd (tj pw : Nat) (s : State) : Host.Outcome State Fault Refusal := .next (s.throttleEnd tj pw)

/-- The switch to no context that a thermal trip asks of a partition, at priority 3 behind a switch in progress; a request that was armed
or queued is superseded (10 R224; 21 R383; log 55). -/
def Part.tripSwitch (x : Part) (t : Word) : Part :=
  let q : SwReq := { t := t, prio := 3, ctx := 0 }
  if x.place.isNone then x
  else if x.st ≥ 2 then { x with queued := some q, res := if x.queued.isSome then 2 else x.res }
  else if x.ctx = 0 then { x with st := 0, cur := none, res := if x.st = 1 then 2 else x.res }
  else { x with st := 1, cur := some q, res := if x.st = 1 then 2 else x.res }

/-- At 110 °C every partition is switched to no context at the next value of the time base (21 R383). -/
def State.thermalTrip (s : State) : State :=
  if s.trip ∨ bits s.pwrstat 16 8 < 110 then s
  else
    { s with trip := true, cooling := true, parts := s.parts.map fun (p : Nat × Part) => (p.1, p.2.tripSwitch (s.clock + 1)) }.ucieSend 0x300

def execThermalTrip (s : State) : Host.Outcome State Fault Refusal := .next s.thermalTrip

/-- A write to pwrcfg: while no partition is formed, fields in range; the tokens of every ring are placed (21 R382). In recovery it is
ignored (21 R380). -/
def State.setPower (s : State) (v : Word) : State :=
  let cap := bits v 8 16
  let ntok := bits v 4 4
  if s.boot ≠ 2 ∨ s.formed ≠ [] ∨ cap < 800 ∨ cap > 3200 ∨ ntok = 0 then s
  else
    let s := { s with pwrcfg := toW (bits v 0 24) }
    (List.range 4).foldl (fun s d => s.modPdie d fun x => { x with tokens := List.replicate ntok 0 }) s

def execPowerConfigWrite (v : Word) (s : State) : Host.Outcome State Fault Refusal := .next (s.setPower v)

/-! ## Boot and attestation -/

/-- The bytes of the staging area on, as one number (21 R380). -/
def State.stagedImage (s : State) : Nat :=
  let k := pkey .hbm 0 s.bstage.toNat
  (s.mem.filter fun c => decide (k ≤ c.1) && keyKind c.1 == 3).foldl
    (fun a c => (a * 2 ^ 64 + (c.1 - k)) * 256 + c.2.toNat) 1

/-- Quads whose self-test fails are fenced (10 R228). -/
def State.selfTest (s : State) (n : Nat) : State :=
  (List.range 4).foldl (fun s d =>
    (List.range 64).foldl (fun s q => if (Config.selfTestFails (4 * n + d)).getLsbD q then s.fenceQuad d q else s) s) s

/-- The boot ROM verifies the staged image: the device runs, or stays in recovery (21 R380). -/
def State.bootFrom (s : State) : State :=
  let i := s.stagedImage
  if Config.imageVerifies i then { s with boot := 2, bver := Config.imageVersion i, fwdig := Config.imageDigest i }.selfTest s.now
  else { s with boot := 3 }

/-- A write to bload, ignored while firmware runs, starts the verification, which ends with the cycle (21 R380; log 50). -/
def State.startLoad (s : State) : State := if s.boot = 2 then s else { s with boot := 1 }

/-- The verification that a write to bload started is done (21 R380). -/
def State.verified (s : State) : State := if s.boot = 1 then s.bootFrom else s

/-- A write to bload with its verification; ignored while firmware runs (21 R380). -/
def State.loadFirmware (s : State) : State := if s.boot = 2 then s else s.bootFrom

def execFirmwareLoad (s : State) : Host.Outcome State Fault Refusal := .next s.loadFirmware

/-- Device reset: every register and table at its reset value; what stands in HBM, CXL, host memory, other packages and
drives stays, as does whether the device has cooled since a trip, and the boot ROM verifies the image (21 R374,
R380, R383; log 43). -/
def State.deviceReset (s : State) : State :=
  ({ State.reset with
    cooling := s.cooling
    now := s.now, pclock := s.now, pkg := s.pkg, drives := s.drives, links := s.links, ucie := s.ucie
    mem := s.mem.filter fun c => [3, 4, 5, 6, 8].contains (keyKind c.1)
    full := s.full.filter fun k => keyKind k == 3
    poison := s.poison.filter fun k => keyKind k == 3 || keyKind k == 4
    cur := s.cur, agenda := s.agenda, ids := s.ids, fresh := s.fresh } : State).bootFrom

def execDeviceReset (s : State) : Host.Outcome State Fault Refusal := .next s.deviceReset

/-- An attestation request, which the boot block takes in recovery too (21 R380, R381). -/
def State.attestAsk (s : State) : State := { s with areq := true, adone := false }

def execAttestationRequest (s : State) : Host.Outcome State Fault Refusal := .next s.attestAsk

/-- What a report is made of: its number, the nonce, the version, the firmware's digest, the fenced quads (21 R381). -/
def State.attested (s : State) : List Word :=
  toW s.fresh :: ((List.range 4).map fun i => mget 0 (0x30100 + 8 * i) s.regs) ++ [s.bver] ++
    ((List.range 4).map fun i => s.fwdig.extractLsb' (64 * i) 64) ++ (List.range 4).map fun d => (s.pdie d).fenced

/-- The report is ready; it replaces the one before (21 R381). -/
def State.attestDone (s : State) : State :=
  if s.areq then { s with areq := false, adone := true, attest := s.attested, fresh := s.fresh + 1 } else s

def execAttestationReady (s : State) : Host.Outcome State Fault Refusal := .next s.attestDone

/-! ## Writes of the control space -/

/-- A base register with its alignment bits left out (log 44). -/
def alignBase (v : Word) (n : Nat) : Word := toW (bits v 0 52 / 2 ^ n * 2 ^ n)

/-- A write to a register of a partition that only stores. -/
def State.writePart (s : State) (p o : Nat) (v : Word) : Option State :=
  match o with
  | 0x00 => some (s.modPart p fun x => { x with pshape := toW (bits v 0 21) })
  | 0x20 => some (s.modPart p fun x => { x with pswtime := v })
  | 0x30 => some (s.modPart p fun x => { x with foBase := alignBase v 16 })
  | 0x38 => some (s.modPart p fun x => { x with foSize := v })
  | _ => none

/-- A write to a register of a host queue that only stores, while the queue is not enabled (21 R375). -/
def State.writeHostq (s : State) (q o : Nat) (v : Word) : Option State :=
  let put (f : HostQ → HostQ) : State := if (mget {} q s.hostqs).en then s else s.modHostq q f
  match o with
  | 0x00 => some (put fun x => { x with base := toW (bits v 0 52) })
  | 0x20 => some (put fun x => { x with cmp := toW (bits v 0 52) })
  | _ => none

/-- A value of a context default as mtc would take it (04 R100; 21 R374). -/
def defaultOf (n : Nat) (v : Word) (f : Slot → Word) (old : Word) : Word := ((mtcWrite {} n v).map f).getD old

/-- A write to a register of the context window (21 R374): of a context that exists. -/
def State.writeCtx (s : State) (cx o : Nat) (v : Word) : Option State :=
  let put (f : Ctx → Ctx) : Option State := some (if (s.ctx cx).exist then s.modCtx cx f else s)
  match o with
  | 0x140 => put fun x => if x.resident.isSome then x else { x with ptbase := alignBase v 14 }
  | 0x148 => put fun x => { x with saveba := alignBase v 16 }
  | 0x150 => put fun x => { x with cxgraph := alignBase v 6 }
  | 0x158 => put fun x => { x with privch := v.getLsbD 0, svcn := v.getLsbD 1 }
  | 0x160 => put fun x => { x with dround := defaultOf 0x008 v Slot.round x.dround }
  | 0x168 => put fun x => { x with db8fmt := defaultOf 0x009 v Slot.b8fmt x.db8fmt }
  | 0x170 => put fun x => { x with dcheck := defaultOf 0x00A v Slot.check x.dcheck }
  | 0x178 => put fun x => { x with dwlimit := v }
  | 0x180 => put fun x => { x with dseed := defaultOf 0x012 v Slot.seed x.dseed }
  | 0x188 => put fun x => { x with hsbase := toW (bits v 0 52) }
  | _ => none

/-- A halt group of the selected die changed. -/
def State.modHalt (s : State) (ag : Agent) (f : Halt → Halt) : State :=
  s.modPdie (s.selDie ag) fun d => { d with halts := mmod {} (s.sel ag .hg).toNat f d.halts }

/-- A write to a register of the selected die that only stores (21 R374). A write of ffbase whose log2 depth is 1 to 3 is ignored whole (log
22). -/
def State.writeDie (s : State) (ag : Agent) (o : Nat) (v : Word) : Option State :=
  let pd := s.selDie ag
  let rt := (s.sel ag .rt).toNat
  match o with
  | 0x408 => some (s.modPdie pd fun d => { d with sqBase := alignBase v 18 })
  | 0x420 => some (s.modPdie pd fun d => { d with toBase := alignBase v 6 })
  | 0x428 => some (s.modPdie pd fun d => { d with toSize := v })
  | 0x4A0 => some (s.setSel ag .jq (toW (bits v 0 8)))
  | 0x4B0 => some (s.modPdie pd fun d => { d with jobs := mmod {} (s.sel ag .jq).toNat (fun j => { j with base := v }) d.jobs })
  | 0x500 => some (s.setSel ag .hg (toW (bits v 0 4)))
  | 0x508 => some (s.modHalt ag fun h => { h with mem := h.mem.set 0 v })
  | 0x510 => some (s.modHalt ag fun h => { h with mem := h.mem.set 1 v })
  | 0x518 => some (s.modHalt ag fun h => { h with mem := h.mem.set 2 v })
  | 0x520 => some (s.modHalt ag fun h => { h with mem := h.mem.set 3 v })
  | 0x528 => some (s.modHalt ag fun h => { h with eng := v.getLsbD 0, stopf := v.getLsbD 1 })
  | 0x530 => some (s.modHalt ag fun h => { h with trig := v })
  | 0x600 => some (s.setSel ag .rt (toW (bits v 0 18)))
  | 0x610 => some (s.writeReach ag pd (rt % 256) (rt / 256) v)
  | 0x700 => some (s.setSel ag .cap (toW (bits v 0 12)))
  | 0x708 => some (s.setSel ag .cap0 v)
  | 0x800 => some (s.setSel ag .dl (toW (bits v 0 8)))
  | 0x808 => some (s.modPdie pd fun d => { d with dls := mmod {} (s.sel ag .dl).toNat (fun q => { q with base := alignBase v 0 }) d.dls })
  | 0x900 => some (s.setSel ag .rdAddr v)
  | 0x908 => some (s.setSel ag .rdSeq v)
  | 0xA00 => some (s.setSel ag .fe (toW (bits v 0 14)))
  | 0xA08 =>
    let fe := (s.sel ag .fe).toNat
    some (s.modPdie pd fun d => { d with femark := mput (fe % 64 * 256 + fe / 64) (v.getLsbD 0) d.femark })
  | o =>
    if 0x440 ≤ o ∧ o < 0x4A0 then
      let k := (o - 0x440) / 0x20
      match (o - 0x440) % 0x20 with
      | 0x00 => some (if 1 ≤ bits v 0 4 ∧ bits v 0 4 ≤ 3 then s else s.modFree pd k fun q => { q with base := toW (bits v 0 52) })
      | 0x18 => some ((s.modFree pd k fun q => { q with low := v }).lowNotice pd k)
      | _ => none
    else none

/-- A write of an aligned word to a register that has no behaviour of its own; none for any other offset (21 R372 to R374;
10 R216). The debug window of a supervisor core is reached at its own offsets. -/
def State.plainWrite (s : State) (ag : Agent) (off : Nat) (v : Word) : Option State :=
  if off % 8 ≠ 0 then none
  else if !s.answers off then some s
  else if off < 0x10000 then
    if off = 0 then some (if v.getLsbD 7 then { s with supf := false } else s)
    else if 0x240 ≤ off ∧ off < 0x260 then some (s.modPdie ((off - 0x240) / 8) fun d => { d with corrected := v })
    else if off = 0x260 then some { s with cerrth := v }
    else none
  else if off < 0x10400 then s.writePart ((off - 0x10000) / 0x40) (off % 0x40) v
  else if off = 0x30010 then some { s with bstage := alignBase v 12 }
  else if (0x30100 ≤ off ∧ off < 0x30120) ∨ (0x40000 ≤ off ∧ off < 0x40040) then some { s with regs := mput off v s.regs }
  else if 0x100000 ≤ off ∧ off < 0x104000 then s.writeHostq ((off - 0x100000) / 0x40) (off % 0x40) v
  else if off = 0x1000000 then some { s with hwin := toW (bits v 0 27) }
  else if off = 0x1000100 then some (s.setSel ag .cx (toW (bits v 0 16)))
  else if 0x1000140 ≤ off ∧ off < 0x1000190 then s.writeCtx (s.sel ag .cx).toNat (off - 0x1000000) v
  else if off = 0x1000400 then some (s.setSel ag .d (toW (bits v 0 2)))
  else if 0x1000408 ≤ off ∧ off < 0x1000B00 then s.writeDie ag (off - 0x1000000) v
  else if 0x8000000 ≤ off ∧ off < 0xC000000 ∧ off % 65536 ≠ 0x290 then
    match ag with
    | .host => none
    | .sup pd => some (s.debugWrite pd (off - 0x8000000) (leBytes 8 v.toNat))
  else none

def execRegisterWrite (ag : Agent) (off : Nat) (v : Word) (s : State) : Host.Outcome State Fault Refusal :=
  .next ((s.plainWrite ag off v).getD s)

/-- A write to a swcmd register: the address, and a command (21 R374). -/
def State.writeSw (s : State) (pd : Nat) (v : Word) : State :=
  let a := toW (bits v 6 46 * 64)
  let s := s.modPdie pd fun d => { d with swcmd := a ||| (d.swcmd &&& 0x30) }
  match bits v 0 2 with
  | 1 => s.swCommand pd a false
  | 2 => s.swCommand pd a true
  | _ => s

/-- A write to a register of the selected die that has a behaviour of its own (21 R374). -/
def State.commandDie (s : State) (ag : Agent) (o : Nat) (v : Word) : State :=
  let pd := s.selDie ag
  let rt := (s.sel ag .rt).toNat
  let cap := (s.sel ag .cap).toNat
  let jq := (s.sel ag .jq).toNat
  let hg := (s.sel ag .hg).toNat
  match o with
  | 0x410 => s.supHead pd (v.setWidth 32)
  | 0x4A8 => s.assignQueue pd jq v (mget {} jq (s.pdie pd).jobs).base
  | 0x538 => if v = 1 then s.haltGroups pd [hg] else if v = 2 then s.haltRelease pd hg else s
  | 0x608 => s.writeRouter ag pd (rt % 256) (rt / 256) (v.setWidth 32)
  | 0x710 => s.writeCap ag pd (cap % 64) (cap / 64) (s.sel ag .cap0) v
  | 0x810 => s.deadHead pd (s.sel ag .dl).toNat (v.setWidth 32)
  | 0x910 => if v = 1 then s.discardBy ag (s.sel ag .cx).toNat (s.sel ag .rdAddr).toNat (s.sel ag .rdSeq).toNat else s
  | o => if 0x440 ≤ o ∧ o < 0x4A0 ∧ (o - 0x440) % 0x20 = 0x08 then s.frameTail pd ((o - 0x440) / 0x20) (v.setWidth 32) else s

/-- A write to a register of a host queue that has a behaviour of its own (21 R375 to R377). -/
def State.commandHostq (s : State) (q o : Nat) (v : Word) : State :=
  match o with
  | 0x08 => s.hostConfig q v
  | 0x10 => s.doorbell q (v.setWidth 32)
  | 0x28 => s.hostHead q (v.setWidth 32)
  | _ => s

/-- A write to a register that has a behaviour of its own; other offsets ignore it (21 R372 to R382). -/
def State.command (s : State) (ag : Agent) (off : Nat) (v : Word) : State :=
  let cx := (s.sel ag .cx).toNat
  if 0x200 ≤ off ∧ off < 0x220 then s.writeSw ((off - 0x200) / 8) v
  else if 0x10000 ≤ off ∧ off < 0x10400 then
    let p := (off - 0x10000) / 0x40
    match off % 0x40 with
    | 0x08 => if v = 1 then s.formPart p else if v = 2 then s.dissolvePart p else s
    | 0x28 => s.switchRequest p v
    | _ => s
  else if off = 0x20000 then s.setPower v
  else if off = 0x30000 then (if v = 1 then s.startLoad else s)
  else if off = 0x30120 then (if v = 1 then s.attestAsk else s)
  else if 0x100000 ≤ off ∧ off < 0x104000 then s.commandHostq ((off - 0x100000) / 0x40) (off % 0x40) v
  else if off = 0x1000108 then
    (if v = 1 then s.createCtx cx else if v = 2 then s.destroyCtx cx else if v = 3 then s.loadGraph cx else s)
  else if 0x1000408 ≤ off ∧ off < 0x1000B00 then s.commandDie ag (off - 0x1000000) v
  else if 0x2000000 ≤ off ∧ off < 0x4000000 then s.hostWindow true (off - 0x2000000) v
  else s

/-- A write of a word to the control space by an agent (21 R372). -/
def State.ctlWrite (s : State) (ag : Agent) (off : Nat) (v : Word) : State :=
  match s.plainWrite ag off v with
  | some s => s
  | none => if off % 8 = 0 then s.command ag off v else s

end Sys2Proof.Machine
end

