-- ==== Sys2Proof/Machine/Vector.lean ====
section
/-! DEFINITION. Vector instructions: lanes, packed halves, conversions, permutations, reductions, compares, and the 16-bit
forms (11 R235; 14 R296 to R313). -/

namespace Sys2Proof.Machine

open Sys2Proof

/-! ## Frames -/

/-- A vector destination takes a function of each enabled lane, with its flags (14 R296). -/
def vlanes (i : Instr) (c : Ctl) (len : Nat) (d : Spec) (reads : Slot → List Reg) (lat : Nat)
    (f : Slot → Nat → W32 × Flags) : State → Host.Outcome State Fault Refusal :=
  issueLanes i c len reads (fun _ => [.v d]) (fun t => laneMask t c != 0) (okBody fun r t s =>
    let m := laneMask t c
    let flags := (List.range 32).foldl (fun a j => if m.getLsbD j then a ||| (f t j).2 else a) (0 : Flags)
    (s.later r lat [.v d (ofLanes fun j => (f t j).1) m]).flag r flags)

/-- Two vector sources. -/
def lanes2 (i : Instr) (c : Ctl) (len : Nat) (d a b : Spec) (lat : Nat) (f : Slot → LaneOp) :
    State → Host.Outcome State Fault Refusal :=
  vlanes i c len d (fun _ => [.v a, .v b]) lat fun t j => f t (lane (readV t a) j) (lane (readV t b) j)

/-- One vector source. -/
def lanes1 (i : Instr) (c : Ctl) (d a : Spec) (lat : Nat) (f : Slot → W32 → W32 × Flags) :
    State → Host.Outcome State Fault Refusal :=
  vlanes i c 4 d (fun _ => [.v a]) lat fun t j => f t (lane (readV t a) j)

/-- Two vector sources and the destination as a third (14 R304). -/
def lanes3 (i : Instr) (c : Ctl) (d a b : Spec) (f : Slot → W32 → W32 → W32 → W32 × Flags) :
    State → Host.Outcome State Fault Refusal :=
  vlanes i c 4 d (fun _ => [.v a, .v b, .v d]) 2 fun t j =>
    f t (lane (readV t a) j) (lane (readV t b) j) (lane (readV t d) j)

/-- A result without flags. -/
def pure2 (f : W32 → W32 → W32) (_ : Slot) (a b : W32) : W32 × Flags := (f a b, 0)
/-- A result without flags. -/
def pure1 (f : W32 → W32) (_ : Slot) (a : W32) : W32 × Flags := (f a, 0)
/-- Guard, length and stall count of a 16-bit form (11 R235). -/
def ctl16 : Ctl := ⟨0, false, 0⟩
/-- The rounding mode of arithmetic results (14 R297). -/
def Slot.mode (t : Slot) : RMode := modeOf t.round
/-- Shift amount of a lane (14 R298). -/
def laneSh (b : W32) : Nat := b.toNat % 32

/-! ## Values -/

/-- Least or greatest of two codes of a format: NaN if either is one, −0 below +0 (14 R300). -/
def Fmt.pick (f : Fmt) (greatest : Bool) (x y : Nat) : Nat × Flags :=
  let a := f.decode x
  let b := f.decode y
  let fl := sigFlag a ||| sigFlag b
  if a.isNan || b.isNan then (f.nan, fl)
  else
    let less := fLt a b || (fEq a b && a.neg && !b.neg)
    (if less == greatest then y else x, fl)

/-- A two-operand operation on FP32 lanes. -/
def f32op (g : RMode → Nat → Nat → Nat × Flags) (t : Slot) (a b : W32) : W32 × Flags := w32 (g t.mode a.toNat b.toNat)

/-- Half h of a lane (03 R62). -/
def half (x : W32) (h : Nat) : Nat := bits x (16 * h) 16
/-- Byte j of a lane. -/
def byteOf (x : W32) (j : Nat) : Nat := bits x (8 * j) 8
/-- A lane from its halves with their flags. -/
def pack (lo hi : Nat × Flags) : W32 × Flags := (BitVec.ofNat 32 (lo.1 + 2 ^ 16 * hi.1), lo.2 ||| hi.2)
/-- A two-operand operation on packed halves (14 R307). -/
def halfOp (g : RMode → Nat → Nat → Nat × Flags) (t : Slot) (a b : W32) : W32 × Flags :=
  pack (g t.mode (half a 0) (half b 0)) (g t.mode (half a 1) (half b 1))

/-- 1 ÷ √a with a sticky last bit (14 R301). -/
def fRsq (x : FVal) : FVal × Flags :=
  match x with
  | .nan _ => (.nan false, sigFlag x)
  | .zero s => (.inf s, fDZ)
  | .inf false => (.zero false, 0)
  | .inf true => (.nan false, fNV)
  | .fin true _ _ => (.nan false, fNV)
  | .fin false m e =>
    let odd := e % 2 ≠ 0
    let m := if odd then 2 * m else m
    let e := if odd then e - 1 else e
    let r := isqrt (2 ^ 256 / m)
    (.fin false (2 * r + (if r * r * m = 2 ^ 256 then 0 else 1)) (-128 - e / 2 - 1), 0)

/-- Bits after the point of the series for 2^x and log2 x (log 26). -/
abbrev serBits : Nat := 256
/-- ⌊ln 2 × 2^256⌋. -/
abbrev ln2 : Nat := 80260960185991308862233904206310070533990667611589946606122867505419956976171

/-- The terms of e^y for a y below 1, in fixed point. -/
def expTerms (y : Nat) : Nat → Nat → Nat → Nat → Nat
  | 0, _, _, a => a
  | n + 1, k, term, a =>
    let term := term * y / 2 ^ serBits / k
    expTerms y n (k + 1) term (a + term)

/-- 2^a (14 R301): exact for an integer; elsewhere the series with a sticky last bit. -/
def fExp2 (x : FVal) : FVal × Flags :=
  match x with
  | .nan _ => (.nan false, sigFlag x)
  | .inf true => (.zero false, 0)
  | .inf false => (.inf false, 0)
  | .zero _ => (.fin false 1 0, 0)
  | .fin s m e =>
    if gtDy m e 1 10 then (.fin false 1 (if s then -1024 else 1024), 0)
    else if e ≥ 0 then
      let n : Int := scaleUp m e 0
      (.fin false 1 (if s then -n else n), 0)
    else
      let q : Nat := 2 ^ (-e).toNat
      let z : Int := if s then -(m : Int) else m
      let n := z / (q : Int)
      let f : Nat := (z % (q : Int)).toNat
      if f = 0 then (.fin false 1 n, 0)
      else
        let y := f * ln2 / q
        (.fin false (2 * expTerms y 64 1 (2 ^ serBits) (2 ^ serBits) + 1) (n - serBits - 1), 0)

/-- The terms of the series of the inverse hyperbolic tangent, in fixed point. -/
def atanhTerms (z2 : Nat) : Nat → Nat → Nat → Nat → Nat
  | 0, _, _, a => a
  | n + 1, k, p, a => atanhTerms z2 n (k + 2) (p * z2 / 2 ^ serBits) (a + p / k)

/-- log2 a (14 R301): exact for a power of two; elsewhere the series with a sticky last bit. -/
def fLog2 (x : FVal) : FVal × Flags :=
  match x with
  | .nan _ => (.nan false, sigFlag x)
  | .inf false => (.inf false, 0)
  | .inf true => (.nan false, fNV)
  | .zero _ => (.inf true, fDZ)
  | .fin true _ _ => (.nan false, fNV)
  | .fin false m e =>
    let l := Nat.log2 m
    let n : Int := e + l
    if 2 ^ l = m then (ofInt n 0 false, 0)
    else
      let z := (m - 2 ^ l) * 2 ^ serBits / (m + 2 ^ l)
      let a := 2 * atanhTerms (z * z / 2 ^ serBits) 96 1 z 0
      let sum : Int := n * 2 ^ serBits + (a * 2 ^ serBits / ln2 : Nat)
      (.fin (decide (sum < 0)) (2 * sum.natAbs + 1) (-(serBits : Int) - 1), 0)

/-- A one-operand function of FP32. -/
def f32fn (g : FVal → FVal × Flags) (t : Slot) (a : W32) : W32 × Flags := w32 (fp32.deliver t.mode (g (val32 a)))

/-- Rounding to an integral value (14 R302). -/
def fIntegral (mode : RMode) (nx : Bool) (a : W32) : W32 × Flags :=
  match val32 a with
  | .nan s => (nan32, if s then fNV else 0)
  | .fin s m e =>
    let r := roundAt mode s 0 isOdd m e
    let v : FVal := if r.1 = 0 then .zero s else .fin s r.1 0
    if e ≥ 0 then (a, 0) else (BitVec.ofNat 32 (fp32.deliver .rne (v, 0)).1, if nx && r.2 then fNX else 0)
  | _ => (a, 0)

/-- The fused forms (14 R304, R305): a × b + c, with signs of the product and of c. -/
def fused (f : Fmt) (np nc : Bool) (mode : RMode) (a b c : Nat) : Nat × Flags :=
  let x := f.decode a
  let z := f.decode c
  f.fma mode (if np then x.flip else x) (f.decode b) (if nc then z.flip else z)

/-- A fused form on FP32 lanes. -/
def fma32 (np nc : Bool) (t : Slot) (a b c : W32) : W32 × Flags := w32 (fused fp32 np nc t.mode a.toNat b.toNat c.toNat)
/-- A fused form on packed halves (14 R305). -/
def fmaHalf (f : Fmt) (t : Slot) (a b c : W32) : W32 × Flags :=
  pack (fused f false false t.mode (half a 0) (half b 0) (half c 0)) (fused f false false t.mode (half a 1) (half b 1) (half c 1))

/-- The dot product of two halves into FP32, rounded once; infinite terms of both signs are invalid beside a NaN too (14 R306). -/
def dot2 (f : Fmt) (t : Slot) (a b c : W32) : W32 × Flags :=
  let p0 := fMul (f.decode (half a 0)) (f.decode (half b 0))
  let p1 := fMul (f.decode (half a 1)) (f.decode (half b 1))
  let s1 := fAdd t.mode (val32 c) p0.1
  let s2 := fAdd t.mode s1.1 p1.1
  let terms := [val32 c, p0.1, p1.1]
  let both := if terms.contains (.inf false) && terms.contains (.inf true) then fNV else 0
  w32 (fp32.deliver t.mode (s2.1, p0.2 ||| p1.2 ||| s1.2 ||| s2.2 ||| both))

/-- The dot product of four bytes, wrapping (14 R306). -/
def dot4 (sg : Bool) (_ : Slot) (a b c : W32) : W32 × Flags :=
  let v (x : W32) (j : Nat) : Int :=
    let n := byteOf x j
    if sg && decide (n ≥ 128) then (n : Int) - 256 else n
  (c + BitVec.ofInt 32 ((List.range 4).foldl (fun s j => s + v a j * v b j) 0), 0)

/-! ## Conversions -/

/-- Conversion of a lane to an integer range (03 R64). -/
def toIntLane (lo hi : Int) (t : Slot) (a : W32) : W32 × Flags :=
  let r := toIntSat t.mode lo hi (val32 a)
  (BitVec.ofInt 32 r.1, r.2)

/-- Exact conversion to FP32 (03 R76). -/
def widen (x : FVal) : W32 × Flags := w32 (fp32.deliver .rne (x, sigFlag x))

/-- Conversion of an FP32 lane to an IEEE half (03 R75). -/
def narrow (f : Fmt) (mode : RMode) (a : W32) : Nat × Flags := f.deliver mode (val32 a, sigFlag (val32 a))

/-- A byte of a lane replaced. -/
def setByte (x : W32) (k v : Nat) : W32 := (x &&& ~~~(255#32 <<< (8 * k))) ||| (BitVec.ofNat 32 v <<< (8 * k))

/-- The generators of the enabled lanes after one or two draws (03 R68). -/
def stepGens (m : W32) (n : Nat) (gens : Map W32) : Map W32 :=
  (List.range 32).foldl (fun k j =>
    let x := (draw16 (mget 0 j gens)).2
    if m.getLsbD j then mput j (if n = 2 then (draw16 x).2 else x) k else k) gens

/-- A conversion that draws n times in each enabled lane where c.round selects SR (03 R67, R68; 14 R297). -/
def vdraw (i : Instr) (c : Ctl) (d : Spec) (reads : Slot → List Reg) (n : Nat)
    (f : Slot → Nat → RMode → RMode → W32 × Flags) : State → Host.Outcome State Fault Refusal :=
  issueLanes i c 4 reads (fun _ => [.v d]) (fun t => laneMask t c != 0) (okBody fun r t s =>
    let m := laneMask t c
    let gen (j : Nat) : W32 := mget 0 j t.gens
    let g (j : Nat) : W32 × Flags :=
      let x := draw16 (gen j)
      let y := draw16 x.2
      f t j (modeConv t.round x.1) (modeConv t.round y.1)
    let flags := (List.range 32).foldl (fun a j => if m.getLsbD j then a ||| (g j).2 else a) (0 : Flags)
    let s := if bits t.round 0 3 = 4 then
        s.modSlot r fun u => { u with gens := stepGens m n u.gens }
      else s
    (s.later r 2 [.v d (ofLanes fun j => (g j).1) m]).flag r flags)

/-- vpack (14 R308). -/
def vpack (i : Instr) (c : Ctl) (d a b : Spec) (f : Fmt) : State → Host.Outcome State Fault Refusal :=
  vdraw i c d (fun _ => [.v a, .v b]) 2 fun t j m0 m1 =>
    pack (narrow f m0 (lane (readV t a) j)) (narrow f m1 (lane (readV t b) j))

/-! ## Reductions -/

/-- A scalar takes a reduction of the enabled lanes, with its flags; only the never form does nothing (14 R310). -/
def vreduce (i : Instr) (c : Ctl) (d a : Spec) (f : Slot → List (Nat × W32) → Word × Flags) :
    State → Host.Outcome State Fault Refusal :=
  issue i c 4 false (fun _ => [.v a]) (rX d) (fun _ => !(c.g == 0 && c.n)) (okBody fun r t s =>
    let ls := ((List.range 32).filter fun j => laneOn t c j).map fun j => (j, lane (readV t a) j)
    let x := f t ls
    (s.later r 3 [writeX t d x.1]).flag r x.2)

/-- One level of the pairwise tree of vsum.f32 (03 R80). -/
def sumLevel (mode : RMode) (l : List W32) : Nat → List W32 × Flags
  | 0 => ([], 0)
  | n + 1 =>
    let p := sumLevel mode l n
    let r := fp32.add mode (l.getD (2 * n) 0).toNat (l.getD (2 * n + 1) 0).toNat
    (p.1 ++ [BitVec.ofNat 32 r.1], p.2 ||| r.2)

/-- The tree sum of 32 words (03 R80). -/
def treeSum (mode : RMode) (l : List W32) : W32 × Flags :=
  let r := [16, 8, 4, 2, 1].foldl (fun a w => let p := sumLevel mode a.1 w; (p.1, a.2 ||| p.2)) (l, (0 : Flags))
  (r.1.getD 0 0, r.2)

/-- Signed sum of 32-bit lanes, wrapped. -/
def sumI (ls : List (Nat × W32)) : W32 := ls.foldl (fun a x => a + x.2) 0

/-- Fold of an FP32 choice over the lanes. -/
def foldPick (greatest : Bool) (id : W32) (ls : List (Nat × W32)) : Word × Flags :=
  let r := ls.foldl (fun a x => let p := fp32.pick greatest a.1.toNat x.2.toNat; (BitVec.ofNat 32 p.1, a.2 ||| p.2))
    (id, (0 : Flags))
  (r.1.setWidth 64, r.2)

/-- Order of vargmax: R300's, with every NaN above +∞ (14 R311). -/
def rankLt (x y : W32) : Bool :=
  let a := val32 x
  let b := val32 y
  if a.isNan then false else if b.isNan then true else fLt a b || (fEq a b && a.neg && !b.neg)

/-- vargmax (14 R311). -/
def argmax (ls : List (Nat × W32)) : Word × Flags :=
  let best := ls.foldl (fun a x => match a with
    | none => some x
    | some (y : Nat × W32) => if rankLt y.2 x.2 then some x else some y) none
  (toW ((best.map Prod.fst).getD 32), ls.foldl (fun a x => a ||| sigFlag (val32 x.2)) 0)

/-! ## Compares -/

/-- Predicates take a condition of each enabled lane and its complement (04 R92; 14 R312). -/
def vcompare (i : Instr) (c : Ctl) (p e : PSpec) (a b : Spec) (lat : Nat) (f : W32 → W32 → Bool × Flags) :
    State → Host.Outcome State Fault Refusal :=
  issueLanes i c 4 (fun _ => [.v a, .v b]) (fun _ => [.p p, .p e]) (fun t => laneMask t c != 0) (okBody fun r t s =>
    let m := laneMask t c
    let g (j : Nat) := f (lane (readV t a) j) (lane (readV t b) j)
    let flags := (List.range 32).foldl (fun x j => if m.getLsbD j then x ||| (g j).2 else x) (0 : Flags)
    (s.later r lat (cmpWrites p e (ofBits32 fun j => (g j).1) m)).flag r flags)

/-- The condition of vcmpf with its flag (14 R312). -/
def fcond (f : FCond) (x y : W32) : Bool × Flags :=
  let a := val32 x
  let b := val32 y
  let un := a.isNan || b.isNan
  let sg := sigFlag a ||| sigFlag b
  let q := if un then fNV else sg
  match f with
  | .eq => (fEq a b, sg)
  | .ne => (!fEq a b, sg)
  | .lt => (!un && fLt a b, q)
  | .le => (!un && !fLt b a, q)
  | .gt => (!un && fLt b a, q)
  | .ge => (!un && !fLt a b, q)
  | .uno => (un, sg)
  | .ord => (!un, sg)

/-- The condition of vcmpi (14 R312). -/
def icond (f : ICond) (a b : W32) : Bool :=
  match f with
  | .eq => a == b
  | .ne => a != b
  | .lt => a.slt b
  | .le => !b.slt a
  | .gt => b.slt a
  | .ge => !a.slt b
  | .ltu => decide (a < b)
  | .geu => !decide (a < b)

/-! ## Instructions -/

/-- A lane operation that has a 16-bit form too (14 R298). -/
def opAddI : Slot → LaneOp := pure2 fun a b => a + b
def execVaddI32 (c : Ctl) (d a b : Spec) := lanes2 (.vaddI32 c d a b) c 4 d a b 1 opAddI
/-- A lane operation that has a 16-bit form too (14 R298). -/
def opSubI : Slot → LaneOp := pure2 fun a b => a - b
def execVsubI32 (c : Ctl) (d a b : Spec) := lanes2 (.vsubI32 c d a b) c 4 d a b 1 opSubI
/-- A lane operation that has a 16-bit form too (14 R298). -/
def opAnd : Slot → LaneOp := pure2 fun a b => a &&& b
def execVand (c : Ctl) (d a b : Spec) := lanes2 (.vand c d a b) c 4 d a b 1 opAnd
/-- A lane operation that has a 16-bit form too (14 R298). -/
def opOr : Slot → LaneOp := pure2 fun a b => a ||| b
def execVor (c : Ctl) (d a b : Spec) := lanes2 (.vor c d a b) c 4 d a b 1 opOr
/-- A lane operation that has a 16-bit form too (14 R298). -/
def opXor : Slot → LaneOp := pure2 fun a b => a ^^^ b
def execVxor (c : Ctl) (d a b : Spec) := lanes2 (.vxor c d a b) c 4 d a b 1 opXor
/-- A lane operation that has a 16-bit form too (14 R298). -/
def opShl : Slot → LaneOp := pure2 fun a b => a <<< laneSh b
def execVshl (c : Ctl) (d a b : Spec) := lanes2 (.vshl c d a b) c 4 d a b 1 opShl
def execVmulI32 (c : Ctl) (d a b : Spec) := lanes2 (.vmulI32 c d a b) c 4 d a b 1 (pure2 fun a b => a * b)
def execVmulhI32 (c : Ctl) (d a b : Spec) := lanes2 (.vmulhI32 c d a b) c 4 d a b 1 (pure2 fun a b => BitVec.ofInt 32 (a.toInt * b.toInt / 2 ^ 32))
def execVandn (c : Ctl) (d a b : Spec) := lanes2 (.vandn c d a b) c 4 d a b 1 (pure2 fun a b => a &&& ~~~b)
def execVshr (c : Ctl) (d a b : Spec) := lanes2 (.vshr c d a b) c 4 d a b 1 (pure2 fun a b => a >>> laneSh b)
def execVsra (c : Ctl) (d a b : Spec) := lanes2 (.vsra c d a b) c 4 d a b 1 (pure2 fun a b => a.sshiftRight (laneSh b))
def execVminI32 (c : Ctl) (d a b : Spec) := lanes2 (.vminI32 c d a b) c 4 d a b 1 (pure2 fun a b => if a.slt b then a else b)
def execVmaxI32 (c : Ctl) (d a b : Spec) := lanes2 (.vmaxI32 c d a b) c 4 d a b 1 (pure2 fun a b => if a.slt b then b else a)
def execVminN32 (c : Ctl) (d a b : Spec) := lanes2 (.vminN32 c d a b) c 4 d a b 1 (pure2 fun a b => if a < b then a else b)
def execVmaxN32 (c : Ctl) (d a b : Spec) := lanes2 (.vmaxN32 c d a b) c 4 d a b 1 (pure2 fun a b => if a < b then b else a)
def execVabsI32 (c : Ctl) (d a : Spec) := lanes1 (.vabsI32 c d a) c d a 1 (pure1 fun a => if a.slt 0 then -a else a)
/-- A lane operation on FP32 (14 R299, R300). -/
def opAddF : Slot → LaneOp := f32op fp32.add
def execVaddF32 (c : Ctl) (d a b : Spec) := lanes2 (.vaddF32 c d a b) c 4 d a b 2 opAddF
/-- A lane operation on FP32 (14 R299, R300). -/
def opSubF : Slot → LaneOp := f32op fp32.sub
def execVsubF32 (c : Ctl) (d a b : Spec) := lanes2 (.vsubF32 c d a b) c 4 d a b 2 opSubF
/-- A lane operation on FP32 (14 R299, R300). -/
def opMulF : Slot → LaneOp := f32op fp32.mul
def execVmulF32 (c : Ctl) (d a b : Spec) := lanes2 (.vmulF32 c d a b) c 4 d a b 2 opMulF
/-- A lane operation on FP32 (14 R299, R300). -/
def opMinF : Slot → LaneOp := f32op fun _ => fp32.pick false
def execVminF32 (c : Ctl) (d a b : Spec) := lanes2 (.vminF32 c d a b) c 4 d a b 2 opMinF
/-- A lane operation on FP32 (14 R299, R300). -/
def opMaxF : Slot → LaneOp := f32op fun _ => fp32.pick true
def execVmaxF32 (c : Ctl) (d a b : Spec) := lanes2 (.vmaxF32 c d a b) c 4 d a b 2 opMaxF
def execVabsF32 (c : Ctl) (d a : Spec) := lanes1 (.vabsF32 c d a) c d a 2 (pure1 fun a => a &&& 0x7FFFFFFF)
def execVnegF32 (c : Ctl) (d a : Spec) := lanes1 (.vnegF32 c d a) c d a 2 (pure1 fun a => a ^^^ 0x80000000)
def execVsqrtF32 (c : Ctl) (d a : Spec) := lanes1 (.vsqrtF32 c d a) c d a 4 (f32fn fSqrt)
def execVrcpF32 (c : Ctl) (d a : Spec) := lanes1 (.vrcpF32 c d a) c d a 4 (f32fn fun x => fDiv (.fin false 1 0) x)
def execVrsqF32 (c : Ctl) (d a : Spec) := lanes1 (.vrsqF32 c d a) c d a 4 (f32fn fRsq)
def execVexp2F32 (c : Ctl) (d a : Spec) := lanes1 (.vexp2F32 c d a) c d a 4 (f32fn fExp2)
def execVlog2F32 (c : Ctl) (d a : Spec) := lanes1 (.vlog2F32 c d a) c d a 4 (f32fn fLog2)
def execVfloorF32 (c : Ctl) (d a : Spec) := lanes1 (.vfloorF32 c d a) c d a 2 (fun _ => fIntegral .rdn false)
def execVceilF32 (c : Ctl) (d a : Spec) := lanes1 (.vceilF32 c d a) c d a 2 (fun _ => fIntegral .rup false)
def execVrintF32 (c : Ctl) (d a : Spec) := lanes1 (.vrintF32 c d a) c d a 2 (fun t => fIntegral t.mode true)
def execVcopysignF32 (c : Ctl) (d a b : Spec) := lanes2 (.vcopysignF32 c d a b) c 4 d a b 2 (pure2 fun a b => (a &&& 0x7FFFFFFF) ||| (b &&& 0x80000000))
def execVfmaF32 (c : Ctl) (d a b : Spec) := lanes3 (.vfmaF32 c d a b) c d a b (fma32 false false)
def execVfmsF32 (c : Ctl) (d a b : Spec) := lanes3 (.vfmsF32 c d a b) c d a b (fma32 false true)
def execVfnmaF32 (c : Ctl) (d a b : Spec) := lanes3 (.vfnmaF32 c d a b) c d a b (fma32 true false)
def execVfmaF16x2 (c : Ctl) (d a b : Spec) := lanes3 (.vfmaF16x2 c d a b) c d a b (fmaHalf fp16)
def execVfmaBf16x2 (c : Ctl) (d a b : Spec) := lanes3 (.vfmaBf16x2 c d a b) c d a b (fmaHalf bf16)
def execVdot2F16 (c : Ctl) (d a b : Spec) := lanes3 (.vdot2F16 c d a b) c d a b (dot2 fp16)
def execVdot2Bf16 (c : Ctl) (d a b : Spec) := lanes3 (.vdot2Bf16 c d a b) c d a b (dot2 bf16)
def execVdot4I8 (c : Ctl) (d a b : Spec) := lanes3 (.vdot4I8 c d a b) c d a b (dot4 true)
def execVdot4N8 (c : Ctl) (d a b : Spec) := lanes3 (.vdot4N8 c d a b) c d a b (dot4 false)
/-- A packed-half operation that has a 16-bit form too (14 R307). -/
def opAddF16x2 : Slot → LaneOp := halfOp fp16.add
def execVaddF16x2 (c : Ctl) (d a b : Spec) := lanes2 (.vaddF16x2 c d a b) c 4 d a b 2 opAddF16x2
def execVsubF16x2 (c : Ctl) (d a b : Spec) := lanes2 (.vsubF16x2 c d a b) c 4 d a b 2 (halfOp (fp16.sub))
/-- A packed-half operation that has a 16-bit form too (14 R307). -/
def opMulF16x2 : Slot → LaneOp := halfOp fp16.mul
def execVmulF16x2 (c : Ctl) (d a b : Spec) := lanes2 (.vmulF16x2 c d a b) c 4 d a b 2 opMulF16x2
def execVmaxF16x2 (c : Ctl) (d a b : Spec) := lanes2 (.vmaxF16x2 c d a b) c 4 d a b 2 (halfOp (fun _ => fp16.pick true))
def execVminF16x2 (c : Ctl) (d a b : Spec) := lanes2 (.vminF16x2 c d a b) c 4 d a b 2 (halfOp (fun _ => fp16.pick false))
/-- A packed-half operation that has a 16-bit form too (14 R307). -/
def opAddBf16x2 : Slot → LaneOp := halfOp bf16.add
def execVaddBf16x2 (c : Ctl) (d a b : Spec) := lanes2 (.vaddBf16x2 c d a b) c 4 d a b 2 opAddBf16x2
def execVsubBf16x2 (c : Ctl) (d a b : Spec) := lanes2 (.vsubBf16x2 c d a b) c 4 d a b 2 (halfOp (bf16.sub))
/-- A packed-half operation that has a 16-bit form too (14 R307). -/
def opMulBf16x2 : Slot → LaneOp := halfOp bf16.mul
def execVmulBf16x2 (c : Ctl) (d a b : Spec) := lanes2 (.vmulBf16x2 c d a b) c 4 d a b 2 opMulBf16x2
def execVmaxBf16x2 (c : Ctl) (d a b : Spec) := lanes2 (.vmaxBf16x2 c d a b) c 4 d a b 2 (halfOp (fun _ => bf16.pick true))
def execVminBf16x2 (c : Ctl) (d a b : Spec) := lanes2 (.vminBf16x2 c d a b) c 4 d a b 2 (halfOp (fun _ => bf16.pick false))
def execVcvtF32I32 (c : Ctl) (d a : Spec) := lanes1 (.vcvtF32I32 c d a) c d a 2 (fun t a => w32 (ofIntF t.mode a.toInt))
def execVcvtI32F32 (c : Ctl) (d a : Spec) := lanes1 (.vcvtI32F32 c d a) c d a 2 (toIntLane (-2 ^ 31) (2 ^ 31 - 1))
def execVcvtF32N32 (c : Ctl) (d a : Spec) := lanes1 (.vcvtF32N32 c d a) c d a 2 (fun t a => w32 (ofIntF t.mode a.toNat))
def execVcvtN32F32 (c : Ctl) (d a : Spec) := lanes1 (.vcvtN32F32 c d a) c d a 2 (toIntLane 0 (2 ^ 32 - 1))
def execVpackF16x2 (c : Ctl) (d a b : Spec) := vpack (.vpackF16x2 c d a b) c d a b fp16
def execVpackBf16x2 (c : Ctl) (d a b : Spec) := vpack (.vpackBf16x2 c d a b) c d a b bf16
def execVcvtF32F16 (c : Ctl) (d a : Spec) (k : BitVec 5) := lanes1 (.vcvtF32F16 c d a k) c d a 2 fun _ x => widen (fp16.decode (half x k.toNat))
def execVcvtF32Bf16 (c : Ctl) (d a : Spec) (k : BitVec 5) := lanes1 (.vcvtF32Bf16 c d a k) c d a 2 fun _ x => widen (bf16.decode (half x k.toNat))
def execVcvtF32B8 (c : Ctl) (d a : Spec) (k : BitVec 5) := lanes1 (.vcvtF32B8 c d a k) c d a 2 fun t x => widen ((b8Of t.b8fmt.toNat).decode (byteOf x k.toNat))
def execVcvtF32E5m3 (c : Ctl) (d a : Spec) (k : BitVec 5) := lanes1 (.vcvtF32E5m3 c d a k) c d a 2 fun _ x => widen (e5m3Val (byteOf x k.toNat))

/-- vcvt.b8.f32 keeps the other bytes of each enabled lane (14 R308). -/
def execVcvtB8F32 (c : Ctl) (d a : Spec) (k : BitVec 5) : State → Host.Outcome State Fault Refusal :=
  vdraw (.vcvtB8F32 c d a k) c d (fun _ => [.v a, .v d]) 1 fun t j m _ =>
    let r := (b8Of t.b8fmt.toNat).ofVal (t.b8fmt.getLsbD 5) m (val32 (lane (readV t a) j))
    (setByte (lane (readV t d) j) k.toNat r.1, r.2)

/-- vcvt.e5m3.f32 keeps the other bytes of each enabled lane (14 R308). -/
def execVcvtE5m3F32 (c : Ctl) (d a : Spec) (k : BitVec 5) : State → Host.Outcome State Fault Refusal :=
  vdraw (.vcvtE5m3F32 c d a k) c d (fun _ => [.v a, .v d]) 1 fun t j m _ =>
    let r := e5m3Of m (val32 (lane (readV t a) j))
    (setByte (lane (readV t d) j) k.toNat r.1, r.2)

/-- A permutation: lanes taken from vector and scalar sources, latency 1 (14 R309). -/
def vperm (i : Instr) (c : Ctl) (len : Nat) (d : Spec) (reads : Slot → List Reg) (f : Slot → Nat → W32) :
    State → Host.Outcome State Fault Refusal :=
  vlanes i c len d reads 1 fun t j => (f t j, 0)

def execVmov (c : Ctl) (d b : Spec) := vperm (.vmov c d b) c 4 d (fun _ => [.v b]) fun t j => lane (readV t b) j
def execVbcast (c : Ctl) (d a : Spec) := vperm (.vbcast c d a) c 4 d (rX a) fun t _ => (readX t a).setWidth 32
def execVshuf (c : Ctl) (d a b : Spec) := vperm (.vshuf c d a b) c 4 d (fun _ => [.v a, .v b]) fun t j =>
  lane (readV t a) (laneSh (lane (readV t b) j))
def execVrot (c : Ctl) (d a b : Spec) := vperm (.vrot c d a b) c 4 d (fun t => [.v a, xReg t b]) fun t j =>
  lane (readV t a) ((j + bits (readX t b) 0 5) % 32)
def execVzlo (c : Ctl) (d a b : Spec) := vperm (.vzlo c d a b) c 4 d (fun _ => [.v a, .v b]) fun t j =>
  lane (readV t (if j % 2 = 0 then a else b)) (j / 2)
def execVzhi (c : Ctl) (d a b : Spec) := vperm (.vzhi c d a b) c 4 d (fun _ => [.v a, .v b]) fun t j =>
  lane (readV t (if j % 2 = 0 then a else b)) (16 + j / 2)
def execViota (c : Ctl) (d : Spec) := vperm (.viota c d) c 4 d noRegs fun _ j => BitVec.ofNat 32 j

/-- vins writes one lane, if the guard enables it (14 R309). -/
def execVins (c : Ctl) (d a b : Spec) : State → Host.Outcome State Fault Refusal :=
  issueLanes (.vins c d a b) c 4 (rXX a b) (fun _ => [.v d]) (fun t => laneOn t c (bits (readX t b) 0 5))
    (okBody fun r t s => s.later r 1
      [.v d (ofLanes fun _ => (readX t a).setWidth 32) (BitVec.ofNat 32 (2 ^ bits (readX t b) 0 5))])

/-- vext reads one lane into a scalar; its sources are read in full whatever the guard (14 R296, R309). -/
def execVext (c : Ctl) (d a b : Spec) : State → Host.Outcome State Fault Refusal :=
  issueLanes (.vext c d a b) c 4 (fun t => [.v a, xReg t b]) (rX d) (guardOn · c)
    (okBody fun r t s => s.later r 1 [writeX t d ((lane (readV t a) (bits (readX t b) 0 5)).setWidth 64)])

def execVsumI32 (c : Ctl) (d a : Spec) := vreduce (.vsumI32 c d a) c d a fun _ ls => ((sumI ls).signExtend 64, 0)
def execVsumF32 (c : Ctl) (d a : Spec) := vreduce (.vsumF32 c d a) c d a fun t ls =>
  let l := (List.range 32).map fun j => mget (0 : W32) j ls
  let r := treeSum t.mode l
  if ls = [] then (0, 0) else (r.1.setWidth 64, r.2)
def execVmaxrF32 (c : Ctl) (d a : Spec) := vreduce (.vmaxrF32 c d a) c d a fun _ => foldPick true 0xFF800000
def execVminrF32 (c : Ctl) (d a : Spec) := vreduce (.vminrF32 c d a) c d a fun _ => foldPick false 0x7F800000
def execVmaxrI32 (c : Ctl) (d a : Spec) := vreduce (.vmaxrI32 c d a) c d a fun _ ls =>
  ((ls.foldl (fun m x => if m.slt x.2 then x.2 else m) (0x80000000 : W32)).signExtend 64, 0)
def execVminrI32 (c : Ctl) (d a : Spec) := vreduce (.vminrI32 c d a) c d a fun _ ls =>
  ((ls.foldl (fun m x => if x.2.slt m then x.2 else m) (0x7FFFFFFF : W32)).signExtend 64, 0)
def execVargmaxF32 (c : Ctl) (d a : Spec) := vreduce (.vargmaxF32 c d a) c d a fun _ => argmax
def execVorr (c : Ctl) (d a : Spec) := vreduce (.vorr c d a) c d a fun _ ls =>
  ((ls.foldl (fun m x => m ||| x.2) (0 : W32)).setWidth 64, 0)

def execVcmpf (c : Ctl) (p e : PSpec) (a b : Spec) (f : FCond) := vcompare (.vcmpf c p e a b f) c p e a b 2 (fcond f)
def execVcmpi (c : Ctl) (p e : PSpec) (a b : Spec) (f : ICond) :=
  vcompare (.vcmpi c p e a b f) c p e a b 1 fun x y => (icond f x y, 0)

/-! ## 16-bit forms (11 R235) -/

def execVaddF32_16 (b d : Spec) := lanes2 (.vaddF32_16 b d) ctl16 2 d d b 2 opAddF
def execVsubF32_16 (b d : Spec) := lanes2 (.vsubF32_16 b d) ctl16 2 d d b 2 opSubF
def execVmulF32_16 (b d : Spec) := lanes2 (.vmulF32_16 b d) ctl16 2 d d b 2 opMulF
def execVmaxF32_16 (b d : Spec) := lanes2 (.vmaxF32_16 b d) ctl16 2 d d b 2 opMaxF
def execVminF32_16 (b d : Spec) := lanes2 (.vminF32_16 b d) ctl16 2 d d b 2 opMinF
def execVaddI32_16 (b d : Spec) := lanes2 (.vaddI32_16 b d) ctl16 2 d d b 1 opAddI
def execVsubI32_16 (b d : Spec) := lanes2 (.vsubI32_16 b d) ctl16 2 d d b 1 opSubI
def execVand16 (b d : Spec) := lanes2 (.vand16 b d) ctl16 2 d d b 1 opAnd
def execVor16 (b d : Spec) := lanes2 (.vor16 b d) ctl16 2 d d b 1 opOr
def execVxor16 (b d : Spec) := lanes2 (.vxor16 b d) ctl16 2 d d b 1 opXor
def execVaddF16x2_16 (b d : Spec) := lanes2 (.vaddF16x2_16 b d) ctl16 2 d d b 2 opAddF16x2
def execVmulF16x2_16 (b d : Spec) := lanes2 (.vmulF16x2_16 b d) ctl16 2 d d b 2 opMulF16x2
def execVaddBf16x2_16 (b d : Spec) := lanes2 (.vaddBf16x2_16 b d) ctl16 2 d d b 2 opAddBf16x2
def execVmulBf16x2_16 (b d : Spec) := lanes2 (.vmulBf16x2_16 b d) ctl16 2 d d b 2 opMulBf16x2
def execVshl16 (b d : Spec) := lanes2 (.vshl16 b d) ctl16 2 d d b 1 opShl
def execVmov16 (b d : Spec) := vperm (.vmov16 b d) ctl16 2 d (fun _ => [.v b]) fun t j => lane (readV t b) j

end Sys2Proof.Machine
end

