-- ==== Sys2Proof/Machine/Dispatch.lean ====
section
/-! DEFINITION. One arm per instruction and event: each calls its meaning. -/

namespace Sys2Proof.Machine

open Sys2Proof

def exec (i : Instr) (s : State) : Host.Outcome State Fault Refusal :=
  match i with
  | .add c d a b => Sys2Proof.Machine.execAdd c d a b s
  | .sub c d a b => Sys2Proof.Machine.execSub c d a b s
  | .and c d a b => Sys2Proof.Machine.execAnd c d a b s
  | .or c d a b => Sys2Proof.Machine.execOr c d a b s
  | .xor c d a b => Sys2Proof.Machine.execXor c d a b s
  | .andn c d a b => Sys2Proof.Machine.execAndn c d a b s
  | .shl c d a b => Sys2Proof.Machine.execShl c d a b s
  | .shr c d a b => Sys2Proof.Machine.execShr c d a b s
  | .sra c d a b => Sys2Proof.Machine.execSra c d a b s
  | .mul c d a b => Sys2Proof.Machine.execMul c d a b s
  | .mulh c d a b => Sys2Proof.Machine.execMulh c d a b s
  | .mulhu c d a b => Sys2Proof.Machine.execMulhu c d a b s
  | .min c d a b => Sys2Proof.Machine.execMin c d a b s
  | .max c d a b => Sys2Proof.Machine.execMax c d a b s
  | .minu c d a b => Sys2Proof.Machine.execMinu c d a b s
  | .maxu c d a b => Sys2Proof.Machine.execMaxu c d a b s
  | .div c d a b => Sys2Proof.Machine.execDiv c d a b s
  | .divu c d a b => Sys2Proof.Machine.execDivu c d a b s
  | .rem c d a b => Sys2Proof.Machine.execRem c d a b s
  | .remu c d a b => Sys2Proof.Machine.execRemu c d a b s
  | .clz c d a => Sys2Proof.Machine.execClz c d a s
  | .ctz c d a => Sys2Proof.Machine.execCtz c d a s
  | .popc c d a => Sys2Proof.Machine.execPopc c d a s
  | .brev c d a => Sys2Proof.Machine.execBrev c d a s
  | .sext8 c d a => Sys2Proof.Machine.execSext8 c d a s
  | .sext16 c d a => Sys2Proof.Machine.execSext16 c d a s
  | .sext32 c d a => Sys2Proof.Machine.execSext32 c d a s
  | .zext32 c d a => Sys2Proof.Machine.execZext32 c d a s
  | .bswap c d a => Sys2Proof.Machine.execBswap c d a s
  | .rol c d a b => Sys2Proof.Machine.execRol c d a b s
  | .addw c d a b => Sys2Proof.Machine.execAddw c d a b s
  | .addi c d a im => Sys2Proof.Machine.execAddi c d a im s
  | .andi c d a im => Sys2Proof.Machine.execAndi c d a im s
  | .ori c d a im => Sys2Proof.Machine.execOri c d a im s
  | .xori c d a im => Sys2Proof.Machine.execXori c d a im s
  | .shli c d a sc => Sys2Proof.Machine.execShli c d a sc s
  | .shri c d a sc => Sys2Proof.Machine.execShri c d a sc s
  | .srai c d a sc => Sys2Proof.Machine.execSrai c d a sc s
  | .li c d im => Sys2Proof.Machine.execLi c d im s
  | .lis c d im => Sys2Proof.Machine.execLis c d im s
  | .adpc c d im => Sys2Proof.Machine.execAdpc c d im s
  | .pcmp c p e a b f => Sys2Proof.Machine.execPcmp c p e a b f s
  | .pand c p q r => Sys2Proof.Machine.execPand c p q r s
  | .por c p q r => Sys2Proof.Machine.execPor c p q r s
  | .pxor c p q r => Sys2Proof.Machine.execPxor c p q r s
  | .pandn c p q r => Sys2Proof.Machine.execPandn c p q r s
  | .pnot c p q => Sys2Proof.Machine.execPnot c p q s
  | .pset c p a => Sys2Proof.Machine.execPset c p a s
  | .pget c q a => Sys2Proof.Machine.execPget c q a s
  | .pcnt c q r a => Sys2Proof.Machine.execPcnt c q r a s
  | .pfirst c q r a => Sys2Proof.Machine.execPfirst c q r a s
  | .vcmpf c p e a b f => Sys2Proof.Machine.execVcmpf c p e a b f s
  | .vcmpi c p e a b f => Sys2Proof.Machine.execVcmpi c p e a b f s
  | .br c o => Sys2Proof.Machine.execBr c o s
  | .call c o => Sys2Proof.Machine.execCall c o s
  | .jr c a => Sys2Proof.Machine.execJr c a s
  | .callr c a => Sys2Proof.Machine.execCallr c a s
  | .ret c => Sys2Proof.Machine.execRet c s
  | .endTask c => Sys2Proof.Machine.execEndTask c s
  | .brk c => Sys2Proof.Machine.execBrk c s
  | .park c a => Sys2Proof.Machine.execPark c a s
  | .rsync c => Sys2Proof.Machine.execRsync c s
  | .rep c a l sc => Sys2Proof.Machine.execRep c a l sc s
  | .ld c d a o sc z t => Sys2Proof.Machine.execLd c d a o sc z t s
  | .st c d a o sc z t => Sys2Proof.Machine.execSt c d a o sc z t s
  | .ldo c d a z f => Sys2Proof.Machine.execLdo c d a z f s
  | .sto c d a z f => Sys2Proof.Machine.execSto c d a z f s
  | .vld c d a o sc z t => Sys2Proof.Machine.execVld c d a o sc z t s
  | .vst c d a o sc z t => Sys2Proof.Machine.execVst c d a o sc z t s
  | .vldx c d a b e => Sys2Proof.Machine.execVldx c d a b e s
  | .vstx c d a b e => Sys2Proof.Machine.execVstx c d a b e s
  | .ldf c d a o sc z t => Sys2Proof.Machine.execLdf c d a o sc z t s
  | .fset c a => Sys2Proof.Machine.execFset c a s
  | .fclr c a => Sys2Proof.Machine.execFclr c a s
  | .stf c a b => Sys2Proof.Machine.execStf c a b s
  | .fprobe c d a => Sys2Proof.Machine.execFprobe c d a s
  | .amo c d a f o sc => Sys2Proof.Machine.execAmo c d a f o sc s
  | .fence c o sc => Sys2Proof.Machine.execFence c o sc s
  | .fenceE c o sc => Sys2Proof.Machine.execFenceE c o sc s
  | .fenceI c sc => Sys2Proof.Machine.execFenceI c sc s
  | .fenceT c o sc => Sys2Proof.Machine.execFenceT c o sc s
  | .vaddI32 c d a b => Sys2Proof.Machine.execVaddI32 c d a b s
  | .vsubI32 c d a b => Sys2Proof.Machine.execVsubI32 c d a b s
  | .vmulI32 c d a b => Sys2Proof.Machine.execVmulI32 c d a b s
  | .vmulhI32 c d a b => Sys2Proof.Machine.execVmulhI32 c d a b s
  | .vand c d a b => Sys2Proof.Machine.execVand c d a b s
  | .vor c d a b => Sys2Proof.Machine.execVor c d a b s
  | .vxor c d a b => Sys2Proof.Machine.execVxor c d a b s
  | .vandn c d a b => Sys2Proof.Machine.execVandn c d a b s
  | .vshl c d a b => Sys2Proof.Machine.execVshl c d a b s
  | .vshr c d a b => Sys2Proof.Machine.execVshr c d a b s
  | .vsra c d a b => Sys2Proof.Machine.execVsra c d a b s
  | .vminI32 c d a b => Sys2Proof.Machine.execVminI32 c d a b s
  | .vmaxI32 c d a b => Sys2Proof.Machine.execVmaxI32 c d a b s
  | .vminN32 c d a b => Sys2Proof.Machine.execVminN32 c d a b s
  | .vmaxN32 c d a b => Sys2Proof.Machine.execVmaxN32 c d a b s
  | .vabsI32 c d a => Sys2Proof.Machine.execVabsI32 c d a s
  | .vaddF32 c d a b => Sys2Proof.Machine.execVaddF32 c d a b s
  | .vsubF32 c d a b => Sys2Proof.Machine.execVsubF32 c d a b s
  | .vmulF32 c d a b => Sys2Proof.Machine.execVmulF32 c d a b s
  | .vminF32 c d a b => Sys2Proof.Machine.execVminF32 c d a b s
  | .vmaxF32 c d a b => Sys2Proof.Machine.execVmaxF32 c d a b s
  | .vabsF32 c d a => Sys2Proof.Machine.execVabsF32 c d a s
  | .vnegF32 c d a => Sys2Proof.Machine.execVnegF32 c d a s
  | .vsqrtF32 c d a => Sys2Proof.Machine.execVsqrtF32 c d a s
  | .vrcpF32 c d a => Sys2Proof.Machine.execVrcpF32 c d a s
  | .vrsqF32 c d a => Sys2Proof.Machine.execVrsqF32 c d a s
  | .vexp2F32 c d a => Sys2Proof.Machine.execVexp2F32 c d a s
  | .vlog2F32 c d a => Sys2Proof.Machine.execVlog2F32 c d a s
  | .vfloorF32 c d a => Sys2Proof.Machine.execVfloorF32 c d a s
  | .vceilF32 c d a => Sys2Proof.Machine.execVceilF32 c d a s
  | .vrintF32 c d a => Sys2Proof.Machine.execVrintF32 c d a s
  | .vcopysignF32 c d a b => Sys2Proof.Machine.execVcopysignF32 c d a b s
  | .vfmaF32 c d a b => Sys2Proof.Machine.execVfmaF32 c d a b s
  | .vfmsF32 c d a b => Sys2Proof.Machine.execVfmsF32 c d a b s
  | .vfnmaF32 c d a b => Sys2Proof.Machine.execVfnmaF32 c d a b s
  | .vfmaF16x2 c d a b => Sys2Proof.Machine.execVfmaF16x2 c d a b s
  | .vfmaBf16x2 c d a b => Sys2Proof.Machine.execVfmaBf16x2 c d a b s
  | .vdot2F16 c d a b => Sys2Proof.Machine.execVdot2F16 c d a b s
  | .vdot2Bf16 c d a b => Sys2Proof.Machine.execVdot2Bf16 c d a b s
  | .vdot4I8 c d a b => Sys2Proof.Machine.execVdot4I8 c d a b s
  | .vdot4N8 c d a b => Sys2Proof.Machine.execVdot4N8 c d a b s
  | .vaddF16x2 c d a b => Sys2Proof.Machine.execVaddF16x2 c d a b s
  | .vsubF16x2 c d a b => Sys2Proof.Machine.execVsubF16x2 c d a b s
  | .vmulF16x2 c d a b => Sys2Proof.Machine.execVmulF16x2 c d a b s
  | .vmaxF16x2 c d a b => Sys2Proof.Machine.execVmaxF16x2 c d a b s
  | .vminF16x2 c d a b => Sys2Proof.Machine.execVminF16x2 c d a b s
  | .vaddBf16x2 c d a b => Sys2Proof.Machine.execVaddBf16x2 c d a b s
  | .vsubBf16x2 c d a b => Sys2Proof.Machine.execVsubBf16x2 c d a b s
  | .vmulBf16x2 c d a b => Sys2Proof.Machine.execVmulBf16x2 c d a b s
  | .vmaxBf16x2 c d a b => Sys2Proof.Machine.execVmaxBf16x2 c d a b s
  | .vminBf16x2 c d a b => Sys2Proof.Machine.execVminBf16x2 c d a b s
  | .vcvtF32I32 c d a => Sys2Proof.Machine.execVcvtF32I32 c d a s
  | .vcvtI32F32 c d a => Sys2Proof.Machine.execVcvtI32F32 c d a s
  | .vcvtF32N32 c d a => Sys2Proof.Machine.execVcvtF32N32 c d a s
  | .vcvtN32F32 c d a => Sys2Proof.Machine.execVcvtN32F32 c d a s
  | .vpackF16x2 c d a b => Sys2Proof.Machine.execVpackF16x2 c d a b s
  | .vpackBf16x2 c d a b => Sys2Proof.Machine.execVpackBf16x2 c d a b s
  | .vcvtF32F16 c d a k => Sys2Proof.Machine.execVcvtF32F16 c d a k s
  | .vcvtF32Bf16 c d a k => Sys2Proof.Machine.execVcvtF32Bf16 c d a k s
  | .vcvtB8F32 c d a k => Sys2Proof.Machine.execVcvtB8F32 c d a k s
  | .vcvtF32B8 c d a k => Sys2Proof.Machine.execVcvtF32B8 c d a k s
  | .vcvtE5m3F32 c d a k => Sys2Proof.Machine.execVcvtE5m3F32 c d a k s
  | .vcvtF32E5m3 c d a k => Sys2Proof.Machine.execVcvtF32E5m3 c d a k s
  | .vmov c d b => Sys2Proof.Machine.execVmov c d b s
  | .vbcast c d a => Sys2Proof.Machine.execVbcast c d a s
  | .vins c d a b => Sys2Proof.Machine.execVins c d a b s
  | .vext c d a b => Sys2Proof.Machine.execVext c d a b s
  | .vshuf c d a b => Sys2Proof.Machine.execVshuf c d a b s
  | .vrot c d a b => Sys2Proof.Machine.execVrot c d a b s
  | .vzlo c d a b => Sys2Proof.Machine.execVzlo c d a b s
  | .vzhi c d a b => Sys2Proof.Machine.execVzhi c d a b s
  | .viota c d => Sys2Proof.Machine.execViota c d s
  | .vsumI32 c d a => Sys2Proof.Machine.execVsumI32 c d a s
  | .vsumF32 c d a => Sys2Proof.Machine.execVsumF32 c d a s
  | .vmaxrF32 c d a => Sys2Proof.Machine.execVmaxrF32 c d a s
  | .vminrF32 c d a => Sys2Proof.Machine.execVminrF32 c d a s
  | .vmaxrI32 c d a => Sys2Proof.Machine.execVmaxrI32 c d a s
  | .vminrI32 c d a => Sys2Proof.Machine.execVminrI32 c d a s
  | .vargmaxF32 c d a => Sys2Proof.Machine.execVargmaxF32 c d a s
  | .vorr c d a => Sys2Proof.Machine.execVorr c d a s
  | .mset c a im => Sys2Proof.Machine.execMset c a im s
  | .wld c a => Sys2Proof.Machine.execWld c a s
  | .wswap c a => Sys2Proof.Machine.execWswap c a s
  | .xstr c a => Sys2Proof.Machine.execXstr c a s
  | .mwait c a => Sys2Proof.Machine.execMwait c a s
  | .tcfg c d a b => Sys2Proof.Machine.execTcfg c d a b s
  | .tzero c a b => Sys2Proof.Machine.execTzero c a b s
  | .tout c a => Sys2Proof.Machine.execTout c a s
  | .msend c d a b => Sys2Proof.Machine.execMsend c d a b s
  | .mburst c a => Sys2Proof.Machine.execMburst c a s
  | .mstat c d => Sys2Proof.Machine.execMstat c d s
  | .send c d a b => Sys2Proof.Machine.execSend c d a b s
  | .mcast c d a b => Sys2Proof.Machine.execMcast c d a b s
  | .recv c d a b => Sys2Proof.Machine.execRecv c d a b s
  | .mprobe c d a b => Sys2Proof.Machine.execMprobe c d a b s
  | .hdlr c a b => Sys2Proof.Machine.execHdlr c a b s
  | .fhold c a b => Sys2Proof.Machine.execFhold c a b s
  | .fdrop c a b => Sys2Proof.Machine.execFdrop c a b s
  | .fwait c d a b => Sys2Proof.Machine.execFwait c d a b s
  | .fread c d a => Sys2Proof.Machine.execFread c d a s
  | .bar c sc a b => Sys2Proof.Machine.execBar c sc a b s
  | .barn c sc a b => Sys2Proof.Machine.execBarn c sc a b s
  | .barw c sc a b => Sys2Proof.Machine.execBarw c sc a b s
  | .racq c d a b => Sys2Proof.Machine.execRacq c d a b s
  | .rpub c cl a b => Sys2Proof.Machine.execRpub c cl a b s
  | .rtake c d a b => Sys2Proof.Machine.execRtake c d a b s
  | .rrel c a b => Sys2Proof.Machine.execRrel c a b s
  | .rstat c d a k => Sys2Proof.Machine.execRstat c d a k s
  | .jpost c a b => Sys2Proof.Machine.execJpost c a b s
  | .gfork c d a b => Sys2Proof.Machine.execGfork c d a b s
  | .grwd c a => Sys2Proof.Machine.execGrwd c a s
  | .gjoin c d a => Sys2Proof.Machine.execGjoin c d a s
  | .gcancel c a => Sys2Proof.Machine.execGcancel c a s
  | .gstat c d a => Sys2Proof.Machine.execGstat c d a s
  | .cadv c a b => Sys2Proof.Machine.execCadv c a b s
  | .cwm c d a => Sys2Proof.Machine.execCwm c d a s
  | .cwait c a b => Sys2Proof.Machine.execCwait c a b s
  | .cstat c d a => Sys2Proof.Machine.execCstat c d a s
  | .sread c a b => Sys2Proof.Machine.execSread c a b s
  | .swrite c a b => Sys2Proof.Machine.execSwrite c a b s
  | .sflush c a b => Sys2Proof.Machine.execSflush c a b s
  | .sstat c d a => Sys2Proof.Machine.execSstat c d a s
  | .qdef c a b => Sys2Proof.Machine.execQdef c a b s
  | .qslope c a b => Sys2Proof.Machine.execQslope c a b s
  | .qread c d a => Sys2Proof.Machine.execQread c d a s
  | .qquant c a b => Sys2Proof.Machine.execQquant c a b s
  | .qsnap c d a b => Sys2Proof.Machine.execQsnap c d a b s
  | .qstat c d a => Sys2Proof.Machine.execQstat c d a s
  | .mfc c d im => Sys2Proof.Machine.execMfc c d im s
  | .mtc c d im => Sys2Proof.Machine.execMtc c d im s
  | .tlbinv c a b => Sys2Proof.Machine.execTlbinv c a b s
  | .tlbsync c a => Sys2Proof.Machine.execTlbsync c a s
  | .wdog c a => Sys2Proof.Machine.execWdog c a s
  | .dstop c a => Sys2Proof.Machine.execDstop c a s
  | .vaddF32_16 b d => Sys2Proof.Machine.execVaddF32_16 b d s
  | .vsubF32_16 b d => Sys2Proof.Machine.execVsubF32_16 b d s
  | .vmulF32_16 b d => Sys2Proof.Machine.execVmulF32_16 b d s
  | .vmaxF32_16 b d => Sys2Proof.Machine.execVmaxF32_16 b d s
  | .vminF32_16 b d => Sys2Proof.Machine.execVminF32_16 b d s
  | .vaddI32_16 b d => Sys2Proof.Machine.execVaddI32_16 b d s
  | .vsubI32_16 b d => Sys2Proof.Machine.execVsubI32_16 b d s
  | .vand16 b d => Sys2Proof.Machine.execVand16 b d s
  | .vor16 b d => Sys2Proof.Machine.execVor16 b d s
  | .vxor16 b d => Sys2Proof.Machine.execVxor16 b d s
  | .vmov16 b d => Sys2Proof.Machine.execVmov16 b d s
  | .vaddF16x2_16 b d => Sys2Proof.Machine.execVaddF16x2_16 b d s
  | .vmulF16x2_16 b d => Sys2Proof.Machine.execVmulF16x2_16 b d s
  | .vaddBf16x2_16 b d => Sys2Proof.Machine.execVaddBf16x2_16 b d s
  | .vmulBf16x2_16 b d => Sys2Proof.Machine.execVmulBf16x2_16 b d s
  | .vshl16 b d => Sys2Proof.Machine.execVshl16 b d s
  | .bindTask r => Sys2Proof.Machine.execBindTask r s
  | .taskLocalZeroing r => Sys2Proof.Machine.execTaskLocalZeroing r s
  | .handlerBind r => Sys2Proof.Machine.execHandlerBind r s
  | .stageBind r => Sys2Proof.Machine.execStageBind r s
  | .dealChunk pd => Sys2Proof.Machine.execDealChunk pd s
  | .requeueListEntry q => Sys2Proof.Machine.execRequeueListEntry q s
  | .gforkSiblingsEnter q => Sys2Proof.Machine.execGforkSiblingsEnter q s
  | .neighbourLevelling cx d => Sys2Proof.Machine.execNeighbourLevelling cx d s
  | .levellingShipment cx im => Sys2Proof.Machine.execLevellingShipment cx im s
  | .shipmentAcknowledge cx im => Sys2Proof.Machine.execShipmentAcknowledge cx im s
  | .shipmentBounce cx im => Sys2Proof.Machine.execShipmentBounce cx im s
  | .stageGovernor q => Sys2Proof.Machine.execStageGovernor q s
  | .messageInjection r im => Sys2Proof.Machine.execMessageInjection r im s
  | .messageDelivery cx im => Sys2Proof.Machine.execMessageDelivery cx im s
  | .refusedMessageReoffer r im => Sys2Proof.Machine.execRefusedMessageReoffer r im s
  | .routerGroupMessage cx im => Sys2Proof.Machine.execRouterGroupMessage cx im s
  | .deltaFlushAge k => Sys2Proof.Machine.execDeltaFlushAge k s
  | .tilthBatchAccept cx d => Sys2Proof.Machine.execTilthBatchAccept cx d s
  | .rootBatchApply cx => Sys2Proof.Machine.execRootBatchApply cx s
  | .frontierBroadcast cx d => Sys2Proof.Machine.execFrontierBroadcast cx d s
  | .resultLanding r im => Sys2Proof.Machine.execResultLanding r im s
  | .waitSatisfied r => Sys2Proof.Machine.execWaitSatisfied r s
  | .waitExpiry r => Sys2Proof.Machine.execWaitExpiry r s
  | .watchdogExpiry r => Sys2Proof.Machine.execWatchdogExpiry r s
  | .faultPacketReoffer pd w => Sys2Proof.Machine.execFaultPacketReoffer pd w s
  | .pageWalk r va x => Sys2Proof.Machine.execPageWalk r va x s
  | .siltSubmission pd e => Sys2Proof.Machine.execSiltSubmission pd e s
  | .nvmeCompletion pd cid st => Sys2Proof.Machine.execNvmeCompletion pd cid st s
  | .tlbinvAcknowledge r => Sys2Proof.Machine.execTlbinvAcknowledge r s
  | .copyEntryRelease cx d ch => Sys2Proof.Machine.execCopyEntryRelease cx d ch s
  | .copyLineWritten cx d ch => Sys2Proof.Machine.execCopyLineWritten cx d ch s
  | .copyEntryComplete cx d ch => Sys2Proof.Machine.execCopyEntryComplete cx d ch s
  | .arrayCommandStart q => Sys2Proof.Machine.execArrayCommandStart q s
  | .arrayCommandComplete q => Sys2Proof.Machine.execArrayCommandComplete q s
  | .msendCommandArrival cx im => Sys2Proof.Machine.execMsendCommandArrival cx im s
  | .msendReply cx im => Sys2Proof.Machine.execMsendReply cx im s
  | .arrayRampDown q => Sys2Proof.Machine.execArrayRampDown q s
  | .tokenPass pd => Sys2Proof.Machine.execTokenPass pd s
  | .crossingFiring k => Sys2Proof.Machine.execCrossingFiring k s
  | .qsnapSample cx im => Sys2Proof.Machine.execQsnapSample cx im s
  | .groupDeadline cx d g => Sys2Proof.Machine.execGroupDeadline cx d g s
  | .cancelledSiblingEnd r => Sys2Proof.Machine.execCancelledSiblingEnd r s
  | .barrierCompletion cx sc u id => Sys2Proof.Machine.execBarrierCompletion cx sc u id s
  | .scaleupAtomicRequest p sq f key a b => Sys2Proof.Machine.execScaleupAtomicRequest p sq f key a b s
  | .scaleupAtomicReply p sq v => Sys2Proof.Machine.execScaleupAtomicReply p sq v s
  | .scaleupRetransmit p sq => Sys2Proof.Machine.execScaleupRetransmit p sq s
  | .linkFailure l => Sys2Proof.Machine.execLinkFailure l s
  | .gangSwitchRequest p t v => Sys2Proof.Machine.execGangSwitchRequest p t v s
  | .gangSwitchStart p => Sys2Proof.Machine.execGangSwitchStart p s
  | .gangSwitchSave p => Sys2Proof.Machine.execGangSwitchSave p s
  | .gangSwitchRestore p => Sys2Proof.Machine.execGangSwitchRestore p s
  | .haltStopCommand pd g => Sys2Proof.Machine.execHaltStopCommand pd g s
  | .haltRelease pd g => Sys2Proof.Machine.execHaltRelease pd g s
  | .dctlResume pd k sl => Sys2Proof.Machine.execDctlResume pd k sl s
  | .dctlRestart pd k sl => Sys2Proof.Machine.execDctlRestart pd k sl s
  | .dctlKill pd k sl => Sys2Proof.Machine.execDctlKill pd k sl s
  | .swcmdRequeue pd a => Sys2Proof.Machine.execSwcmdRequeue pd a s
  | .swcmdKill pd a => Sys2Proof.Machine.execSwcmdKill pd a s
  | .partitionForm p => Sys2Proof.Machine.execPartitionForm p s
  | .partitionDissolve p => Sys2Proof.Machine.execPartitionDissolve p s
  | .contextCreate cx => Sys2Proof.Machine.execContextCreate cx s
  | .contextDestroy cx => Sys2Proof.Machine.execContextDestroy cx s
  | .graphLoad cx => Sys2Proof.Machine.execGraphLoad cx s
  | .routerEntryWrite pd k g v => Sys2Proof.Machine.execRouterEntryWrite pd k g v s
  | .capabilityEntryWrite pd q e lo hi => Sys2Proof.Machine.execCapabilityEntryWrite pd q e lo hi s
  | .ringEntryDiscard cx a sq => Sys2Proof.Machine.execRingEntryDiscard cx a sq s
  | .deadLetterHeadWrite pd k v => Sys2Proof.Machine.execDeadLetterHeadWrite pd k v s
  | .hostQueueConfig q v => Sys2Proof.Machine.execHostQueueConfig q v s
  | .hostQueueDoorbell q v => Sys2Proof.Machine.execHostQueueDoorbell q v s
  | .hostQueueEntry q => Sys2Proof.Machine.execHostQueueEntry q s
  | .hostHbmAccess wr off v => Sys2Proof.Machine.execHostHbmAccess wr off v s
  | .firmwareLoad => Sys2Proof.Machine.execFirmwareLoad s
  | .attestationRequest => Sys2Proof.Machine.execAttestationRequest s
  | .attestationReady => Sys2Proof.Machine.execAttestationReady s
  | .powerConfigWrite v => Sys2Proof.Machine.execPowerConfigWrite v s
  | .registerWrite ag off v => Sys2Proof.Machine.execRegisterWrite ag off v s
  | .deviceReset => Sys2Proof.Machine.execDeviceReset s
  | .uncorrectableError key => Sys2Proof.Machine.execUncorrectableError key s
  | .correctedError pd q => Sys2Proof.Machine.execCorrectedError pd q s
  | .quadFence pd q => Sys2Proof.Machine.execQuadFence pd q s
  | .thermalThrottle tj pw => Sys2Proof.Machine.execThermalThrottle tj pw s
  | .thermalTrip => Sys2Proof.Machine.execThermalTrip s
  | .storeReachesHome q im => Sys2Proof.Machine.execStoreReachesHome q im s
  | .copyChannelRestart cx d ch ab => Sys2Proof.Machine.execCopyChannelRestart cx d ch ab s
  | .hostCompletionHeadWrite q v => Sys2Proof.Machine.execHostCompletionHeadWrite q v s
  | .supervisorQueueHeadWrite pd v => Sys2Proof.Machine.execSupervisorQueueHeadWrite pd v s
  | .freeFrameTailWrite pd k v => Sys2Proof.Machine.execFreeFrameTailWrite pd k v s
  | .jobQueueAssign pd q v bs => Sys2Proof.Machine.execJobQueueAssign pd q v bs s
  | .frameZeroingComplete tier a len => Sys2Proof.Machine.execFrameZeroingComplete tier a len s
  | .burstHoldExpiry q => Sys2Proof.Machine.execBurstHoldExpiry q s
  | .linkLevelReplay l => Sys2Proof.Machine.execLinkLevelReplay l s
  | .thermalThrottleEnd tj pw => Sys2Proof.Machine.execThermalThrottleEnd tj pw s

end Sys2Proof.Machine
end

