-- ==== Sys2Proof/Machine/Sched.lean ====
section
/-! DEFINITION. One arith cycle: fetch and decode of a slot's next instruction, the choice of the slot that issues, what
passes with the cycle, and what a core does while no slot can issue (02 R58, R59; 04 R94, R102; 11 R231, R233; 12 R272 to R275;
log 1). -/

namespace Sys2Proof.Machine

open Sys2Proof

/-! ## The word that executes -/

/-- The trap of a word that does not decode (10 R209; 11 R239). -/
def decTrap (e : DecErr) : Trap :=
  match e with
  | .illegal k => { cls := 0x01, cause := k }
  | .rsvField => { cls := 0x02, cause := 1 }
  | .short => { cls := 0x01, cause := 1 }

/-- What fault.illegal cause 3 of an encoding names: the number that is out of range (addr), or specifier 31 of a pair (aux)
(10 R213; 11 R250; log 62). -/
def encBlame (bs : List Byte) : Word × W32 :=
  match decodeRaw (BitVec.ofNat 32 (leNat bs)) with
  | .ok (.mset _ _ n, _) => (n.setWidth 64, 0)
  | .ok (.vcvtF32F16 _ _ _ k, _) => (k.setWidth 64, 0)
  | .ok (.vcvtF32Bf16 _ _ _ k, _) => (k.setWidth 64, 0)
  | .ok (.vcvtB8F32 _ _ _ k, _) => (k.setWidth 64, 0)
  | .ok (.vcvtF32B8 _ _ _ k, _) => (k.setWidth 64, 0)
  | .ok (.vcvtE5m3F32 _ _ _ k, _) => (k.setWidth 64, 0)
  | .ok (.vcvtF32E5m3 _ _ _ k, _) => (k.setWidth 64, 0)
  | .ok (.rstat _ _ _ k, _) => if k.toNat ≤ 1 then (0, 31) else (k.setWidth 64, 0)
  | _ => (0, 31)

/-- The trap of fetched bytes that do not decode. -/
def encTrap (bs : List Byte) (e : DecErr) : Trap :=
  if e = .illegal 3 then { decTrap e with addr := (encBlame bs).1, aux := (encBlame bs).2 } else decTrap e

/-- An instruction whose bytes have been fetched, run by a slot: its meaning, or the fault of its encoding. -/
def State.runBytes (s : State) (r : SlotRef) (bs : List Byte) : Host.Outcome State Fault Refusal :=
  let t := s.slot r
  let bs := passBytes t bs
  let s := ({ s with cur := r } : State).setSlot r { t with iword := BitVec.ofNat 32 (leNat bs) }
  match decode bs with
  | .error e => .next (s.takeFault r t.pc bs.length (encTrap bs e))
  | .ok (i, _) => exec i s

/-! ## Issue -/

/-- May a slot issue, as far as its own state tells (02 R58)? -/
def State.mayIssue (s : State) (r : SlotRef) : Bool :=
  let t := s.slot r
  t.st == .running && t.wait.isNone && t.walk.isNone && t.fdrop.isNone && t.linkErr.isNone && t.fault.isNone && decide (t.ready ≤ s.now) &&
    s.up r.ctx && !s.coreHalted r.coreRef

/-- What an issue of a slot comes to: nothing, because it is not ready; a walk that has to complete first; an issue, or the
fault of its fetch. What has to complete first counts the stores that it waits for. -/
inductive Attempt where
  | idle
  | walk (s : State)
  | go (o : Host.Outcome State Fault Refusal)

/-- A slot as an instruction that does not issue leaves it: all but its last word, results in flight and a fence's work. -/
def Slot.still (t : Slot) : Slot := { t with iword := 0, flights := [], fence := none, fenceAll := false, fenceE := none }

/-- Is the slot's own state as before, so that the instruction has not issued (04 R96)? -/
def sameSlot (r : SlotRef) (before : State) (o : Host.Outcome State Fault Refusal) : Bool :=
  match o with
  | .next s => decide ((s.slot r).still = (before.slot r).still)
  | _ => false

/-- Did the instruction only start a walk? -/
def startsWalk (r : SlotRef) (before : State) (o : Host.Outcome State Fault Refusal) : Option State :=
  match o with
  | .next s => if (s.slot r).walk.isSome && decide ((s.slot r).issued = (before.slot r).issued) then some s else none
  | _ => none

/-- Has an instruction that has not issued sent stores of its quad's or die's on, which it waits for (05 R112; 09 R189)? -/
def sentStores (before : State) (o : Host.Outcome State Fault Refusal) : Option State :=
  match o with
  | .next s => if s.quads ≠ before.quads then some s else none
  | _ => none

/-- Try to issue a slot's next instruction (02 R58). -/
def State.attempt (s : State) (r : SlotRef) : Attempt :=
  if !s.mayIssue r then .idle else
  match s.fetchInstr r (s.slot r).pc.toNat with
  | (.walk va, s) => .walk (s.startWalk r va .fetch 0)
  | (.fault tr, s) => .go (.next ((s.modSlot r fun u => { u with iword := 0 }).takeFault r (s.slot r).pc 0 tr))
  | (.bytes bs, s) =>
    let o := s.runBytes r bs
    if sameSlot r s o then (match sentStores s o with
      | some s => .walk s
      | none => .idle)
    else match startsWalk r s o with
    | some s => .walk s
    | none => .go o

/-- Is a slot ready: could it issue now (02 R58, R59)? -/
def State.isReady (s : State) (r : SlotRef) : Bool :=
  match s.attempt r with
  | .go _ => true
  | _ => false

/-- The slots of a core in round-robin order after the last issuer (02 R59). -/
def Core.order (c : Core) : List Nat := (List.range 4).map fun i => (c.last + 1 + i) % 4

/-- The greatest wait count among some slots, the first of equals (02 R59). -/
def longest (w : Nat → Nat) (l : List Nat) : Option Nat :=
  l.foldl (fun a n => match a with
    | none => some n
    | some b => if w n > w b then some n else a) none

/-- The slot that issues, among the ready ones in round-robin order (02 R59). -/
def chooseSlot (handler : Nat → Bool) (w : Nat → Nat) (ready : List Nat) : Option Nat :=
  match longest w (ready.filter fun n => !handler n && decide (w n ≥ Config.starveLimit)) with
  | some n => some n
  | none => match ready.filter handler with
    | n :: _ => some n
    | [] => ready.head?

/-- Walks of the core's slots that their next instructions need begin (05 R116). -/
def State.beginWalks (s : State) (k : CoreRef) : State :=
  (List.range 4).foldl (fun s n => match s.attempt (k.slotRef n) with
    | .walk s => s
    | _ => s) s

/-- What a boundary brings before an issue: the fault of a lost access, a watchdog that ran out, a cancellation, which ends a
waiting sibling too (01 R17; 04 R102; 07 R163; 08 R181; 15 R331). -/
def State.boundary (s : State) (k : CoreRef) : State :=
  (List.range 4).foldl (fun s n =>
    let r := k.slotRef n
    let t := s.slot r
    if t.linkErr.isSome && t.wait.isNone && t.walk.isNone then s.takeLink r
    else if t.wdogPend && t.wait.isNone && t.walk.isNone then s.watchdogFault r
    else if t.cancelled then s.endCancelled r
    else s) s

/-- A slot's wait count after a cycle: one more where it was ready and did not issue, else 0 (02 R59). -/
def State.waitCount (s : State) (r : SlotRef) (ready : Bool) : State :=
  let n := if ready then (s.slot r).starve + 1 else 0
  if (s.slot r).starve = n then s else s.modSlot r fun t => { t with starve := n }

/-- Has a core issued in this cycle (02 R59)? -/
def State.issuedNow (s : State) (k : CoreRef) : Bool := (s.core k).issuedAt == s.now + 1

/-- A core at its turn: what the boundaries of its slots bring has come, and the walks that their next instructions need have
begun, whether or not one of them issues (02 R59; 05 R116). -/
def State.prepared (s : State) (k : CoreRef) : State := if s.issuedNow k then s else (s.boundary k).beginWalks k

/-- A core at its turn issues at most one instruction a cycle (02 R59): none where no slot is ready or it has issued. -/
def State.issueCycle (s : State) (k : CoreRef) : Option (Host.Outcome State Fault Refusal) :=
  if s.issuedNow k then none else
  let ready := (s.core k).order.filter fun n => s.isReady (k.slotRef n)
  let slotOf (n : Nat) : Slot := s.slot (k.slotRef n)
  (chooseSlot (fun n => (slotOf n).handler.isSome) (fun n => (slotOf n).starve) ready).bind fun n =>
    let s := (List.range 4).foldl (fun s i => s.waitCount (k.slotRef i) (ready.contains i && i != n)) s
    let s := s.modCore k fun c => { c with last := n, issuedAt := s.now + 1 }
    match s.attempt (k.slotRef n) with
    | .go o => some o
    | _ => none

/-! ## One cycle -/

/-- One arith cycle of a slot: results whose cycle has come land (04 R94; 12 R253); the counters run while the task runs (04 R94, R102; 11 R231;
01 R36). -/
def Slot.tick (t : Slot) (now : Nat) (run : Bool) : Slot :=
  let t := landTimed (landDue t now) now
  if run && t.st == .running then
    { t with
      cycles := t.cycles + 1
      wdog := if t.wdog = 0 then 0 else t.wdog - 1
      wdogPend := t.wdogPend || t.wdog == 1
      wait := t.wait.map fun w => { w with left := w.left - 1 } }
  else t

/-- Does a context's time run: it is resident and no halt group of it is stopped (01 R36)? -/
def State.timeRuns (s : State) (cx : Nat) : Bool := s.up cx && !s.ctxHalted cx

/-- What a slot's new cycle brings: zeroing, the freeze of a fault that waited, the fault of a lost access or a watchdog in a wait,
an expired limit. -/
def State.slotCycle (s : State) (r : SlotRef) : State :=
  let s := if (s.slot r).fault.isSome then s.freezeLate r else s
  let s := if (s.slot r).zero.isSome ∧ s.resident r.ctx then s.zeroSlot r else s
  let t := s.slot r
  match t.wait with
  | none => s
  | some w =>
    if t.linkErr.isSome then s.takeLink r
    else if t.wdogPend then s.watchdogFault r
    else if w.lim ≠ 0 ∧ w.left = 0 then s.waitOver r
    else s

/-- Wait counts of the slots whose core has not issued in the cycle that ends (02 R59). -/
def State.countIdle (s : State) : State :=
  s.slots.foldl (fun a x =>
    let r := slotOfKey x.1
    if x.2.st ≠ .running ∨ s.issuedNow r.coreRef then a else a.waitCount r (s.isReady r)) s

/-- One arith cycle of the matrix arrays with a running command (15 R318; 10 R222, R226). -/
def State.arraysTick (s : State) : State :=
  s.quads.foldl (fun s x => if x.2.arr.run = [] then s else s.arrTick (quadOfKey x.1)) s

/-- The slots of a halt group's member cores. -/
def State.groupSlots (s : State) (pd : Nat) (h : Halt) : List SlotRef :=
  (s.members pd h).flatMap fun k => (List.range 4).map k.slotRef

/-- A halt group that was stopping has stopped, once no member slot has a result on its way (10 R216, R226; 21 R374). -/
def State.groupStopped (s : State) (pd g : Nat) : State :=
  let h := mget {} g (s.pdie pd).halts
  if h.st ≠ 1 then s else
  let rs := s.groupSlots pd h
  let s := rs.foldl State.landBusy s
  if rs.all fun r => (s.slot r).flights.isEmpty && (s.slot r).fault.isNone then
    s.modPdie pd fun d => { d with halts := mput g { h with st := 2 } d.halts }
  else s

/-- The halt groups of every die that were stopping. -/
def State.haltsStopped (s : State) : State :=
  s.pdies.foldl (fun s d => d.2.halts.foldl (fun s h => if h.2.st = 1 then s.groupStopped d.1 h.1 else s) s) s

/-- One arith cycle of the package: what the cycle's instructions did comes before what the units do at its end (07 R162). -/
def State.tick (s : State) : State :=
  let s := s.countIdle
  let s := { s with now := s.now + 1 }
  let one (x : Nat × Slot) : Nat × Slot :=
    let cx := (slotOfKey x.1).ctx
    if s.resident cx then (x.1, x.2.tick s.now (s.timeRuns cx)) else x
  let s := { s with slots := s.slots.map one }
  let s := s.groupsTick.arraysTick
  let s := s.slots.foldl (fun s x => s.slotCycle (slotOfKey x.1)) s
  let s := s.cores.foldl (fun s x => if x.2.delta = [] then s else s.ageFlush (coreOfKey x.1)) s
  let s := s.levelAll.governAll.verified.servesOver
  let s := s.haltsStopped
  s.pdies.foldl (fun s x => s.refreshQueues x.1) s

/-- The first of some states that differs from a state. -/
def State.firstChange (s : State) (l : List State) : Option State := l.find? fun x => x != s

/-- A core none of whose slots can issue: a walk completes, else the oldest result lands, else a wait ends (log 1). -/
def State.idle (s : State) (k : CoreRef) : State :=
  let rs := (List.range 4).map k.slotRef
  let walks := rs.filterMap fun r => (s.slot r).walk.map fun w => s.walkEnds r (toW w.1) w.2.1
  match s.firstChange walks with
  | some s => s
  | none =>
    let lands := rs.flatMap fun r => (List.range (s.slot r).flights.length).map fun i => s.landResult r i
    match s.firstChange lands with
    | some s => s
    | none => rs.foldl (fun s r => s.waitEnds r) s

/-! ## Moves of the agenda -/

/-- Lines of a quad's read cache: 512 KiB (05 R111). -/
abbrev cacheLines : Nat := 8192

/-- The read cache of a quad takes a line of HBM or CXL without poison, under the task address by which the quad translates to
it; a line with stores of the quad or its die on their way is not taken (05 R111; 09 R191). -/
def State.fillCache (s : State) (q : QuadRef) (va line : Nat) : State :=
  let a := va / 64 * 64
  let ks := keysFrom (line * 64) 64
  let maps : Bool := match s.tlbOf q a with
    | some e => frameKey e.pte e.bits a == line * 64
    | none => false
  let x := s.quad q
  if maps = true ∧ (keyKind (line * 64) = 3 ∨ keyKind (line * 64) = 4) ∧ (poisoned s ks).isNone ∧ x.rcache.length < cacheLines ∧
      !(x.rcache.any fun c => c.va == a) ∧ !(x.sb.any fun e => e.line == line) ∧ !(ks.any fun k => (s.bridged q k).isSome) then
    s.modQuad q fun x => { x with rcache := x.rcache ++ [{ va := a, line := line, bytes := ks.map fun k => (k, memGet k s.mem) }] }
  else s

/-- A command that a supervisor core wrote to a dctl (10 R217). -/
def State.dctlCommand (s : State) (pd k n cmd : Nat) : State :=
  match cmd with
  | 1 => s.dctlResume pd k n
  | 2 => s.dctlRestart pd k n
  | 3 => s.dctlKill pd k n
  | _ => s

/-- A core's turn in the current cycle. -/
def State.issueMove (s : State) (k : CoreRef) : Host.Outcome State Fault Refusal :=
  let s := s.prepared k
  (s.issueCycle k).getD (.next s)

/-- One move (log 1). -/
def State.makeMove (s : State) (m : Move) : Host.Outcome State Fault Refusal :=
  match m with
  | .event i => if i.encoded then .next s else exec i s
  | .issue k => s.issueMove k
  | .tick => .next s.tick
  | .ctl ag off v => .next (s.ctlWrite ag off v)
  | .dctl pd k n cmd => .next (s.dctlCommand pd k n cmd)
  | .dropTlb q i => .next (s.modQuad q fun x => { x with tlb := x.tlb.eraseIdx i })
  | .dropCache q i => .next (s.modQuad q fun x => { x with rcache := x.rcache.eraseIdx i })
  | .fillCache q va line => .next (s.fillCache q va line)
  | .dropCode k i => .next (s.modCore k fun c => { c with fetched := c.fetched.eraseIdx i })
  | .fireOne k => .next (s.fireOne k)
  | .podSend cx => .next (s.podSend cx)
  | .podTake cx es => .next (s.podTake cx es)
  | .sense tj pw => .next (s.sense tj pw)
  | .far b => .next { s with far := b }

/-- What happens with nothing on the agenda: the core of cur has its turn and issues, or what it waits for comes; a cycle passes
(log 1). -/
def State.ownMove (s : State) : Host.Outcome State Fault Refusal :=
  let k := s.cur.coreRef
  let s := s.prepared k
  match s.issueCycle k with
  | some (.next s) => .next s.tick
  | some o => o
  | none => .next (s.idle k).tick

/-! ## Placing an instruction -/

/-- The line at an address with some bytes put in. -/
def putBytes (line : List Byte) (off : Nat) (bs : List Byte) : List Byte :=
  (List.range 64).map fun i => if off ≤ i ∧ i < off + bs.length then bs.getD (i - off) 0 else line.getD i 0

/-- First address of the translated space. -/
abbrev codeBase : Nat := 2 ^ 44

/-- The slot that an instruction is placed for: the current one where it runs, else slot 0 of die 0's supervisor core. -/
def State.placeSlot (s : State) : SlotRef :=
  if (s.slot s.cur).st == .running && s.up s.cur.ctx && !s.coreHalted s.cur.coreRef then s.cur else ⟨0, 0, supCore, 0⟩

/-- The pc at which an instruction is placed: the slot's own where a whole line can hold it. -/
def placePc (t : Slot) : Word :=
  if codeBase ≤ t.pc.toNat ∧ t.pc.toNat < 2 ^ 52 ∧ t.pc.toNat % 2 = 0 ∧ t.pc.toNat % 64 ≤ 60 then t.pc else toW codeBase

/-- A slot ready to issue at a pc, in no wait and in no repetition. -/
def placed (t : Slot) (now : Nat) (pc : Word) : Slot :=
  { t with
    st := .running, pc := pc, wait := none, walk := none, fdrop := none, rep := none, wdogPend := false, cancelled := false
    linkErr := none, fault := none, ready := min t.ready now }

/-- The bytes of an instruction placed where the next step fetches: in the line that the core keeps at the pc of a slot, the
only one of its core that may issue (log 1). -/
def State.place (s : State) (bs : List Byte) : State :=
  let r := s.placeSlot
  let k := r.coreRef
  let pc := placePc (s.slot r)
  let s := { s with agenda := [], cur := r }
  let s := (List.range 4).foldl (fun s n =>
    if n = r.slot then s
    else s.modSlot (k.slotRef n) fun t =>
      if t.st = .running then { t with ready := max t.ready (s.now + 1), wdogPend := false, cancelled := false, linkErr := none, fault := none } else t) s
  let s := s.modSlot r fun t => placed t s.now pc
  s.modCore k fun c =>
    let old := ((c.fetched.find? fun l => l.1 == pc.toNat / 64).map Prod.snd).getD []
    { c with issuedAt := 0, fetched := (pc.toNat / 64, putBytes old (pc.toNat % 64) bs) :: c.fetched.filter fun l => l.1 != pc.toNat / 64 }

end Sys2Proof.Machine
end

