-- ==== Sys2Proof/Safety.lean ====
section
/-! DEFINITION. What the statements speak of: an instruction that leaves the issue port, the newest bytes of memory, the
invariant of the memory, what a registers-only instruction may write. -/

namespace Sys2Proof.Machine

open Sys2Proof

/-- An instruction of the slot cur executes now (04 R95, R96; 11 R230, R232; 12 R274): none of its registers is busy, it may
stand where it stands, no early access is caught by c.check, its guard is on. -/
def Executes (s : State) (c : Ctl) (forbidden : Bool) (reads writes : Slot → List Reg) (on : Slot → Bool) : Bool :=
  let t := s.slot s.cur
  !notReady t (.p c.g :: reads t ++ writes t) && !inRep t forbidden && (stallOf t [.p c.g] []).isNone &&
    (stallOf t (reads t) (writes t)).isNone && on t

/-- How an encoded instruction stands in the issue frame: guard and stall count, length, whether a repetition forbids it, the registers
it reads and writes, what its guard must enable, whether it is a vector instruction whose sources are read with no lane on too (14
R296). -/
structure Form where
  c : Ctl
  len : Nat
  forbidden : Bool
  reads : Slot → List Reg
  writes : Slot → List Reg
  on : Slot → Bool
  lanes : Bool

/-- Guarded by lane 0 (11 R232). -/
def Form.scalar (c : Ctl) (reads writes : Slot → List Reg) : Form := ⟨c, 4, false, reads, writes, (guardOn · c), false⟩
/-- Guarded by lane 0, and not allowed inside a repetition (12 R274). -/
def Form.control (c : Ctl) (reads writes : Slot → List Reg) : Form := ⟨c, 4, true, reads, writes, (guardOn · c), false⟩
/-- Guarded lane by lane (14 R296). -/
def Form.vector (c : Ctl) (len : Nat) (reads writes : Slot → List Reg) : Form :=
  ⟨c, len, false, reads, writes, fun t => laneMask t c != 0, true⟩
/-- A predicate taken in the lanes the guard enables (12 R260). -/
def Form.predicate (c : Ctl) (reads : Slot → List Reg) (p : PSpec) : Form :=
  ⟨c, 4, false, reads, fun _ => [.p p], fun t => laneMask t c != 0, false⟩
/-- A reduction runs but in the never form (14 R310). -/
def Form.reduction (c : Ctl) (a d : Spec) : Form := ⟨c, 4, false, fun _ => [.v a], rX d, fun _ => !neverForm c, false⟩

/-- The form of every encoded instruction, by its operands (11 R236 to R243); none for an event. -/
def formOf (i : Instr) : Option Form :=
  match i with
  | .add c d a b => some (.scalar c (rXX a b) (rX d))
  | .sub c d a b => some (.scalar c (rXX a b) (rX d))
  | .and c d a b => some (.scalar c (rXX a b) (rX d))
  | .or c d a b => some (.scalar c (rXX a b) (rX d))
  | .xor c d a b => some (.scalar c (rXX a b) (rX d))
  | .andn c d a b => some (.scalar c (rXX a b) (rX d))
  | .shl c d a b => some (.scalar c (rXX a b) (rX d))
  | .shr c d a b => some (.scalar c (rXX a b) (rX d))
  | .sra c d a b => some (.scalar c (rXX a b) (rX d))
  | .mul c d a b => some (.scalar c (rXX a b) (rX d))
  | .mulh c d a b => some (.scalar c (rXX a b) (rX d))
  | .mulhu c d a b => some (.scalar c (rXX a b) (rX d))
  | .min c d a b => some (.scalar c (rXX a b) (rX d))
  | .max c d a b => some (.scalar c (rXX a b) (rX d))
  | .minu c d a b => some (.scalar c (rXX a b) (rX d))
  | .maxu c d a b => some (.scalar c (rXX a b) (rX d))
  | .div c d a b => some (.scalar c (rXX a b) (rX d))
  | .divu c d a b => some (.scalar c (rXX a b) (rX d))
  | .rem c d a b => some (.scalar c (rXX a b) (rX d))
  | .remu c d a b => some (.scalar c (rXX a b) (rX d))
  | .clz c d a => some (.scalar c (rX a) (rX d))
  | .ctz c d a => some (.scalar c (rX a) (rX d))
  | .popc c d a => some (.scalar c (rX a) (rX d))
  | .brev c d a => some (.scalar c (rX a) (rX d))
  | .sext8 c d a => some (.scalar c (rX a) (rX d))
  | .sext16 c d a => some (.scalar c (rX a) (rX d))
  | .sext32 c d a => some (.scalar c (rX a) (rX d))
  | .zext32 c d a => some (.scalar c (rX a) (rX d))
  | .bswap c d a => some (.scalar c (rX a) (rX d))
  | .rol c d a b => some (.scalar c (rXX a b) (rX d))
  | .addw c d a b => some (.scalar c (rXX a b) (rX d))
  | .addi c d a _ => some (.scalar c (rX a) (rX d))
  | .andi c d a _ => some (.scalar c (rX a) (rX d))
  | .ori c d a _ => some (.scalar c (rX a) (rX d))
  | .xori c d a _ => some (.scalar c (rX a) (rX d))
  | .shli c d a _ => some (.scalar c (rX a) (rX d))
  | .shri c d a _ => some (.scalar c (rX a) (rX d))
  | .srai c d a _ => some (.scalar c (rX a) (rX d))
  | .li c d _ => some (.scalar c noRegs (rX d))
  | .lis c d _ => some (.scalar c (rX d) (rX d))
  | .adpc c d _ => some (.scalar c noRegs (rX d))
  | .pcmp c p e a b _ => some (.scalar c (rXX a b) (fun _ => [.p p, .p e]))
  | .pand c p q u => some (.predicate c (fun _ => [.p q, .p u]) p)
  | .por c p q u => some (.predicate c (fun _ => [.p q, .p u]) p)
  | .pxor c p q u => some (.predicate c (fun _ => [.p q, .p u]) p)
  | .pandn c p q u => some (.predicate c (fun _ => [.p q, .p u]) p)
  | .pnot c p q => some (.predicate c (fun _ => [.p q]) p)
  | .pset c p a => some (.predicate c (rX a) p)
  | .pget c q a => some (.scalar c (fun _ => [.p q]) (rX a))
  | .pcnt c q u a => some (.scalar c (fun _ => [.p q, .p u]) (rX a))
  | .pfirst c q u a => some (.scalar c (fun _ => [.p q, .p u]) (rX a))
  | .vcmpf c p e a b _ => some (.vector c 4 (fun _ => [.v a, .v b]) (fun _ => [.p p, .p e]))
  | .vcmpi c p e a b _ => some (.vector c 4 (fun _ => [.v a, .v b]) (fun _ => [.p p, .p e]))
  | .br c _ => some (.control c noRegs noRegs)
  | .call c _ => some (.control c noRegs calleeW15)
  | .jr c a => some (.control c (rX a) noRegs)
  | .callr c a => some (.control c (rX a) calleeW15)
  | .ret c => some (.control c (rX w15) noRegs)
  | .endTask c => some (.control c noRegs noRegs)
  | .brk c => some (.scalar c noRegs noRegs)
  | .park c a => some (.control c (rX a) noRegs)
  | .rsync c => some (.scalar c noRegs noRegs)
  | .rep c a _ _ => some (.control c (rX a) noRegs)
  | .ld c d a _ _ _ p => some (.scalar c (rX a) (fun t => rX d t ++ if p then rX a t else []))
  | .st c d a _ _ _ p => some (.scalar c (rXX d a) (fun t => if p then [xReg t a] else []))
  | .ldo c d a _ _ => some (.scalar c (rX a) (rX d))
  | .sto c d a _ _ => some (.scalar c (rXX d a) noRegs)
  | .vld c d a _ _ z p => some ⟨c, 4, false, (rX a), (fun t => .v d :: (if p then [xReg t a] else [])), (anyMoved c (if z = 3 then 32 else vLanes z)), false⟩
  | .vst c d a _ _ z p => some ⟨c, 4, false, (fun t => [.v d, xReg t a]), (fun t => if p then [xReg t a] else []), (anyMoved c (vLanes z)), false⟩
  | .vldx c d a b _ => some ⟨c, 4, false, (fun t => [xReg t a, .v b]), (fun _ => [.v d]), (anyMoved c 32), false⟩
  | .vstx c d a b _ => some ⟨c, 4, false, (fun t => [xReg t a, .v b, .v d]), noRegs, (anyMoved c 32), false⟩
  | .ldf c d a _ _ _ _ => some (.scalar c (rXX d a) (rX d))
  | .fset c a => some (.scalar c (rX a) noRegs)
  | .fclr c a => some (.scalar c (rX a) noRegs)
  | .stf c a b => some (.scalar c (rXX a b) noRegs)
  | .fprobe c d a => some (.scalar c (rX a) (rX d))
  | .amo c d a f _ _ => some (.scalar c (if f = .cas then rXXX a d (d + 1) else rXX a d) (rX d))
  | .fence c _ _ => some (.scalar c noRegs noRegs)
  | .fenceE c _ _ => some (.scalar c noRegs noRegs)
  | .fenceI c _ => some (.scalar c noRegs noRegs)
  | .fenceT c _ _ => some (.scalar c noRegs noRegs)
  | .vaddI32 c d a b => some (.vector c 4 (fun _ => [.v a, .v b]) (fun _ => [.v d]))
  | .vsubI32 c d a b => some (.vector c 4 (fun _ => [.v a, .v b]) (fun _ => [.v d]))
  | .vmulI32 c d a b => some (.vector c 4 (fun _ => [.v a, .v b]) (fun _ => [.v d]))
  | .vmulhI32 c d a b => some (.vector c 4 (fun _ => [.v a, .v b]) (fun _ => [.v d]))
  | .vand c d a b => some (.vector c 4 (fun _ => [.v a, .v b]) (fun _ => [.v d]))
  | .vor c d a b => some (.vector c 4 (fun _ => [.v a, .v b]) (fun _ => [.v d]))
  | .vxor c d a b => some (.vector c 4 (fun _ => [.v a, .v b]) (fun _ => [.v d]))
  | .vandn c d a b => some (.vector c 4 (fun _ => [.v a, .v b]) (fun _ => [.v d]))
  | .vshl c d a b => some (.vector c 4 (fun _ => [.v a, .v b]) (fun _ => [.v d]))
  | .vshr c d a b => some (.vector c 4 (fun _ => [.v a, .v b]) (fun _ => [.v d]))
  | .vsra c d a b => some (.vector c 4 (fun _ => [.v a, .v b]) (fun _ => [.v d]))
  | .vminI32 c d a b => some (.vector c 4 (fun _ => [.v a, .v b]) (fun _ => [.v d]))
  | .vmaxI32 c d a b => some (.vector c 4 (fun _ => [.v a, .v b]) (fun _ => [.v d]))
  | .vminN32 c d a b => some (.vector c 4 (fun _ => [.v a, .v b]) (fun _ => [.v d]))
  | .vmaxN32 c d a b => some (.vector c 4 (fun _ => [.v a, .v b]) (fun _ => [.v d]))
  | .vabsI32 c d a => some (.vector c 4 (fun _ => [.v a]) (fun _ => [.v d]))
  | .vaddF32 c d a b => some (.vector c 4 (fun _ => [.v a, .v b]) (fun _ => [.v d]))
  | .vsubF32 c d a b => some (.vector c 4 (fun _ => [.v a, .v b]) (fun _ => [.v d]))
  | .vmulF32 c d a b => some (.vector c 4 (fun _ => [.v a, .v b]) (fun _ => [.v d]))
  | .vminF32 c d a b => some (.vector c 4 (fun _ => [.v a, .v b]) (fun _ => [.v d]))
  | .vmaxF32 c d a b => some (.vector c 4 (fun _ => [.v a, .v b]) (fun _ => [.v d]))
  | .vabsF32 c d a => some (.vector c 4 (fun _ => [.v a]) (fun _ => [.v d]))
  | .vnegF32 c d a => some (.vector c 4 (fun _ => [.v a]) (fun _ => [.v d]))
  | .vsqrtF32 c d a => some (.vector c 4 (fun _ => [.v a]) (fun _ => [.v d]))
  | .vrcpF32 c d a => some (.vector c 4 (fun _ => [.v a]) (fun _ => [.v d]))
  | .vrsqF32 c d a => some (.vector c 4 (fun _ => [.v a]) (fun _ => [.v d]))
  | .vexp2F32 c d a => some (.vector c 4 (fun _ => [.v a]) (fun _ => [.v d]))
  | .vlog2F32 c d a => some (.vector c 4 (fun _ => [.v a]) (fun _ => [.v d]))
  | .vfloorF32 c d a => some (.vector c 4 (fun _ => [.v a]) (fun _ => [.v d]))
  | .vceilF32 c d a => some (.vector c 4 (fun _ => [.v a]) (fun _ => [.v d]))
  | .vrintF32 c d a => some (.vector c 4 (fun _ => [.v a]) (fun _ => [.v d]))
  | .vcopysignF32 c d a b => some (.vector c 4 (fun _ => [.v a, .v b]) (fun _ => [.v d]))
  | .vfmaF32 c d a b => some (.vector c 4 (fun _ => [.v a, .v b, .v d]) (fun _ => [.v d]))
  | .vfmsF32 c d a b => some (.vector c 4 (fun _ => [.v a, .v b, .v d]) (fun _ => [.v d]))
  | .vfnmaF32 c d a b => some (.vector c 4 (fun _ => [.v a, .v b, .v d]) (fun _ => [.v d]))
  | .vfmaF16x2 c d a b => some (.vector c 4 (fun _ => [.v a, .v b, .v d]) (fun _ => [.v d]))
  | .vfmaBf16x2 c d a b => some (.vector c 4 (fun _ => [.v a, .v b, .v d]) (fun _ => [.v d]))
  | .vdot2F16 c d a b => some (.vector c 4 (fun _ => [.v a, .v b, .v d]) (fun _ => [.v d]))
  | .vdot2Bf16 c d a b => some (.vector c 4 (fun _ => [.v a, .v b, .v d]) (fun _ => [.v d]))
  | .vdot4I8 c d a b => some (.vector c 4 (fun _ => [.v a, .v b, .v d]) (fun _ => [.v d]))
  | .vdot4N8 c d a b => some (.vector c 4 (fun _ => [.v a, .v b, .v d]) (fun _ => [.v d]))
  | .vaddF16x2 c d a b => some (.vector c 4 (fun _ => [.v a, .v b]) (fun _ => [.v d]))
  | .vsubF16x2 c d a b => some (.vector c 4 (fun _ => [.v a, .v b]) (fun _ => [.v d]))
  | .vmulF16x2 c d a b => some (.vector c 4 (fun _ => [.v a, .v b]) (fun _ => [.v d]))
  | .vmaxF16x2 c d a b => some (.vector c 4 (fun _ => [.v a, .v b]) (fun _ => [.v d]))
  | .vminF16x2 c d a b => some (.vector c 4 (fun _ => [.v a, .v b]) (fun _ => [.v d]))
  | .vaddBf16x2 c d a b => some (.vector c 4 (fun _ => [.v a, .v b]) (fun _ => [.v d]))
  | .vsubBf16x2 c d a b => some (.vector c 4 (fun _ => [.v a, .v b]) (fun _ => [.v d]))
  | .vmulBf16x2 c d a b => some (.vector c 4 (fun _ => [.v a, .v b]) (fun _ => [.v d]))
  | .vmaxBf16x2 c d a b => some (.vector c 4 (fun _ => [.v a, .v b]) (fun _ => [.v d]))
  | .vminBf16x2 c d a b => some (.vector c 4 (fun _ => [.v a, .v b]) (fun _ => [.v d]))
  | .vcvtF32I32 c d a => some (.vector c 4 (fun _ => [.v a]) (fun _ => [.v d]))
  | .vcvtI32F32 c d a => some (.vector c 4 (fun _ => [.v a]) (fun _ => [.v d]))
  | .vcvtF32N32 c d a => some (.vector c 4 (fun _ => [.v a]) (fun _ => [.v d]))
  | .vcvtN32F32 c d a => some (.vector c 4 (fun _ => [.v a]) (fun _ => [.v d]))
  | .vpackF16x2 c d a b => some (.vector c 4 (fun _ => [.v a, .v b]) (fun _ => [.v d]))
  | .vpackBf16x2 c d a b => some (.vector c 4 (fun _ => [.v a, .v b]) (fun _ => [.v d]))
  | .vcvtF32F16 c d a _ => some (.vector c 4 (fun _ => [.v a]) (fun _ => [.v d]))
  | .vcvtF32Bf16 c d a _ => some (.vector c 4 (fun _ => [.v a]) (fun _ => [.v d]))
  | .vcvtB8F32 c d a _ => some (.vector c 4 (fun _ => [.v a, .v d]) (fun _ => [.v d]))
  | .vcvtF32B8 c d a _ => some (.vector c 4 (fun _ => [.v a]) (fun _ => [.v d]))
  | .vcvtE5m3F32 c d a _ => some (.vector c 4 (fun _ => [.v a, .v d]) (fun _ => [.v d]))
  | .vcvtF32E5m3 c d a _ => some (.vector c 4 (fun _ => [.v a]) (fun _ => [.v d]))
  | .vmov c d b => some (.vector c 4 (fun _ => [.v b]) (fun _ => [.v d]))
  | .vbcast c d a => some (.vector c 4 (rX a) (fun _ => [.v d]))
  | .vins c d a b => some ⟨c, 4, false, (rXX a b), (fun _ => [.v d]), (fun t => laneOn t c (bits (readX t b) 0 5)), true⟩
  | .vext c d a b => some ⟨c, 4, false, (fun t => [.v a, xReg t b]), (rX d), (guardOn · c), true⟩
  | .vshuf c d a b => some (.vector c 4 (fun _ => [.v a, .v b]) (fun _ => [.v d]))
  | .vrot c d a b => some (.vector c 4 (fun t => [.v a, xReg t b]) (fun _ => [.v d]))
  | .vzlo c d a b => some (.vector c 4 (fun _ => [.v a, .v b]) (fun _ => [.v d]))
  | .vzhi c d a b => some (.vector c 4 (fun _ => [.v a, .v b]) (fun _ => [.v d]))
  | .viota c d => some (.vector c 4 noRegs (fun _ => [.v d]))
  | .vsumI32 c d a => some (.reduction c a d)
  | .vsumF32 c d a => some (.reduction c a d)
  | .vmaxrF32 c d a => some (.reduction c a d)
  | .vminrF32 c d a => some (.reduction c a d)
  | .vmaxrI32 c d a => some (.reduction c a d)
  | .vminrI32 c d a => some (.reduction c a d)
  | .vargmaxF32 c d a => some (.reduction c a d)
  | .vorr c d a => some (.reduction c a d)
  | .mset c a _ => some (.scalar c (rX a) noRegs)
  | .wld c a => some (.scalar c (rX a) noRegs)
  | .wswap c a => some (.scalar c (rX a) noRegs)
  | .xstr c a => some (.scalar c (rX a) noRegs)
  | .mwait c a => some (.scalar c (rX a) noRegs)
  | .tcfg c d a b => some (.scalar c (rXXX d a b) noRegs)
  | .tzero c a b => some (.scalar c (rXX a b) noRegs)
  | .tout c a => some (.scalar c (rX a) noRegs)
  | .msend c d a b => some (.scalar c (fun t => [xReg t d, xReg t a, xReg t (a + 1), xReg t b]) noRegs)
  | .mburst c a => some (.scalar c (rX a) noRegs)
  | .mstat c d => some (.scalar c noRegs (rX d))
  | .send c d a b => some (.scalar c (fun t => [.v d, xReg t a, xReg t b]) noRegs)
  | .mcast c d a b => some (.scalar c (fun t => [.v d, xReg t a, xReg t b]) noRegs)
  | .recv c d a b => some (.scalar c (rXX a b) (fun _ => [.v d]))
  | .mprobe c d a b => some (.scalar c (rXX a b) (rX d))
  | .hdlr c a b => some (.scalar c (rXX a b) noRegs)
  | .fhold c a b => some (.scalar c (rLocTime a b) noRegs)
  | .fdrop c a b => some (.scalar c (rLocTime a b) noRegs)
  | .fwait c d a b => some (.scalar c (fun t => xReg t d :: rLocTime a b t) noRegs)
  | .fread c d a => some (.scalar c (rX a) (rPair d))
  | .bar c _ a b => some (.scalar c (rXX a b) noRegs)
  | .barn c _ _ b => some (.scalar c (rX b) noRegs)
  | .barw c _ a b => some (.scalar c (rXX a b) noRegs)
  | .racq c d a b => some (.scalar c (rXX a b) (rPair d))
  | .rpub c _ a b => some (.scalar c (rXX a b) noRegs)
  | .rtake c d a b => some (.scalar c (rXX a b) (rPair d))
  | .rrel c a b => some (.scalar c (rXX a b) noRegs)
  | .rstat c d a _ => some (.scalar c (rX a) (rPair d))
  | .jpost c a b => some (.scalar c (rXX a b) noRegs)
  | .gfork c d a b => some (.scalar c (fun t => rXX a b t ++ (List.range 8).map fun i => xReg t (BitVec.ofNat 5 (8 + i))) (rX d))
  | .grwd c a => some (.scalar c (rX a) noRegs)
  | .gjoin c d a => some (.scalar c (rX a) (rX d))
  | .gcancel c a => some (.scalar c (rX a) noRegs)
  | .gstat c d a => some (.scalar c (rX a) (rX d))
  | .cadv c a b => some (.scalar c (rXX a b) noRegs)
  | .cwm c d a => some (.scalar c (rX a) (rX d))
  | .cwait c a b => some (.scalar c (rXX a b) noRegs)
  | .cstat c d a => some (.scalar c (rX a) (rX d))
  | .sread c a b => some (.scalar c (rXX a b) noRegs)
  | .swrite c a b => some (.scalar c (rXX a b) noRegs)
  | .sflush c a b => some (.scalar c (rXX a b) noRegs)
  | .sstat c d a => some (.scalar c (rX a) (rX d))
  | .qdef c a b => some (.scalar c (rXX a b) noRegs)
  | .qslope c a b => some (.scalar c (rXX a b) noRegs)
  | .qread c d a => some (.scalar c (rX a) (rPair d))
  | .qquant c a b => some (.scalar c (rXX a b) noRegs)
  | .qsnap c d a b => some (.scalar c (rXXX d a b) noRegs)
  | .qstat c d a => some (.scalar c (rX a) (rPair d))
  | .mfc c d _ => some (.scalar c noRegs (rX d))
  | .mtc c d _ => some (.scalar c (rX d) noRegs)
  | .tlbinv c a b => some (.scalar c (rXX a b) noRegs)
  | .tlbsync c a => some (.scalar c (rX a) noRegs)
  | .wdog c a => some (.scalar c (rX a) noRegs)
  | .dstop c a => some (.scalar c (rX a) noRegs)
  | .vaddF32_16 b d => some (.vector ctl16 2 (fun _ => [.v d, .v b]) (fun _ => [.v d]))
  | .vsubF32_16 b d => some (.vector ctl16 2 (fun _ => [.v d, .v b]) (fun _ => [.v d]))
  | .vmulF32_16 b d => some (.vector ctl16 2 (fun _ => [.v d, .v b]) (fun _ => [.v d]))
  | .vmaxF32_16 b d => some (.vector ctl16 2 (fun _ => [.v d, .v b]) (fun _ => [.v d]))
  | .vminF32_16 b d => some (.vector ctl16 2 (fun _ => [.v d, .v b]) (fun _ => [.v d]))
  | .vaddI32_16 b d => some (.vector ctl16 2 (fun _ => [.v d, .v b]) (fun _ => [.v d]))
  | .vsubI32_16 b d => some (.vector ctl16 2 (fun _ => [.v d, .v b]) (fun _ => [.v d]))
  | .vand16 b d => some (.vector ctl16 2 (fun _ => [.v d, .v b]) (fun _ => [.v d]))
  | .vor16 b d => some (.vector ctl16 2 (fun _ => [.v d, .v b]) (fun _ => [.v d]))
  | .vxor16 b d => some (.vector ctl16 2 (fun _ => [.v d, .v b]) (fun _ => [.v d]))
  | .vmov16 b d => some (.vector ctl16 2 (fun _ => [.v b]) (fun _ => [.v d]))
  | .vaddF16x2_16 b d => some (.vector ctl16 2 (fun _ => [.v d, .v b]) (fun _ => [.v d]))
  | .vmulF16x2_16 b d => some (.vector ctl16 2 (fun _ => [.v d, .v b]) (fun _ => [.v d]))
  | .vaddBf16x2_16 b d => some (.vector ctl16 2 (fun _ => [.v d, .v b]) (fun _ => [.v d]))
  | .vmulBf16x2_16 b d => some (.vector ctl16 2 (fun _ => [.v d, .v b]) (fun _ => [.v d]))
  | .vshl16 b d => some (.vector ctl16 2 (fun _ => [.v d, .v b]) (fun _ => [.v d]))
  | _ => none

/-- Registers that hold an instruction of a form back while they are busy (04 R96). -/
def Form.regs (f : Form) (t : Slot) : List Reg := .p f.c.g :: f.reads t ++ f.writes t

/-- An instruction of a form executes now in the slot cur. -/
def Form.runs (f : Form) (s : State) : Bool := Executes s f.c f.forbidden f.reads f.writes f.on

/-- No fence of the task holds an instruction back (09 R189). -/
def Unfenced (s : State) (i : Instr) : Bool := !(s.slot s.cur).fenced (touches i)

/-- The package when an instruction of the slot cur that writes some registers has left the issue port (02 R58). -/
def State.issued (s : State) (c : Ctl) (len : Nat) (ws : List Reg) : State :=
  s.setSlot s.cur (retire (noteRecent (s.slot s.cur) ws) s.now c.w len)

/-- What a fence before an instruction holds back until it comes has been performed (09 R189). -/
def State.met (s : State) (i : Instr) : State := s.meetFence s.cur (touches i)

/-- An access of a task's instruction reaches memory at some bytes: no acquire of the task is in flight (09 R188), the address
resolves without a walk or a fault (05 R116), zeroing has reached the bytes (01 R19), no operation of the task at a home comes first
at their lines (09 R193), and at another package neither an atomic of the task that has not gone out nor a move of the traffic to a new
link comes first (08 R181; 21 R379). -/
def Resolves (s : State) (r : SlotRef) (t : Slot) (a n al : Nat) (x : Access) (ks : List Nat) : Bool :=
  !acquiring t && decide (s.access r a n al x = .keys ks) && !barred t r ks && !s.farWaits t (ks.getD 0 0)

/-- Bytes that a task may read: no poison stands for it there, none above a running copy entry's watermark (08 R179; 10 R220). -/
def Readable (s : State) (r : SlotRef) (a : Nat) (ks : List Nat) : Bool :=
  (poisonTrap s a ks (s.hot r)).isNone && (s.markWait r (addrsFrom a ks.length)).isNone

/-- Bytes that a task may write: no granule where poison stands that they do not cover, none above a watermark, room in the store
buffer (05 R112; 08 R179; 10 R220). -/
def Writable (s : State) (r : SlotRef) (a : Nat) (as : List Nat) (ps : List (Nat × Byte)) : Bool :=
  (poisonTrap s a (ps.map Prod.fst) fun g => s.hot r g && !coversGranule (ps.map Prod.fst) g).isNone &&
    (s.markWait r as).isNone && s.sbRoom r ps

/-- A release that an instruction carries can be made now: none, or one whose accesses can be performed (05 R112; 09 R187). -/
def MayRelease (s : State) (r : SlotRef) (rel : Option Scope) : Bool :=
  match rel with
  | none => true
  | some sc => s.mayRelease r sc

/-- The newest value of a byte of memory: what the quad's store buffer holds for it, else what the die's bridges carry, else what
its home holds (05 R112; 09 R194). -/
def State.newest (s : State) (q : QuadRef) (k : Nat) : Byte :=
  ((forwarded (s.quad q) k).orElse fun _ => s.bridged q k).getD (memGet k s.mem)

/-- The number of binary places of the least value of a format: every value is a whole number of units of 2 to minus this (03 R62). -/
def Fmt.places (f : Fmt) : Nat := ((f.p : Int) - 1 - f.emin).toNat

/-- Is a number a code of the format that is no NaN? -/
def Fmt.isCode (f : Fmt) (c : Nat) : Bool := decide (c < 2 ^ f.width) && !(f.decode c).isNan

/-- Is it one of a finite value? -/
def Fmt.isFinite (f : Fmt) (c : Nat) : Bool := f.isCode c && c != f.inf false && c != f.inf true

/-- The value of a code in units of 2 to minus n; an infinity counts as the power of two next to the largest finite value (03 R62, R66). -/
def Fmt.valueAt (f : Fmt) (n c : Nat) : Int :=
  let signed (neg : Bool) (m : Nat) : Int := if neg then -(m : Int) else m
  match f.decode c with
  | .nan _ => 0
  | .inf s => signed s (2 ^ (f.emax + 1 + n).toNat)
  | .zero _ => 0
  | .fin s m e => signed s (m * 2 ^ (e + n).toNat)

/-- An exact value other than 0, x units of 2 to minus n, rounded once to a format by a mode gives a code (03 R65, R66): the nearest,
of two the even one; the nearest finite one not above it in magnitude; the least one not below it; the greatest one not above it. Its sign
is that of the value. -/
def Fmt.Rounds (f : Fmt) (mode : RMode) (n : Nat) (x : Int) (c : Nat) : Prop :=
  let v := f.valueAt n
  f.isCode c = true ∧ (f.decode c).neg = decide (x < 0) ∧
  match mode with
  | .rtz => f.isFinite c = true ∧ (v c).natAbs ≤ x.natAbs ∧
      ∀ d, f.isFinite d = true → (v d).natAbs ≤ x.natAbs → (v d).natAbs ≤ (v c).natAbs
  | .rup => (c = f.inf false ∨ (f.isFinite c = true ∧ x ≤ v c)) ∧
      ∀ d, f.isFinite d = true → x ≤ v d → f.isFinite c = true ∧ v c ≤ v d
  | .rdn => (c = f.inf true ∨ (f.isFinite c = true ∧ v c ≤ x)) ∧
      ∀ d, f.isFinite d = true → v d ≤ x → f.isFinite c = true ∧ v d ≤ v c
  | _ => ∀ d, f.isCode d = true → (x - v c).natAbs ≤ (x - v d).natAbs ∧
      ((x - v c).natAbs = (x - v d).natAbs → v d = v c ∨ c % 2 = 0)

/-- The memory is in its canonical form. -/
def State.Inv (s : State) : Prop := Memory.wf s.mem = true

/-- Has an answer put the slot cur into a frozen state? -/
def frozenAt (r : SlotRef) (t : State) : Bool := (t.slot r).st == .frozen

/-- What a registers-only instruction may write beside the pc and the issue counters of its slot: registers, flags of
c.fflags, the generators. -/
structure Effect where
  regs : Slot → List Reg
  flags : Bool
  draws : Bool

/-- What a registers-only instruction may write: the registers of its destinations, whether it may set flags of c.fflags
(03 R65) and whether it may draw from the generators (03 R68); none for every other instruction. -/
def effectOf (i : Instr) : Option Effect :=
  match i with
  | .add _ d _ _ => some ⟨rX d, false, false⟩
  | .sub _ d _ _ => some ⟨rX d, false, false⟩
  | .and _ d _ _ => some ⟨rX d, false, false⟩
  | .or _ d _ _ => some ⟨rX d, false, false⟩
  | .xor _ d _ _ => some ⟨rX d, false, false⟩
  | .andn _ d _ _ => some ⟨rX d, false, false⟩
  | .shl _ d _ _ => some ⟨rX d, false, false⟩
  | .shr _ d _ _ => some ⟨rX d, false, false⟩
  | .sra _ d _ _ => some ⟨rX d, false, false⟩
  | .mul _ d _ _ => some ⟨rX d, false, false⟩
  | .mulh _ d _ _ => some ⟨rX d, false, false⟩
  | .mulhu _ d _ _ => some ⟨rX d, false, false⟩
  | .min _ d _ _ => some ⟨rX d, false, false⟩
  | .max _ d _ _ => some ⟨rX d, false, false⟩
  | .minu _ d _ _ => some ⟨rX d, false, false⟩
  | .maxu _ d _ _ => some ⟨rX d, false, false⟩
  | .rol _ d _ _ => some ⟨rX d, false, false⟩
  | .addw _ d _ _ => some ⟨rX d, false, false⟩
  | .div _ d _ _ => some ⟨rX d, false, false⟩
  | .divu _ d _ _ => some ⟨rX d, false, false⟩
  | .rem _ d _ _ => some ⟨rX d, false, false⟩
  | .remu _ d _ _ => some ⟨rX d, false, false⟩
  | .clz _ d _ => some ⟨rX d, false, false⟩
  | .ctz _ d _ => some ⟨rX d, false, false⟩
  | .popc _ d _ => some ⟨rX d, false, false⟩
  | .brev _ d _ => some ⟨rX d, false, false⟩
  | .bswap _ d _ => some ⟨rX d, false, false⟩
  | .sext8 _ d _ => some ⟨rX d, false, false⟩
  | .sext16 _ d _ => some ⟨rX d, false, false⟩
  | .sext32 _ d _ => some ⟨rX d, false, false⟩
  | .zext32 _ d _ => some ⟨rX d, false, false⟩
  | .addi _ d _ _ => some ⟨rX d, false, false⟩
  | .andi _ d _ _ => some ⟨rX d, false, false⟩
  | .ori _ d _ _ => some ⟨rX d, false, false⟩
  | .xori _ d _ _ => some ⟨rX d, false, false⟩
  | .shli _ d _ _ => some ⟨rX d, false, false⟩
  | .shri _ d _ _ => some ⟨rX d, false, false⟩
  | .srai _ d _ _ => some ⟨rX d, false, false⟩
  | .li _ d _ => some ⟨rX d, false, false⟩
  | .lis _ d _ => some ⟨rX d, false, false⟩
  | .adpc _ d _ => some ⟨rX d, false, false⟩
  | .mfc _ d _ => some ⟨rX d, false, false⟩
  | .pget _ _ a => some ⟨rX a, false, false⟩
  | .pcnt _ _ _ a => some ⟨rX a, false, false⟩
  | .pfirst _ _ _ a => some ⟨rX a, false, false⟩
  | .pcmp _ p e _ _ _ => some ⟨fun _ => [.p p, .p e], false, false⟩
  | .pand _ p _ _ => some ⟨fun _ => [.p p], false, false⟩
  | .por _ p _ _ => some ⟨fun _ => [.p p], false, false⟩
  | .pxor _ p _ _ => some ⟨fun _ => [.p p], false, false⟩
  | .pandn _ p _ _ => some ⟨fun _ => [.p p], false, false⟩
  | .pnot _ p _ => some ⟨fun _ => [.p p], false, false⟩
  | .pset _ p _ => some ⟨fun _ => [.p p], false, false⟩
  | .vcmpi _ p e _ _ _ => some ⟨fun _ => [.p p, .p e], false, false⟩
  | .vcmpf _ p e _ _ _ => some ⟨fun _ => [.p p, .p e], true, false⟩
  | .vaddI32 _ d _ _ => some ⟨fun _ => [.v d], false, false⟩
  | .vsubI32 _ d _ _ => some ⟨fun _ => [.v d], false, false⟩
  | .vmulI32 _ d _ _ => some ⟨fun _ => [.v d], false, false⟩
  | .vmulhI32 _ d _ _ => some ⟨fun _ => [.v d], false, false⟩
  | .vand _ d _ _ => some ⟨fun _ => [.v d], false, false⟩
  | .vor _ d _ _ => some ⟨fun _ => [.v d], false, false⟩
  | .vxor _ d _ _ => some ⟨fun _ => [.v d], false, false⟩
  | .vandn _ d _ _ => some ⟨fun _ => [.v d], false, false⟩
  | .vshl _ d _ _ => some ⟨fun _ => [.v d], false, false⟩
  | .vshr _ d _ _ => some ⟨fun _ => [.v d], false, false⟩
  | .vsra _ d _ _ => some ⟨fun _ => [.v d], false, false⟩
  | .vminI32 _ d _ _ => some ⟨fun _ => [.v d], false, false⟩
  | .vmaxI32 _ d _ _ => some ⟨fun _ => [.v d], false, false⟩
  | .vminN32 _ d _ _ => some ⟨fun _ => [.v d], false, false⟩
  | .vmaxN32 _ d _ _ => some ⟨fun _ => [.v d], false, false⟩
  | .vabsI32 _ d _ => some ⟨fun _ => [.v d], false, false⟩
  | .vaddF32 _ d _ _ => some ⟨fun _ => [.v d], true, false⟩
  | .vsubF32 _ d _ _ => some ⟨fun _ => [.v d], true, false⟩
  | .vmulF32 _ d _ _ => some ⟨fun _ => [.v d], true, false⟩
  | .vminF32 _ d _ _ => some ⟨fun _ => [.v d], true, false⟩
  | .vmaxF32 _ d _ _ => some ⟨fun _ => [.v d], true, false⟩
  | .vabsF32 _ d _ => some ⟨fun _ => [.v d], false, false⟩
  | .vnegF32 _ d _ => some ⟨fun _ => [.v d], false, false⟩
  | .vcopysignF32 _ d _ _ => some ⟨fun _ => [.v d], false, false⟩
  | .vsqrtF32 _ d _ => some ⟨fun _ => [.v d], true, false⟩
  | .vrcpF32 _ d _ => some ⟨fun _ => [.v d], true, false⟩
  | .vrsqF32 _ d _ => some ⟨fun _ => [.v d], true, false⟩
  | .vexp2F32 _ d _ => some ⟨fun _ => [.v d], true, false⟩
  | .vlog2F32 _ d _ => some ⟨fun _ => [.v d], true, false⟩
  | .vfloorF32 _ d _ => some ⟨fun _ => [.v d], true, false⟩
  | .vceilF32 _ d _ => some ⟨fun _ => [.v d], true, false⟩
  | .vrintF32 _ d _ => some ⟨fun _ => [.v d], true, false⟩
  | .vfmaF32 _ d _ _ => some ⟨fun _ => [.v d], true, false⟩
  | .vfmsF32 _ d _ _ => some ⟨fun _ => [.v d], true, false⟩
  | .vfnmaF32 _ d _ _ => some ⟨fun _ => [.v d], true, false⟩
  | .vfmaF16x2 _ d _ _ => some ⟨fun _ => [.v d], true, false⟩
  | .vfmaBf16x2 _ d _ _ => some ⟨fun _ => [.v d], true, false⟩
  | .vdot2F16 _ d _ _ => some ⟨fun _ => [.v d], true, false⟩
  | .vdot2Bf16 _ d _ _ => some ⟨fun _ => [.v d], true, false⟩
  | .vdot4I8 _ d _ _ => some ⟨fun _ => [.v d], false, false⟩
  | .vdot4N8 _ d _ _ => some ⟨fun _ => [.v d], false, false⟩
  | .vaddF16x2 _ d _ _ => some ⟨fun _ => [.v d], true, false⟩
  | .vsubF16x2 _ d _ _ => some ⟨fun _ => [.v d], true, false⟩
  | .vmulF16x2 _ d _ _ => some ⟨fun _ => [.v d], true, false⟩
  | .vmaxF16x2 _ d _ _ => some ⟨fun _ => [.v d], true, false⟩
  | .vminF16x2 _ d _ _ => some ⟨fun _ => [.v d], true, false⟩
  | .vaddBf16x2 _ d _ _ => some ⟨fun _ => [.v d], true, false⟩
  | .vsubBf16x2 _ d _ _ => some ⟨fun _ => [.v d], true, false⟩
  | .vmulBf16x2 _ d _ _ => some ⟨fun _ => [.v d], true, false⟩
  | .vmaxBf16x2 _ d _ _ => some ⟨fun _ => [.v d], true, false⟩
  | .vminBf16x2 _ d _ _ => some ⟨fun _ => [.v d], true, false⟩
  | .vcvtF32I32 _ d _ => some ⟨fun _ => [.v d], true, false⟩
  | .vcvtI32F32 _ d _ => some ⟨fun _ => [.v d], true, false⟩
  | .vcvtF32N32 _ d _ => some ⟨fun _ => [.v d], true, false⟩
  | .vcvtN32F32 _ d _ => some ⟨fun _ => [.v d], true, false⟩
  | .vcvtF32F16 _ d _ _ => some ⟨fun _ => [.v d], true, false⟩
  | .vcvtF32Bf16 _ d _ _ => some ⟨fun _ => [.v d], true, false⟩
  | .vcvtF32B8 _ d _ _ => some ⟨fun _ => [.v d], true, false⟩
  | .vcvtF32E5m3 _ d _ _ => some ⟨fun _ => [.v d], true, false⟩
  | .vmov _ d _ => some ⟨fun _ => [.v d], false, false⟩
  | .vbcast _ d _ => some ⟨fun _ => [.v d], false, false⟩
  | .vins _ d _ _ => some ⟨fun _ => [.v d], false, false⟩
  | .vext _ d _ _ => some ⟨rX d, false, false⟩
  | .vshuf _ d _ _ => some ⟨fun _ => [.v d], false, false⟩
  | .vrot _ d _ _ => some ⟨fun _ => [.v d], false, false⟩
  | .vzlo _ d _ _ => some ⟨fun _ => [.v d], false, false⟩
  | .vzhi _ d _ _ => some ⟨fun _ => [.v d], false, false⟩
  | .viota _ d => some ⟨fun _ => [.v d], false, false⟩
  | .vsumI32 _ d _ => some ⟨rX d, false, false⟩
  | .vsumF32 _ d _ => some ⟨rX d, true, false⟩
  | .vmaxrF32 _ d _ => some ⟨rX d, true, false⟩
  | .vminrF32 _ d _ => some ⟨rX d, true, false⟩
  | .vmaxrI32 _ d _ => some ⟨rX d, false, false⟩
  | .vminrI32 _ d _ => some ⟨rX d, false, false⟩
  | .vargmaxF32 _ d _ => some ⟨rX d, true, false⟩
  | .vorr _ d _ => some ⟨rX d, false, false⟩
  | .vaddF32_16 _ d => some ⟨fun _ => [.v d], true, false⟩
  | .vsubF32_16 _ d => some ⟨fun _ => [.v d], true, false⟩
  | .vmulF32_16 _ d => some ⟨fun _ => [.v d], true, false⟩
  | .vmaxF32_16 _ d => some ⟨fun _ => [.v d], true, false⟩
  | .vminF32_16 _ d => some ⟨fun _ => [.v d], true, false⟩
  | .vaddI32_16 _ d => some ⟨fun _ => [.v d], false, false⟩
  | .vsubI32_16 _ d => some ⟨fun _ => [.v d], false, false⟩
  | .vand16 _ d => some ⟨fun _ => [.v d], false, false⟩
  | .vor16 _ d => some ⟨fun _ => [.v d], false, false⟩
  | .vxor16 _ d => some ⟨fun _ => [.v d], false, false⟩
  | .vmov16 _ d => some ⟨fun _ => [.v d], false, false⟩
  | .vshl16 _ d => some ⟨fun _ => [.v d], false, false⟩
  | .vaddF16x2_16 _ d => some ⟨fun _ => [.v d], true, false⟩
  | .vmulF16x2_16 _ d => some ⟨fun _ => [.v d], true, false⟩
  | .vaddBf16x2_16 _ d => some ⟨fun _ => [.v d], true, false⟩
  | .vmulBf16x2_16 _ d => some ⟨fun _ => [.v d], true, false⟩
  | .vpackF16x2 _ d _ _ => some ⟨fun _ => [.v d], true, true⟩
  | .vpackBf16x2 _ d _ _ => some ⟨fun _ => [.v d], true, true⟩
  | .vcvtB8F32 _ d _ _ => some ⟨fun _ => [.v d], true, true⟩
  | .vcvtE5m3F32 _ d _ _ => some ⟨fun _ => [.v d], true, true⟩
  | _ => none

end Sys2Proof.Machine
end

