-- ==== Sys2Proof/Certificates/Slice0/Obligations.lean ====
section
/-! DEFINITION. The statements for the provers. -/

open Sys2Proof Sys2Proof.Machine

/-- 11 R233 to R241: no bit of a 32-bit encoding is dropped, and none is refused. -/
def Obligations.EncodeThenDecode32 : Prop :=
  ∀ (i : Instr) (w : W32), encode i = .w32 w → i.encFault = none → decode (Code.w32 w).bytes = .ok (i, 4)

/-- 11 R233, R235: the sixteen short forms. -/
def Obligations.EncodeThenDecode16 : Prop :=
  ∀ (i : Instr) (w : BitVec 16), encode i = .w16 w → decode (Code.w16 w).bytes = .ok (i, 2)

/-- 11 R241, R250: an unused or reserved field that is not zero is never accepted. Bit 0 marks the length of a word (R233,
R235). -/
def Obligations.DecodeThenEncode : Prop :=
  (∀ (w : W32) (i : Instr), w.getLsbD 0 = true → decode32 w = .ok i → encode i = .w32 w) ∧
    ∀ (w : BitVec 16) (i : Instr), w.getLsbD 0 = false → decode16 w = .ok i → encode i = .w16 w

/-- The worked encodings of 11, the alias word of R242, examples of 12. -/
def Obligations.WordsOfTheManual : Prop :=
  let k : Ctl := ⟨0, false, 0⟩;
  decode (Code.w32 0x63440057#32).bytes = .ok (.add ⟨2, true, 3⟩ 12 13 2, 4) ∧
  decode (Code.w32 0x63A70A81#32).bytes = .ok (.st k 12 14 .rel .pkg 2 false, 4) ∧
  decode (Code.w32 0x7B410E01#32).bytes = .ok (.ldf k 15 13 .plain .core 0 false, 4) ∧
  decode (Code.w32 0x91000F81#32).bytes = .ok (.fenceE k .rel .die, 4) ∧
  decode (Code.w32 0xFFFF8801#32).bytes = .ok (.br k 0x7FFFC#19, 4) ∧
  decode (Code.w16 0x1C60#16).bytes = .ok (.vaddF32_16 7 3, 2) ∧
  decode (Code.w32 0x00006001#32).bytes = .ok (.or k 0 0 0, 4) ∧
  decode (Code.w32 0x5B1A2001#32).bytes = .ok (.sub k 11 12 13, 4) ∧
  decode (Code.w32 0x52D82081#32).bytes = .ok (.divu k 10 11 12, 4) ∧
  decode (Code.w32 0x52BFE101#32).bytes = .ok (.addi k 10 10 0x1FF#9, 4) ∧
  decode (Code.w32 0x60480501#32).bytes = .ok (.lis k 12 576#14, 4) ∧
  decode (Code.w32 0x298D4601#32).bytes = .ok (.pcmp k 1 2 12 13 .lt, 4) ∧
  decode (Code.w32 0x65000681#32).bytes = .ok (.pand k 3 1 2, 4) ∧
  decode (Code.w32 0x0430E681#32).bytes = .ok (.pcnt k 1 0 12, 4)

/-- 11 R250: bit patterns that are no instruction; R239: an ordering of st that is none. -/
def Obligations.ReservedWordsAreRefused : Prop :=
  (∀ w : W32, fMajor w = 0x27 ∨ 0x35 ≤ fMajor w → decode32 w = .error (.illegal 1)) ∧
  (∀ w : BitVec 16, w.getLsbD 15 = true → decode16 w = .error .rsvField) ∧
  (∀ (c : Ctl) (d a : Spec) (o : Ord) (sc : Scope) (z : BitVec 2) (p : Bool), o = .acq ∨ o = .acqrel →
    decode32 (encM d a o sc z p 0x15 c) = .error (.illegal 2))

/-- 02 R58, R59: the core issues; log 1 is the model's order of steps. The state that exec starts from is the package with
the slot as cur, its iword, the counts of R59 and the round-robin pointer; after it one cycle passes. -/
def Obligations.StepRunsTheDecodedInstruction : Prop :=
  ∀ (s s2 : State) (n : Nat) (bs : List Byte) (i : Instr) (len : Nat) (t : State),
    s.agenda = [] → n < 4 →
    let k := s.cur.coreRef;
    let r := k.slotRef n;
    s.issuedNow k = false →
    (∀ m < 4, let u := s.slot (k.slotRef m);
      u.cancelled = false ∧ (u.wait.isSome || u.walk.isSome || (u.linkErr.isNone && !u.wdogPend)) = true) →
    (∀ m < 4, m ≠ n → s.mayIssue (k.slotRef m) = false) →
    (∃ o, s.attempt r = .go o) →
    let s1 := ((List.range 4).foldl (fun s i => s.waitCount (k.slotRef i) false) s).modCore k fun c =>
      { c with last := n, issuedAt := s.now + 1 };
    s1.mayIssue r = true → s1.fetchInstr r (s1.slot r).pc.toNat = (.bytes bs, s2) →
    let b := passBytes (s2.slot r) bs;
    decode b = .ok (i, len) →
    let s3 := ({ s2 with cur := r } : State).setSlot r { s2.slot r with iword := BitVec.ofNat 32 (leNat b) };
    exec i s3 = .next t → sameSlot r s2 (.next t) = false → startsWalk r s2 (.next t) = none →
    step s = .next t.tick

/-- The agenda is the model's own order of what happens outside the cores (log 1). -/
def Obligations.AgendaMovesRunTheirEvents : Prop :=
  ∀ (s : State) (e : Instr) (rest : List Move), s.agenda = .event e :: rest → e.encoded = false →
    step s = exec e { s with agenda := rest }

/-- 10 R209 to R211: what goes wrong in an instruction is a fault that freezes its slot, never the end of the run. The
agenda is the model's (log 1). -/
def Obligations.NothingStopsARun : Prop :=
  (∀ (i : Instr) (s : State), ∃ t, exec i s = .next t) ∧ ∀ s : State, ∃ t, step s = .next t

/-- The invariant of the model's memory (log 2), for every state and every move: instructions, events and cycles. -/
def Obligations.StepKeepsMemoryCanonical : Prop :=
  ∀ s t : State, s.Inv → step s = .next t → t.Inv

/-- 21 R374, R380: reset values; where the manual gives none the model's are zero (log 3). -/
def Obligations.ResetIsAsTheManualSays : Prop :=
  State.reset.Inv ∧ State.reset.mem = [] ∧ (∀ p, (State.reset.part p).place = none) ∧
  (∀ r, (State.reset.slot r).st = .empty) ∧ State.reset.boot = 0 ∧ State.reset.pwrcfg = 0xC8080 ∧
  State.reset.cerrth = 4096 ∧
  (∀ r, let t := State.reset.slot r;
    t.round = 0 ∧ t.b8fmt = 0x0C ∧ t.check = 0 ∧ t.wlimit = 16777216 ∧ t.seed = 0 ∧ t.fflags = 0 ∧ t.cycles = 0 ∧ t.wdog = 0 ∧
      t.stageReg = 0 ∧ t.mtime = 0 ∧ t.msrc = 0 ∧ t.depth = 0 ∧ t.rsp = BitVec.ofNat 64 (0x14000 + 0x2000 * r.slot) ∧ t.grp = none ∧
      ∀ i, mget 0 i t.mc = 0) ∧
  (∀ r n, readX (State.reset.slot r) n = 0 ∧ readV (State.reset.slot r) n = 0) ∧
  ∀ r, readP (State.reset.slot r) 0 = 0xFFFFFFFF ∧ ∀ n : PSpec, n ≠ 0 → readP (State.reset.slot r) n = 0

/-- 04 R86. -/
def Obligations.HardWiredRegisters : Prop :=
  ∀ (t : Slot) (x : Word) (d : Nat),
    readX t 0 = 0 ∧ applyWrite t (writeX t 0 x) = t ∧
    (∀ n : Spec, n.toNat < 8 → xReg t n = .g (n.setWidth 3) ∧ xReg { t with depth := d } n = xReg t n) ∧
    (∀ n : Spec, 8 ≤ n.toNat → ∃ j, xReg t n = .ring j) ∧
    ∀ n m : Spec, n.toNat < 8 → n ≠ 0 →
      readX (applyWrite t (writeX t n x)) n = x ∧ (m ≠ n → readX (applyWrite t (writeX t n x)) m = readX t m)

/-- 04 R87. The ring entry holds the logical register while it is resident. -/
def Obligations.WindowView : Prop :=
  ∀ (t : Slot) (x : Word) (i : Nat), i < 24 →
    let w (k : Nat) : Spec := BitVec.ofNat 5 (8 + k);
    xReg t (w i) = .ring (BitVec.ofNat 6 ((16 * t.depth + i) % 64)) ∧
    (i < 8 → xReg { t with depth := t.depth + 1 } (w i) = xReg t (w (16 + i))) ∧
    xReg { t with depth := t.depth + 1 } (w 15) ≠ xReg t (w i) ∧
    readX (applyWrite t (writeX t (w i) x)) (w i) = x

/-- 04 R92, R93. -/
def Obligations.PredicateRegisters : Prop :=
  ∀ (t : Slot) (x m : W32), readP t 0 = 0xFFFFFFFF ∧ applyWrite t (.p 0 x m) = t ∧
    ∀ n : PSpec, n ≠ 0 →
      readP (applyWrite t (.p n x m)) n = (x &&& m) ||| (readP t n &&& ~~~m) ∧
      (∀ q : PSpec, q ≠ n → readP (applyWrite t (.p n x m)) q = readP t q) ∧
      readP (applyWrites t (cmpWrites n n x m)) n = ((~~~x) &&& m) ||| (readP t n &&& ~~~m)

/-- 04 R91. -/
def Obligations.VectorLanesKeepTheirBits : Prop :=
  ∀ (t : Slot) (n : Spec) (x : Vec) (m : W32) (i : Nat), i < 32 →
    lane (readV (applyWrite t (.v n x m)) n) i = (if m.getLsbD i then lane x i else lane (readV t n) i) ∧
    (∀ q : Spec, q ≠ n → readV (applyWrite t (.v n x m)) q = readV t q) ∧
    (∀ d : Nat, readV { t with depth := d } n = readV t n) ∧
    (∀ b < 32, (lane x i).getLsbD b = x.getLsbD (32 * i + b)) ∧
    (∀ h < 2, ∀ b < 16, (BitVec.ofNat 16 (half (lane x i) h)).getLsbD b = (lane x i).getLsbD (16 * h + b)) ∧
    (∀ e < 4, ∀ b < 8, (BitVec.ofNat 8 (byteOf (lane x i) e)).getLsbD b = (lane x i).getLsbD (8 * e + b)) ∧
    ∀ j < 4, (RegWrite.v n x m).bytes.getD (4 * i + j) 0 = (lane x i).extractLsb' (8 * j) 8

/-- 04 R94, R95; 12 R253: landing of results; the order of the list is the model's form of it. -/
def Obligations.LatencyOfResults : Prop :=
  (∀ (l : List Pend) (p : Pend), l.Pairwise (fun a b => a.due ≤ b.due) →
    (insPend p l).Pairwise (fun a b => a.due ≤ b.due) ∧
    (insPend p l).filter (fun q => decide (q.due ≤ p.due)) = l.filter (fun q => decide (q.due ≤ p.due)) ++ [p]) ∧
  (∀ (t : Slot) (now : Nat),
    (landDue t now).pend = t.pend.filter (fun p => decide (now < p.due)) ∧
    (landDue t now).flights = t.flights ∧ (landDue t now).pc = t.pc ∧ (landDue t now).fflags = t.fflags ∧
    (∀ x : Reg, (∀ p ∈ t.pend, p.due ≤ now → p.w.reg ≠ x) → snapReg (landDue t now) x = snapReg t x) ∧
    ∀ (before after : List Pend) (p : Pend), t.pend = before ++ p :: after → p.due ≤ now →
      (∀ q ∈ after, q.due ≤ now → q.w.reg ≠ p.w.reg) →
      snapReg (landDue t now) p.w.reg = snapReg (applyWrite (landDue { t with pend := before } now) p.w) p.w.reg) ∧
  (∀ (t : Slot) (w : RegWrite) (due now : Nat), t.pend = [⟨w, due⟩] →
    landDue t now = if due ≤ now then { applyWrite t w with pend := [] } else t) ∧
  ∀ (t : Slot) (ws : List RegWrite) (due now : Nat), t.flights = [.timed ws due] →
    landTimed t now = (if due ≤ now then { applyWrites t ws with flights := [] } else t) ∧
    (due ≤ now → ∀ x, busy (landTimed t now) x = false)

/-- 04 R96: it waits without fault, and c.check does not apply. -/
def Obligations.BusyRegistersHoldAnInstruction : Prop :=
  (∀ i : Instr, (formOf i).isSome = i.encoded) ∧
  ∀ (s : State) (x : Reg), x.fixed = false → busy (s.slot s.cur) x = true →
    let t := s.slot s.cur;
    (∀ (i : Instr) (f : Form), formOf i = some f → x ∈ f.regs t → exec i s = .next s) ∧
    ∀ (c : Ctl) (d a b : Spec) (p e : PSpec),
      (x ∈ [.p c.g, xReg t a, xReg t b, xReg t d] → exec (.add c d a b) s = .next s) ∧
      (x ∈ [.p c.g, xReg t a, xReg t d] → ∀ o sc z pi, exec (.ld c d a o sc z pi) s = .next s) ∧
      (x ∈ [.p c.g, xReg t a, xReg t d] → ∀ o sc z pi, exec (.st c d a o sc z pi) s = .next s) ∧
      (x ∈ [.p c.g, .v a, .v b, .v d] → exec (.vaddI32 c d a b) s = .next s) ∧
      (x ∈ [.p c.g, .p p, .p e, xReg t a, xReg t b] → ∀ f, exec (.pcmp c p e a b f) s = .next s)

/-- 04 R95, 14 R296; the packet's class and causes are 10 R209 and R213. A form is Safety.lean's formOf: which registers
an instruction reads and writes. -/
def Obligations.EarlyReadsFaultUnderCheck : Prop :=
  ∀ s : State,
    let t := s.slot s.cur;
    let late (x : Reg) : Bool := !x.fixed && early t x;
    (∀ (i : Instr) (f : Form), formOf i = some f → notReady t (f.regs t) = false → inRep t f.forbidden = false →
      t.check.getLsbD 0 = true →
      let stalls (k : Nat) (x : Reg) : Prop := exec i s = .next (s.takeFault s.cur t.pc f.len (stallFault k t x));
      (late (.p f.c.g) = true → stalls 1 (.p f.c.g)) ∧
      (late (.p f.c.g) = false → f.on t = true → Unfenced s i = true →
        (∀ x, (f.reads t).find? late = some x → stalls 1 x) ∧
        ((f.reads t).find? late = none → ∀ x, (f.writes t).find? late = some x → stalls 2 x)) ∧
      (late (.p f.c.g) = false → f.on t = false → f.lanes = true → neverForm f.c = false →
        ∀ x, (f.reads t).find? late = some x → stalls 1 x)) ∧
    ∀ (c : Ctl) (d a b : Spec), notReady t (.p c.g :: rXX a b t ++ rX d t) = false → guardOn t c = true →
      t.check.getLsbD 0 = false →
      exec (.add c d a b) s = .next ((s.issued c 4 [xReg t d]).later s.cur 1 [writeX t d (readX t a + readX t b)])

/-- 11 R232: a false-guarded instruction still spends its issue cycle and its stall count. 14 R296: a vector instruction
with no lane on. -/
def Obligations.FalseGuardSpendsTheIssue : Prop :=
  ∀ s : State,
    let t := s.slot s.cur;
    (∀ (i : Instr) (f : Form), formOf i = some f → f.on t = false → notReady t (f.regs t) = false → inRep t f.forbidden = false →
      stallOf t [.p f.c.g] [] = none → (f.lanes = true → neverForm f.c = false → stallOf t (f.reads t) [] = none) →
      exec i s = .next (s.setSlot s.cur (retire t s.now f.c.w f.len))) ∧
    ∀ (c : Ctl) (d a b : Spec),
      let skips (i : Instr) : Prop := exec i s = .next (s.setSlot s.cur (retire t s.now c.w 4));
      guardOn t c = false → t.flights = [] → t.rep = none → stallOf t [.p c.g] [] = none →
      skips (.add c d a b) ∧ (∀ o sc z pi, skips (.ld c d a o sc z pi) ∧ skips (.st c d a o sc z pi)) ∧
      (∀ o, skips (.br c o)) ∧ (∀ f o sc, skips (.amo c d a f o sc)) ∧ skips (.send c d a b) ∧ skips (.jpost c a b) ∧
      skips (.sread c a b)

/-- 12 R252, with its latencies; a write to g0 lands nowhere (HardWiredRegisters). -/
def Obligations.TwoSourceScalarResults : Prop :=
  ∀ (s : State) (c : Ctl) (d a b : Spec), Executes s c false (rXX a b) (rX d) (guardOn · c) = true →
    let t := s.slot s.cur;
    let x := readX t a;
    let y := readX t b;
    let sh := y.toNat % 64;
    let gives (i : Instr) (lat : Nat) (z : Word) : Prop :=
      exec i s = .next ((s.issued c 4 [xReg t d]).later s.cur lat [writeX t d z]);
    gives (.add c d a b) 1 (x + y) ∧ gives (.sub c d a b) 1 (x - y) ∧ gives (.and c d a b) 1 (x &&& y) ∧
    gives (.or c d a b) 1 (x ||| y) ∧ gives (.xor c d a b) 1 (x ^^^ y) ∧ gives (.andn c d a b) 1 (x &&& ~~~y) ∧
    gives (.shl c d a b) 1 (BitVec.ofNat 64 (x.toNat * 2 ^ sh)) ∧ gives (.shr c d a b) 1 (BitVec.ofNat 64 (x.toNat / 2 ^ sh)) ∧
    gives (.sra c d a b) 1 (BitVec.ofInt 64 (x.toInt / 2 ^ sh)) ∧
    gives (.mul c d a b) 2 (BitVec.ofNat 64 (x.toNat * y.toNat)) ∧
    gives (.mulh c d a b) 2 (BitVec.ofInt 64 (x.toInt * y.toInt / 2 ^ 64)) ∧
    gives (.mulhu c d a b) 2 (BitVec.ofNat 64 (x.toNat * y.toNat / 2 ^ 64)) ∧
    gives (.min c d a b) 1 (BitVec.ofInt 64 (min x.toInt y.toInt)) ∧ gives (.max c d a b) 1 (BitVec.ofInt 64 (max x.toInt y.toInt)) ∧
    gives (.minu c d a b) 1 (BitVec.ofNat 64 (min x.toNat y.toNat)) ∧ gives (.maxu c d a b) 1 (BitVec.ofNat 64 (max x.toNat y.toNat))

/-- 12 R253 with 03 R61. -/
def Obligations.DivisionResults : Prop :=
  ∀ (s : State) (c : Ctl) (d a b : Spec), Executes s c false (rXX a b) (rX d) (guardOn · c) = true →
    let t := s.slot s.cur;
    let x := readX t a;
    let y := readX t b;
    let gives (i : Instr) (z : Word) : Prop :=
      ∃ u, exec i s = .next u ∧ busy (u.slot s.cur) (xReg t d) = true ∧ (u.slot s.cur).fflags = t.fflags ∧
        u = (s.issued c 4 [xReg t d]).fly s.cur (.timed [writeX t d z] (s.now + if y = 0 then 3 else 34));
    gives (.div c d a b) (if y = 0 then BitVec.allOnes 64 else BitVec.ofInt 64 (x.toInt.tdiv y.toInt)) ∧
    gives (.divu c d a b) (if y = 0 then BitVec.allOnes 64 else BitVec.ofNat 64 (x.toNat / y.toNat)) ∧
    gives (.rem c d a b) (if y = 0 then x else BitVec.ofInt 64 (x.toInt - x.toInt.tdiv y.toInt * y.toInt)) ∧
    gives (.remu c d a b) (if y = 0 then x else BitVec.ofNat 64 (x.toNat % y.toNat)) ∧
    (x = BitVec.ofInt 64 (-2 ^ 63) → y = BitVec.allOnes 64 → gives (.div c d a b) x ∧ gives (.rem c d a b) 0)

/-- 12 R254. -/
def Obligations.BitCountsAndExtensions : Prop :=
  ∀ (s : State) (c : Ctl) (d a : Spec), Executes s c false (rX a) (rX d) (guardOn · c) = true →
    let t := s.slot s.cur;
    let x := readX t a;
    let gives (i : Instr) (z : Word) : Prop :=
      exec i s = .next ((s.issued c 4 [xReg t d]).later s.cur 1 [writeX t d z]);
    (∃ n ≤ 64, gives (.clz c d a) (BitVec.ofNat 64 n) ∧ (∀ i, 64 - n ≤ i → x.getLsbD i = false) ∧
      (n < 64 → x.getLsbD (63 - n) = true)) ∧
    (∃ n ≤ 64, gives (.ctz c d a) (BitVec.ofNat 64 n) ∧ (∀ i < n, x.getLsbD i = false) ∧ (n < 64 → x.getLsbD n = true)) ∧
    gives (.popc c d a) (BitVec.ofNat 64 ((List.range 64).countP fun i => x.getLsbD i)) ∧
    (∃ z, gives (.brev c d a) z ∧ ∀ i < 64, z.getLsbD i = x.getLsbD (63 - i)) ∧
    gives (.sext8 c d a) (BitVec.ofInt 64 (x.setWidth 8).toInt) ∧ gives (.sext16 c d a) (BitVec.ofInt 64 (x.setWidth 16).toInt) ∧
    gives (.sext32 c d a) (BitVec.ofInt 64 (x.setWidth 32).toInt) ∧ gives (.zext32 c d a) (BitVec.ofNat 64 (x.toNat % 2 ^ 32)) ∧
    (∃ z, gives (.bswap c d a) z ∧ ∀ j < 8, z.extractLsb' (8 * j) 8 = x.extractLsb' (8 * (7 - j)) 8) ∧
    ∀ b : Spec, Executes s c false (rXX a b) (rX d) (guardOn · c) = true →
      let y := readX t b;
      let sh := y.toNat % 64;
      gives (.rol c d a b) (if sh = 0 then x else x <<< sh ||| x >>> (64 - sh)) ∧
      gives (.addw c d a b) (BitVec.ofInt 64 ((x + y).setWidth 32).toInt)

/-- 12 R255 to R258. -/
def Obligations.ImmediateResults : Prop :=
  ∀ (s : State) (c : Ctl) (d a : Spec),
    let t := s.slot s.cur;
    let x := readX t a;
    let gives (i : Instr) (z : Word) : Prop :=
      exec i s = .next ((s.issued c 4 [xReg t d]).later s.cur 1 [writeX t d z]);
    (Executes s c false (rX a) (rX d) (guardOn · c) = true →
      (∀ i : BitVec 9, let m := BitVec.ofInt 64 i.toInt;
        gives (.addi c d a i) (x + m) ∧ gives (.andi c d a i) (x &&& m) ∧ gives (.ori c d a i) (x ||| m) ∧
        gives (.xori c d a i) (x ^^^ m)) ∧
      ∀ n : BitVec 6, gives (.shli c d a n) (BitVec.ofNat 64 (x.toNat * 2 ^ n.toNat)) ∧
        gives (.shri c d a n) (BitVec.ofNat 64 (x.toNat / 2 ^ n.toNat)) ∧
        gives (.srai c d a n) (BitVec.ofInt 64 (x.toInt / 2 ^ n.toNat))) ∧
    (Executes s c false noRegs (rX d) (guardOn · c) = true →
      ∀ i : BitVec 14, gives (.li c d i) (BitVec.ofInt 64 i.toInt) ∧
        gives (.adpc c d i) (t.pc + BitVec.ofInt 64 (2 * i.toInt))) ∧
    (Executes s c false (rX d) (rX d) (guardOn · c) = true →
      ∀ i : BitVec 14, gives (.lis c d i) (BitVec.ofNat 64 ((readX t d).toNat * 2 ^ 14 + i.toNat)))

/-- 12 R259 to R261. -/
def Obligations.CompareAndPredicateResults : Prop :=
  ∀ (s : State) (c : Ctl) (p q u : PSpec) (a b : Spec),
    let t := s.slot s.cur;
    let x := readX t a;
    let y := readX t b;
    (Executes s c false (rXX a b) (fun _ => [.p p, .p q]) (guardOn · c) = true →
      let gives (f : PCond) (z : Prop) [Decidable z] : Prop := exec (.pcmp c p q a b f) s =
        .next ((s.issued c 4 [.p p, .p q]).later s.cur 1
          [.p p (if z then BitVec.allOnes 32 else 0) (BitVec.allOnes 32), .p q (if z then 0 else BitVec.allOnes 32) (BitVec.allOnes 32)]);
      gives .eq (x = y) ∧ gives .ne (x ≠ y) ∧ gives .lt (x.toInt < y.toInt) ∧ gives .ge (x.toInt ≥ y.toInt) ∧
      gives .ltu (x.toNat < y.toNat) ∧ gives .geu (x.toNat ≥ y.toNat) ∧ gives .tst (x &&& y ≠ 0)) ∧
    (let gives (i : Instr) (z : W32) : Prop :=
        exec i s = .next ((s.issued c 4 [.p p]).later s.cur 1 [.p p z (laneMask t c)]);
      (Executes s c false (fun _ => [.p q, .p u]) (fun _ => [.p p]) (fun t => laneMask t c != 0) = true →
        gives (.pand c p q u) (readP t q &&& readP t u) ∧ gives (.por c p q u) (readP t q ||| readP t u) ∧
        gives (.pxor c p q u) (readP t q ^^^ readP t u) ∧ gives (.pandn c p q u) (readP t q &&& ~~~readP t u)) ∧
      (Executes s c false (fun _ => [.p q]) (fun _ => [.p p]) (fun t => laneMask t c != 0) = true →
        gives (.pnot c p q) (~~~readP t q)) ∧
      (Executes s c false (rX a) (fun _ => [.p p]) (fun t => laneMask t c != 0) = true →
        gives (.pset c p a) (BitVec.ofNat 32 x.toNat))) ∧
    (let gives (i : Instr) (n : Nat) : Prop :=
        exec i s = .next ((s.issued c 4 [xReg t a]).later s.cur 1 [writeX t a (BitVec.ofNat 64 n)]);
      (Executes s c false (fun _ => [.p q]) (rX a) (guardOn · c) = true → gives (.pget c q a) (readP t q).toNat) ∧
      (Executes s c false (fun _ => [.p q, .p u]) (rX a) (guardOn · c) = true →
        let z := readP t q &&& readP t u;
        gives (.pcnt c q u a) ((List.range 32).countP fun i => z.getLsbD i) ∧
        ∃ n ≤ 32, gives (.pfirst c q u a) n ∧ (∀ i < n, z.getLsbD i = false) ∧ (n < 32 → z.getLsbD n = true)))

/-- 12 R263, R265; 11 R233. Outside a repetition, where neither may stand (12 R274). The fields of the misaligned target
are log 62's. -/
def Obligations.BranchesAndJumps : Prop :=
  ∀ (s : State) (c : Ctl) (a : Spec) (o : BitVec 19),
    let t := s.slot s.cur;
    (Executes s c true noRegs noRegs (guardOn · c) = true →
      exec (.br c o) s =
        .next ((s.issued c 4 []).modSlot s.cur fun u => { u with pc := t.pc + BitVec.ofInt 64 (2 * o.toInt) })) ∧
    (Executes s c true (rX a) noRegs (guardOn · c) = true →
      ((readX t a).getLsbD 0 = false →
        exec (.jr c a) s = .next ((s.issued c 4 []).modSlot s.cur fun u => { u with pc := readX t a })) ∧
      ((readX t a).getLsbD 0 = true →
        exec (.jr c a) s = .next (s.takeFault s.cur t.pc 4
          { cls := 0x03, cause := 1, addr := readX t a, aux := 2 })))

/-- 04 R87, R88; 12 R264, R265; 09 R188, R192 for the spill's wait. The fields of the misaligned target are log 62's. A
fence that comes first is FencesOrderMemory's. -/
def Obligations.CallsMoveTheWindow : Prop :=
  ∀ (s : State) (c : Ctl) (a : Spec) (o : BitVec 19),
    let t := s.slot s.cur;
    let d := t.depth;
    let need := 16 * (d + 1) + 24 - 64;
    let n := spillGroups t.lo need;
    let full : Prop := n > 0 ∧ t.rsp.toNat + 8 * (need - t.lo) > stackBase s.cur.slot + 0x2000;
    let quiet : Prop := ∀ g < n, ∀ x ∈ groupRegs (t.lo + 8 * g), busy t x = false;
    let called (i : Instr) (target : Word) : Prop := Unfenced s i = true → moveWaits t (spillKeys s.cur t n) = false → ∃ u, exec i s = .next u ∧
      let v := u.slot s.cur;
      v.depth = d + 1 ∧ v.pc = target ∧ readRing v (BitVec.ofNat 6 (16 * (d + 1) + 15)) = t.pc + 4 ∧ v.lo = t.lo + 8 * n ∧
      need ≤ v.lo ∧ v.rsp = t.rsp + BitVec.ofNat 64 (64 * n) ∧ v.ready = s.now + c.w.toNat + 1 + 8 * n ∧ v.st = t.st ∧
      (s.Inv → 0x10000 ≤ t.rsp.toNat → ∀ j < 8 * n, ∀ b < 8,
        u.newest s.cur.quadRef (sharedKey s.cur.coreRef (t.rsp.toNat - 0x10000) + 8 * j + b) =
          (readRing (landAll ((s.issued c 4 (calleeW15 t)).slot s.cur)) (BitVec.ofNat 6 (t.lo + j))).extractLsb' (8 * b) 8);
    let noRoom (i : Instr) : Prop := Unfenced s i = true → exec i s = .next (s.takeFault s.cur t.pc 4
      { cls := 0x06, cause := 1, addr := t.rsp, aux := BitVec.ofNat 32 d });
    (Executes s c true noRegs calleeW15 (guardOn · c) = true →
      (¬ full → quiet → called (.call c o) (t.pc + BitVec.ofInt 64 (2 * o.toInt))) ∧ (full → noRoom (.call c o))) ∧
    (Executes s c true (rX a) calleeW15 (guardOn · c) = true →
      ((readX t a).getLsbD 0 = false → (¬ full → quiet → called (.callr c a) (readX t a)) ∧ (full → noRoom (.callr c a))) ∧
      ((readX t a).getLsbD 0 = true → Unfenced s (.callr c a) = true →
        exec (.callr c a) s = .next (s.takeFault s.cur t.pc 4 { cls := 0x03, cause := 1, addr := readX t a, aux := 2 })))

/-- 04 R87, R88; 12 R266; 09 R188, R192 for the fill's wait. The fields of the misaligned target are log 62's. -/
def Obligations.ReturnsMoveTheWindow : Prop :=
  ∀ (s : State) (c : Ctl), Executes s c true (rX 23) noRegs (guardOn · c) = true →
    let t := s.slot s.cur;
    let target := readX t 23;
    let d := t.depth - 1;
    let n := if t.lo > 16 * d then cdiv (t.lo - 16 * d) 8 else 0;
    Unfenced s (.ret c) = true →
    (t.depth = 0 → exec (.ret c) s = .next (s.takeFault s.cur t.pc 4 { cls := 0x01, cause := 5 })) ∧
    (0 < t.depth → target.getLsbD 0 = true →
      exec (.ret c) s = .next (s.takeFault s.cur t.pc 4 { cls := 0x03, cause := 1, addr := target, aux := 2 })) ∧
    (0 < t.depth → target.getLsbD 0 = false →
      (∀ g < n, ∀ x ∈ groupRegs (t.lo - 8 * (g + 1)), busy t x = false) →
      let keys := (List.range n).flatMap fun g => fillKeys s.cur { t with rsp := t.rsp - BitVec.ofNat 64 (64 * g) };
      moveWaits t keys = false → (∀ k ∈ keys, smem (granuleOf k) s.poison = true → s.hot s.cur (granuleOf k) = false) →
      ∃ u, exec (.ret c) s = .next u ∧
        let v := u.slot s.cur;
        v.depth = d ∧ v.pc = target ∧ v.lo = t.lo - 8 * n ∧ v.rsp = t.rsp - BitVec.ofNat 64 (64 * n) ∧
        v.ready = s.now + c.w.toNat + 1 + 8 * n ∧ v.st = t.st ∧
        ∀ g < n, ∀ i < 8, let at_ (g i : Nat) : BitVec 6 := BitVec.ofNat 6 (t.lo - 8 * (g + 1) + i);
          (∀ h, g < h → h < n → ∀ j < 8, at_ h j ≠ at_ g i) →
          let rsp := t.rsp - BitVec.ofNat 64 (64 * g);
          let bs := s.seeBytes s.cur.quadRef (rsp.toNat - 64) (fillKeys s.cur { t with rsp := rsp });
          readRing v (at_ g i) = BitVec.ofNat 64 (leNat ((bs.drop (8 * i)).take 8)) ∧ v.ringValid.getLsbD (at_ g i).toNat = true)

/-- 12 R268, R270, R271. -/
def Obligations.ParkBrkRsync : Prop :=
  ∀ (s : State) (c : Ctl) (a : Spec),
    let t := s.slot s.cur;
    (Executes s c true (rX a) noRegs (guardOn · c) = true →
      (t.wake = true → exec (.park c a) s = .next ((s.issued c 4 []).modSlot s.cur fun u => { u with wake := false })) ∧
      (t.wake = false → exec (.park c a) s =
        .next (s.startWait s.cur (.park c a) 4 (readX t a) { cause := 15, addr := 0, i0 := 0, i1 := 0 }))) ∧
    (Executes s c false noRegs noRegs (guardOn · c) = true →
      exec (.brk c) s = .next (s.takeFault s.cur t.pc 4 { cls := 0x0E, cause := 1 }) ∧
      ∃ u : State, exec (.rsync c) s = .next u ∧
        let v := u.slot s.cur;
        v.aperture = [] ∧ v.recent = [] ∧ v.pc = ((s.issued c 4 []).slot s.cur).pc ∧ s.now + c.w.toNat + 1 ≤ v.ready ∧
        (∀ q ∈ t.pend, q.due ≤ v.ready) ∧
        (t.aperture = [] → v.pend = t.pend ∧ ∀ m w k, readX v m = readX t m ∧ readV v w = readV t w ∧ readP v k = readP t k))

/-- 12 R272 to R275. That a rep of no passes looks at its body for the lengths is log 82's; which fields move is
Fetch.lean's vecFields, R273's table. -/
def Obligations.RepetitionRunsItsBody : Prop :=
  (∀ (s : State) (c : Ctl) (a : Spec) (l n : BitVec 4), Executes s c true (rX a) noRegs (guardOn · c) = true →
    let t := s.slot s.cur;
    (readX t a = 0 → ∀ (s2 : State) (pc : Word),
      (s.issued c 4 []).passOver s.cur (l.toNat + 1) ((s.issued c 4 []).slot s.cur).pc = ((none, pc), s2) →
      exec (.rep c a l n) s = .next (s2.modSlot s.cur fun u => { u with pc := pc })) ∧
    (readX t a ≠ 0 → exec (.rep c a l n) s = .next ((s.issued c 4 []).modSlot s.cur fun u =>
      { u with rep := some { pass := 0, passes := (readX t a).toNat, pos := 0, len := l.toNat + 1, stride := n.toNat,
                             start := u.pc } }))) ∧
  (∀ (t : Slot) (x : Rep) (len : Nat), t.rep = some x →
    advance t len =
      if x.pos + 1 < x.len then { t with pc := t.pc + BitVec.ofNat 64 len, rep := some { x with pos := x.pos + 1 } }
      else if x.pass + 1 < x.passes then { t with pc := x.start, rep := some { x with pos := 0, pass := x.pass + 1 } }
      else { t with pc := t.pc + BitVec.ofNat 64 len, rep := none }) ∧
  (∀ (t : Slot) (bs : List Byte), t.rep = none → passBytes t bs = bs) ∧
  (∀ (t : Slot) (x : Rep) (bs : List Byte), t.rep = some x →
    (∀ e, decode bs = .error e → passBytes t bs = bs) ∧
    (∀ i len, decode bs = .ok (i, len) → passBytes t bs =
      leBytes len ((vecFields i).foldl (fun w lo => moveField w (x.pass * x.stride) lo) (leNat (bs.take len)))) ∧
    let moves (i j : Instr) : Prop := ∀ n, decode (encode i).bytes = .ok (i, n) → decode (passBytes t (encode i).bytes) = .ok (j, n);
    let v (f : Spec) : Spec := BitVec.ofNat 5 (f.toNat + x.pass * x.stride);
    ∀ (c : Ctl) (d a b : Spec) (p e : PSpec) (k : BitVec 5) (f : FCond) (o : Ord) (sc : Scope) (z : BitVec 2) (pi : Bool) (y : XSize),
      moves (.vaddI32 c d a b) (.vaddI32 c (v d) (v a) (v b)) ∧ moves (.vfmaF32 c d a b) (.vfmaF32 c (v d) (v a) (v b)) ∧
      moves (.vcvtF32F16 c d a k) (.vcvtF32F16 c (v d) (v a) k) ∧ moves (.vsumI32 c d a) (.vsumI32 c d (v a)) ∧
      moves (.vcmpf c p e a b f) (.vcmpf c p e (v a) (v b) f) ∧ moves (.vbcast c d a) (.vbcast c (v d) a) ∧
      moves (.vld c d a o sc z pi) (.vld c (v d) a o sc z pi) ∧ moves (.vst c d a o sc z pi) (.vst c (v d) a o sc z pi) ∧
      moves (.vldx c d a b y) (.vldx c (v d) a (v b) y) ∧ moves (.vmov c d b) (.vmov c (v d) (v b)) ∧
      moves (.send c d a b) (.send c (v d) a b) ∧ moves (.recv c d a b) (.recv c (v d) a b) ∧
      moves (.vaddF32_16 b d) (.vaddF32_16 (v b) (v d)) ∧ moves (.add c d a b) (.add c d a b) ∧
      moves (.ld c d a o sc z pi) (.ld c d a o sc z pi)) ∧
  (∀ (w n lo b : Nat), lo ≤ 27 → w < 2 ^ 32 →
    moveField w n lo / 2 ^ lo % 32 = (w / 2 ^ lo % 32 + n) % 32 ∧
    ((b < lo ∨ lo + 5 ≤ b) → (moveField w n lo).testBit b = w.testBit b)) ∧
  ∀ (s : State) (c : Ctl) (a : Spec),
    let t := s.slot s.cur;
    let forbidden (i : Instr) : Prop := exec i s = .next (s.takeFault s.cur t.pc 4 { cls := 0x01, cause := 5 });
    t.rep.isSome = true → t.flights = [] →
    (∀ o, forbidden (.br c o) ∧ forbidden (.call c o)) ∧ forbidden (.jr c a) ∧ forbidden (.callr c a) ∧ forbidden (.ret c) ∧
    forbidden (.endTask c) ∧ forbidden (.park c a) ∧ ∀ l n, forbidden (.rep c a l n)

/-- 04 R100, R101 (a c.id, c.ctx or c.grp that the supervisor's debug window has written is R105's); 15 R335, R337. What
dstop does with the bits above 15 of its operand is log 71's: here they are 0. -/
def Obligations.ControlRegisterAccess : Prop :=
  (∀ (s : State) (r : SlotRef),
    let t := s.slot r;
    let reg (n : Nat) : Word := s.ctlReg r n;
    (t.idw = none → r.slot < 4 → r.die < 4 → s.pkg < 512 → r.core ≤ supCore →
      bits (reg 0) 0 2 = r.slot ∧ bits (reg 0) 16 2 = r.die ∧ bits (reg 0) 18 9 = s.pkg ∧ bits (reg 0) 27 8 = t.gen.toNat ∧
      (reg 0).getLsbD 35 = decide (r.core = supCore) ∧ bits (reg 0) 36 28 = 0 ∧
      (r.core < supCore → bits (reg 0) 2 8 = r.core ∧ bits (reg 0) 10 6 = quadOf r.core)) ∧
    (t.ctxw = none → reg 1 = BitVec.ofNat 64 r.ctx) ∧ reg 2 = BitVec.ofNat 64 t.loc ∧ reg 3 ++ reg 4 = t.time ∧ reg 5 = t.arg ∧
    reg 6 = t.rec_ ∧ reg 7 = t.card ∧ reg 8 = t.round ∧ reg 9 = t.b8fmt ∧ reg 0xA = t.check ∧ reg 0xB = t.wlimit ∧ reg 0xC = t.rsp ∧
    reg 0xD = t.fflags.setWidth 64 ∧ reg 0xE = BitVec.ofNat 64 t.depth ∧ reg 0x10 = s.clock ∧ reg 0x11 = t.cycles ∧
    reg 0x12 = t.seed ∧ reg 0x13 = t.wdog ∧
    (t.grp = none → t.grpw = 0 → reg 0x14 = 0) ∧
    (∀ g i, t.grp = some (g, i) → g < 4096 → i < 64 →
      (reg 0x14).getLsbD 63 = true ∧ bits (reg 0x14) 18 45 = 0 ∧ bits (reg 0x14) 12 6 = i ∧ bits (reg 0x14) 0 12 = g) ∧
    (∀ g < 64, (reg 0x15).getLsbD g = decide (g ∈ s.haltsOf r.coreRef)) ∧
    (∀ w h, s.shapeOf r.ctx = .rect w h → w - 1 < 16 → h - 1 < 16 →
      bits (reg 0x16) 0 4 = w - 1 ∧ bits (reg 0x16) 4 4 = h - 1 ∧ bits (reg 0x16) 8 56 = 0) ∧
    (∀ n, s.shapeOf r.ctx = .dies n → n - 1 < 16 →
      bits (reg 0x16) 0 4 = n - 1 ∧ bits (reg 0x16) 4 4 = 0 ∧ (reg 0x16).getLsbD 8 = true ∧ bits (reg 0x16) 9 55 = 0) ∧
    reg 0x17 = t.stageReg ∧ reg 0x18 ++ reg 0x19 = t.mtime ∧ reg 0x1A = t.msrc ∧
    (∀ j < 32, reg (0x40 + j) = mget 0 j t.mc ∧ reg (0x60 + j) = mget 0 j (s.quad r.quadRef).arr.desc) ∧
    (∀ n, n = 0xF ∨ (0x1B ≤ n ∧ n < 0x40) ∨ 0x80 ≤ n → reg n = 0)) ∧
  ∀ (s : State) (c : Ctl) (d a : Spec) (i : BitVec 9),
    let t := s.slot s.cur;
    (Executes s c false noRegs (rX d) (guardOn · c) = true →
      let s1 := s.issued c 4 [xReg t d];
      let w := [writeX t d (s1.ctlReg s.cur i.toNat)];
      exec (.mfc c d i) s = .next (if i = 0x010 ∨ i = 0x011 then s1.fly s.cur (.value w) else s1.later s.cur 1 w)) ∧
    (Executes s c false (rX d) noRegs (guardOn · c) = true →
      let x := readX t d;
      let s1 := s.issued c 4 [];
      let gives (f : Slot → Slot) : Prop := exec (.mtc c d i) s = .next (s1.setSlot s.cur (f (s1.slot s.cur)));
      let illegal3 : Prop := exec (.mtc c d i) s = .next (s.takeFault s.cur t.pc 4
        { cls := 0x01, cause := 3, addr := x, aux := d.setWidth 32 });
      (i = 0x008 → (x.toNat % 8 ≥ 5 → illegal3) ∧
        (x.toNat % 8 < 5 → gives fun u => { u with round := BitVec.ofNat 64 (x.toNat % 8) })) ∧
      (i = 0x009 → (x.toNat % 8 = 0 → illegal3) ∧
        (x.toNat % 8 ≠ 0 → gives fun u => { u with b8fmt := BitVec.ofNat 64 (x.toNat % 64) })) ∧
      (i = 0x00A → gives fun u => { u with check := BitVec.ofNat 64 (x.toNat % 2) }) ∧
      (i = 0x00B → gives fun u => { u with wlimit := x }) ∧
      (i = 0x00D → gives fun u => { u with fflags := BitVec.ofNat 5 x.toNat }) ∧
      (i = 0x012 → gives fun u =>
        { u with seed := BitVec.ofNat 64 (x.toNat % 2 ^ 32), gens := seedGens (BitVec.ofNat 32 x.toNat) }) ∧
      (i = 0x013 → gives fun u => { u with wdog := x }) ∧
      (i ∉ [0x008, 0x009, 0x00A, 0x00B, 0x00D, 0x012, 0x013] → gives fun u => u)) ∧
    (Executes s c false (rX a) noRegs (guardOn · c) = true →
      let x := readX t a;
      let s1 := s.issued c 4 [];
      let gs := (List.range 16).filter fun g => x.getLsbD g;
      exec (.wdog c a) s = .next (s1.modSlot s.cur fun u => { u with wdog := x }) ∧
      (gs ≠ [] → (∀ g ∈ gs, g ∈ s1.haltsOf s.cur.coreRef) → x.toNat < 2 ^ 16 →
        exec (.dstop c a) s = .next (s1.haltGroups (s1.physDie s.cur.ctx s.cur.die) gs)) ∧
      (gs = [] ∨ (∃ g ∈ gs, g ∉ s1.haltsOf s.cur.coreRef) →
        exec (.dstop c a) s = .next (s.takeFault s.cur t.pc 4 { cls := 0x01, cause := 3, addr := x, aux := a.setWidth 32 })))

/-- 13 R277, R278; 04 R98, R99; 05 R111, R112 for the order of sight. That the increment is readable after one cycle is
log 69's, the time at which a load is performed log 9's, what an aperture load close behind another access of its
register sees log 87's and log 96's. A fence that comes first is FencesOrderMemory's. -/
def Obligations.LoadsReadTheirBytes : Prop :=
  (∀ (s : State) (c : Ctl) (d a : Spec) (z : BitVec 2) (ks : List Nat),
    let r := s.cur;
    let t := s.slot r;
    let n := 2 ^ z.toNat;
    let window (s1 : State) (ea off : Nat) (tg : Option (Reg × Nat)) : Prop := acquiring t = false ∧
      s1.access r ea n n .read = .aperture off ∧ apTarget t off n = some tg ∧ apBusy t tg = false;
    (∀ (o : Ord) (sc : Scope) (p : Bool), let ea := (readX t a).toNat;
      let acq := if o = .acq ∨ o = .acqrel then some sc else none;
      let s1 := s.issued c 4 (xReg t d :: if p then [xReg t a] else []);
      let s2 := if p = true ∧ xReg t d ≠ xReg t a then s1.later r 1 [writeX t a (BitVec.ofNat 64 (ea + n))] else s1;
      Executes s c false (rX a) (fun t => xReg t d :: if p then [xReg t a] else []) (guardOn · c) = true →
      Unfenced s (.ld c d a o sc z p) = true →
      (Resolves s1 r t ea n n .read ks = true → Readable s1 r ea ks = true →
        exec (.ld c d a o sc z p) s = .next (s2.fly r (.load (xReg t d) [⟨0, ks, ea⟩] 0 false acq))) ∧
      ∀ off tg, window s1 ea off tg →
        let w := writeX t d (BitVec.ofNat 64 (leNat (apRead t tg n)));
        exec (.ld c d a o sc z p) s = .next (s2.fly r (match acq with
          | none => .value [w]
          | some sc => .acquired [w] sc))) ∧
    ∀ f : BitVec 7, let ea := (readX t a + BitVec.ofInt 64 (f.toInt * n)).toNat;
      let s1 := s.issued c 4 [xReg t d];
      Executes s c false (rX a) (rX d) (guardOn · c) = true → Unfenced s (.ldo c d a z f) = true →
      (Resolves s1 r t ea n n .read ks = true → Readable s1 r ea ks = true →
        exec (.ldo c d a z f) s = .next (s1.fly r (.load (xReg t d) [⟨0, ks, ea⟩] 0 false none))) ∧
      ∀ off tg, window s1 ea off tg →
        exec (.ldo c d a z f) s = .next (s1.fly r (.value [writeX t d (BitVec.ofNat 64 (leNat (apRead t tg n)))]))) ∧
  (∀ (t : Slot) (d : Spec) (q : QuadRef) (u : State) (ea : Nat) (ks : List Nat),
    u.loadWrites q (xReg t d) [⟨0, ks, ea⟩] 0 false = [writeX t d (BitVec.ofNat 64 (leNat (u.seeBytes q ea ks)))] ∧
    (∀ i < ks.length, (u.seeBytes q ea ks)[i]? = (ks[i]?).map (u.seeByte q (ea + i))) ∧
    ∀ va k : Nat, u.seeByte q va k = match forwarded (u.quad q) k with
      | some b => b
      | none => match cached (u.quad q) va k with
        | some b => b
        | none => memGet k u.mem) ∧
  ∀ (t : Slot) (off n : Nat) (x : Reg) (i : Nat),
    (off % n = 0 →
      (off < 0x100 → n ≤ 8 → apTarget t off n = some (some (xReg t (BitVec.ofNat 5 (off / 8)), off % 8))) ∧
      (0x100 ≤ off → off < 0x120 → n ≤ 4 → apTarget t off n = some (some (.p (BitVec.ofNat 3 ((off - 0x100) / 4)), off % 4))) ∧
      (0x120 ≤ off → off < 0x1000 → apTarget t off n = some none) ∧
      (0x1000 ≤ off → apTarget t off n = some (some (.v (BitVec.ofNat 5 ((off - 0x1000) / 128)), off % 128)))) ∧
    apRead t none n = List.replicate n 0 ∧ apRead t (some (x, i)) n = ((apBytes t x).drop i).take n ∧
    ((∀ m ∈ t.recent, m.2.reg = x → m.1 + 3 < t.issued) → apBytes t x = (snapReg t x).bytes) ∧
    ∀ m, (t.recent.find? fun m => m.2.reg == x && decide (t.issued ≤ m.1 + 3)) = some m → apBytes t x = m.2.bytes

/-- 13 R277 to R280; 04 R98, R99. That the increment is readable after one cycle is log 69's, the time at which a store is
performed log 9's, how an aperture store stands beside other accesses of its register log 87's and log 96's. A fence
that comes first is FencesOrderMemory's. -/
def Obligations.StoresWriteTheirBytes : Prop :=
  ∀ (s : State) (c : Ctl) (d a b : Spec) (z : BitVec 2),
    let r := s.cur;
    let t := s.slot r;
    let rel (o : Ord) (sc : Scope) (s1 : State) : State := if o = .rel ∨ o = .acqrel then s1.release r sc else s1;
    let may (o : Ord) (sc : Scope) (s1 : State) : Prop := (o = .rel ∨ o = .acqrel) → s1.mayRelease r sc = true;
    let inc (p : Bool) (n : Nat) (s1 : State) : State :=
      if p = true then s1.later r 1 [writeX t a (BitVec.ofNat 64 ((readX t a).toNat + n))] else s1;
    let window (s1 : State) (ea n off : Nat) (tg : Option (Reg × Nat)) : Prop := acquiring t = false ∧
      s1.access r ea n n .write = .aperture off ∧ apTarget t off n = some tg ∧ apBusy t tg = false;
    let aps (tg : Option (Reg × Nat)) (l : List (Nat × List Byte)) (s1 : State) : State := s1.modSlot r fun u => match tg with
      | none => u
      | some x => { u with aperture := u.aperture ++ l.map fun p => { reg := x.1, off := x.2 + p.1, bytes := p.2, after := 3 } };
    (let n := 2 ^ z.toNat;
      let bs := leBytes n (readX t d).toNat;
      (∀ (o : Ord) (sc : Scope) (p : Bool), let ea := (readX t a).toNat;
        let s1 := s.issued c 4 (if p then [xReg t a] else []);
        Executes s c false (rXX d a) (fun t => if p then [xReg t a] else []) (guardOn · c) = true →
        Unfenced s (.st c d a o sc z p) = true → may o sc s1 →
        (∀ ks : List Nat, Resolves s1 r t ea n n .write ks = true → Writable s1 r ea (addrsFrom ea n) (ks.zip bs) = true →
          exec (.st c d a o sc z p) s = .next (inc p n ((rel o sc s1).put r (ks.zip bs)))) ∧
        ∀ off tg, window s1 ea n off tg → exec (.st c d a o sc z p) s = .next (inc p n (aps tg [(0, bs)] (rel o sc s1)))) ∧
      ∀ (f : BitVec 7), let ea := (readX t a + BitVec.ofInt 64 (f.toInt * n)).toNat;
        let s1 := s.issued c 4 [];
        Executes s c false (rXX d a) noRegs (guardOn · c) = true → Unfenced s (.sto c d a z f) = true →
        (∀ ks : List Nat, Resolves s1 r t ea n n .write ks = true → Writable s1 r ea (addrsFrom ea n) (ks.zip bs) = true →
          exec (.sto c d a z f) s = .next (s1.put r (ks.zip bs))) ∧
        ∀ off tg, window s1 ea n off tg → exec (.sto c d a z f) s = .next (aps tg [(0, bs)] s1)) ∧
    (let n := if z = 0 then 128 else if z = 1 then 64 else if z = 2 then 32 else 4;
      let lanes := (List.range (n / 4)).filter (laneOn t c);
      ∀ (o : Ord) (sc : Scope) (p : Bool), let ea := (readX t a).toNat;
        let s1 := s.issued c 4 (if p then [xReg t a] else []);
        Executes s c false (fun t => [.v d, xReg t a]) (fun t => if p then [xReg t a] else []) (anyMoved c (n / 4)) = true →
        Unfenced s (.vst c d a o sc z p) = true → may o sc s1 →
        (∀ ks : List Nat, let ps := lanes.flatMap fun i => (ks.drop (4 * i)).zip (leBytes 4 (lane (readV t d) i).toNat);
          Resolves s1 r t ea n n .write ks = true → Writable s1 r ea (lanes.flatMap fun i => addrsFrom (ea + 4 * i) 4) ps = true →
          exec (.vst c d a o sc z p) s = .next (inc p n ((rel o sc s1).put r ps))) ∧
        ∀ off tg, window s1 ea n off tg → exec (.vst c d a o sc z p) s =
          .next (inc p n (aps tg (lanes.map fun i => (4 * i, leBytes 4 (lane (readV t d) i).toNat)) (rel o sc s1)))) ∧
    ∀ (e : XSize) (l : List (Nat × List Nat)), let s1 := s.issued c 4 [];
      let n := XSize.bytes e;
      let ea (i : Nat) : Nat := (readX t a + BitVec.ofNat 64 ((lane (readV t b) i).toNat * n)).toNat;
      let ps := l.flatMap fun p => p.2.zip (leBytes n (lane (readV t d) p.1).toNat);
      Executes s c false (fun t => [xReg t a, .v b, .v d]) noRegs (anyMoved c 32) = true → acquiring t = false →
      Unfenced s (.vstx c d a b e) = true →
      (l.map Prod.fst = (List.range 32).filter (laneOn t c) → (∀ p ∈ l, s1.access r (ea p.1) n n .write = .keys p.2) →
        barred t r (l.flatMap Prod.snd) = false → (∀ p ∈ l, s1.farWaits t (p.2.getD 0 0) = false) →
        lanesPoison s1 ea l (fun g => s1.hot r g && !coversGranule (ps.map Prod.fst) g) = none →
        s1.markWait r (l.flatMap fun p => addrsFrom (ea p.1) n) = none → s1.sbRoom r ps = true →
        exec (.vstx c d a b e) s = .next (s1.put r ps)) ∧
      ∀ i rest, (List.range 32).filter (laneOn t c) = i :: rest → 0x30000 ≤ ea i → ea i < 0x32000 →
        exec (.vstx c d a b e) s = .next (s.takeFault r t.pc 4
          { cls := 0x01, cause := 3, addr := BitVec.ofNat 64 (ea i), aux := a.setWidth 32 })

/-- 13 R279, R280; 04 R98, R99. That the increment is readable after one cycle is log 69's, the time at which a load is
performed log 9's, what an aperture load close behind another access of its register sees log 87's and log 96's. -/
def Obligations.VectorLoadsReadTheirLanes : Prop :=
  (∀ (s : State) (c : Ctl) (d a b : Spec) (z : BitVec 2),
    let r := s.cur;
    let t := s.slot r;
    (let n := if z = 0 then 128 else if z = 1 then 64 else if z = 2 then 32 else 4;
      let lanes := (List.range (if z = 3 then 32 else n / 4)).filter (laneOn t c);
      ∀ (o : Ord) (sc : Scope) (p : Bool), let ea := (readX t a).toNat;
        let ws := .v d :: (if p then [xReg t a] else []);
        let s1 := s.issued c 4 ws;
        let acq := if o = .acq ∨ o = .acqrel then some sc else none;
        let s2 := if p = true then s1.later r 1 [writeX t a (BitVec.ofNat 64 (ea + n))] else s1;
        Executes s c false (rX a) (fun t => .v d :: (if p then [xReg t a] else [])) (anyMoved c (if z = 3 then 32 else n / 4)) = true →
        Unfenced s (.vld c d a o sc z p) = true →
        (∀ ks : List Nat,
          let parts : List LoadPart :=
            if z = 3 then [⟨0, ks, ea⟩] else lanes.map fun i => ⟨i, (ks.drop (4 * i)).take 4, ea + 4 * i⟩;
          Resolves s1 r t ea n n .read ks = true →
          poisonTrap s1 ea ks (fun g => s1.hot r g && (parts.flatMap LoadPart.keys).any fun k => granuleOf k == g) = none →
          s1.markWait r (parts.flatMap fun q => addrsFrom q.va 4) = none →
          exec (.vld c d a o sc z p) s = .next (s2.fly r (.load (.v d) parts (maskOf lanes) (z == 3) acq))) ∧
        ∀ off tg, acquiring t = false → s1.access r ea n n .read = .aperture off → apTarget t off n = some tg → apBusy t tg = false →
          let w := RegWrite.v d
            (ofLanes fun i => BitVec.ofNat 32 (leNat (((apRead t tg n).drop (if z = 3 then 0 else 4 * i)).take 4))) (maskOf lanes);
          exec (.vld c d a o sc z p) s = .next (s2.fly r (match acq with
            | none => .value [w]
            | some sc => .acquired [w] sc))) ∧
    ∀ (e : XSize) (l : List (Nat × List Nat)), let s1 := s.issued c 4 [.v d];
      let n := XSize.bytes e;
      let ea (i : Nat) : Nat := (readX t a + BitVec.ofNat 64 ((lane (readV t b) i).toNat * n)).toNat;
      Executes s c false (fun t => [xReg t a, .v b]) (fun _ => [.v d]) (anyMoved c 32) = true → acquiring t = false →
      Unfenced s (.vldx c d a b e) = true →
      (l.map Prod.fst = (List.range 32).filter (laneOn t c) → (∀ p ∈ l, s1.access r (ea p.1) n n .read = .keys p.2) →
        barred t r (l.flatMap Prod.snd) = false → (∀ p ∈ l, s1.farWaits t (p.2.getD 0 0) = false) →
        lanesPoison s1 ea l (s1.hot r) = none →
        s1.markWait r (l.flatMap fun p => addrsFrom (ea p.1) n) = none →
        exec (.vldx c d a b e) s =
          .next (s1.fly r (.load (.v d) (l.map fun p => ⟨p.1, p.2, ea p.1⟩) (maskOf (l.map Prod.fst)) false none))) ∧
      ∀ i rest, (List.range 32).filter (laneOn t c) = i :: rest → 0x30000 ≤ ea i → ea i < 0x32000 →
        exec (.vldx c d a b e) s = .next (s.takeFault r t.pc 4
          { cls := 0x01, cause := 3, addr := BitVec.ofNat 64 (ea i), aux := a.setWidth 32 })) ∧
  ∀ (u : State) (t : Slot) (q : QuadRef) (d : Spec) (parts : List LoadPart) (ls : List Nat) (i : Nat), i < 32 →
    (parts.Pairwise (fun p q => p.lane ≠ q.lane) → ∀ w ∈ u.loadWrites q (.v d) parts (maskOf ls) false,
      (i ∉ ls → lane (readV (applyWrite t w) d) i = lane (readV t d) i) ∧
      ∀ p ∈ parts, p.lane = i → i ∈ ls →
        lane (readV (applyWrite t w) d) i = BitVec.ofNat 32 (leNat (u.seeBytes q p.va p.keys))) ∧
    ∀ (ks : List Nat) (ea : Nat), ∀ w ∈ u.loadWrites q (.v d) [⟨0, ks, ea⟩] (maskOf ls) true,
      (i ∉ ls → lane (readV (applyWrite t w) d) i = lane (readV t d) i) ∧
      (i ∈ ls → lane (readV (applyWrite t w) d) i = BitVec.ofNat 32 (leNat (u.seeBytes q ea ks)))

/-- 05 R106, R107, R109, R115, R116: every range of the map and every gap between them. -/
def Obligations.AlignmentAndTheMap : Prop :=
  ∀ (s : State) (r : SlotRef) (a n : Nat) (x : Access), r.core ≠ supCore →
    let acc := s.access r a n n x;
    let bytes (key : Nat → Nat) : Acc := if a % n = 0 then .keys ((List.range n).map key) else .fault (misaligned 1 a n);
    let outside : Acc := .fault { cls := 0x01, cause := 4, addr := BitVec.ofNat 64 a };
    let none_ : Prop := acc = if a % n = 0 then .fault (transFault 1 a 0 x) else .fault (misaligned 1 a n);
    (a < 0x8000 → acc = bytes fun i => localKey r a + i) ∧
    (0x8000 ≤ a → a < 0x10000 → none_) ∧
    (0x10000 ≤ a → a < 0x30000 → acc = bytes fun i => sharedKey r.coreRef (a - 0x10000) + i) ∧
    (0x30000 ≤ a → a < 0x32000 → acc = if a % n = 0 then .aperture (a - 0x30000) else .fault (misaligned 2 a n)) ∧
    (0x32000 ≤ a → a < 0x1000000 → none_) ∧
    (0x1000000 ≤ a → a < 0x2000000 → acc = bytes fun i => vaultKey r.quadRef (a - 0x1000000) + i) ∧
    (0x2000000 ≤ a → a < 0x2080000 → acc = bytes fun i => let o := a - 0x2000000 + i;
      sharedKey ⟨r.ctx, r.die, coreAt (quadOf r.core) (o / 4 % 4)⟩ (4 * (o / 16) + o % 4)) ∧
    (0x2080000 ≤ a → a < 2 ^ 32 → none_) ∧
    (2 ^ 32 ≤ a → a < 2 ^ 33 → let d := a / 2 ^ 30 % 4; let q := a / 2 ^ 24 % 64;
      acc = if (s.shapeOf r.ctx).hasQuad d q then bytes fun i => vaultKey ⟨r.ctx, d, q⟩ (a % 2 ^ 24) + i else outside) ∧
    (2 ^ 33 ≤ a → a < 2 ^ 33 + 2 ^ 27 → let d := a / 2 ^ 25 % 4; let k := a / 2 ^ 17 % 256;
      acc = if (s.shapeOf r.ctx).hasCore d k then bytes fun i => sharedKey ⟨r.ctx, d, k⟩ (a % 2 ^ 17) + i else outside) ∧
    (2 ^ 33 + 2 ^ 27 ≤ a → a < 2 ^ 44 → none_) ∧
    (2 ^ 44 ≤ a → a < 2 ^ 52 →
      (a % n ≠ 0 → acc = .fault (misaligned 1 a n)) ∧
      (a % n = 0 → s.tlbOf r.quadRef a = none → acc = .walk a x) ∧
      ∀ e, a % n = 0 → s.tlbOf r.quadRef a = some e → permits e.pte x = false → acc = .fault (transFault 2 a (bitsLevel e.bits) x)) ∧
    (2 ^ 52 ≤ a → none_)

/-- 13 R281, R282; 05 R125. That the time at which an access of an ldf reaches its home is a choice of the moves, and that
an operation of another kind gets there before its result lands, are log 9's; that a waiting ldf steps at the fill
itself log 70's. -/
def Obligations.FullEmptyOperations : Prop :=
  (∀ (s : State) (c : Ctl) (d a b : Spec) (ks : List Nat),
    let r := s.cur;
    let t := s.slot r;
    let ea := (readX t a).toNat;
    let k := ks.getD 0 0;
    let word (s1 : State) (x : Access) : Prop :=
      Resolves s1 r t ea 4 4 x ks = true ∧ s1.carriesFull r ea k = true ∧ s1.noFull r ea = false;
    (let s1 := s.issued c 4 [];
      Executes s c false (rX a) noRegs (guardOn · c) = true → word s1 .atomic →
      (Unfenced s (.fset c a) = true → exec (.fset c a) s = .next (s1.fly r (.fe .fset k))) ∧
      (Unfenced s (.fclr c a) = true → exec (.fclr c a) s = .next (s1.fly r (.fe .fclr k)))) ∧
    (let s1 := s.issued c 4 [];
      Executes s c false (rXX a b) noRegs (guardOn · c) = true → word s1 .atomic → poisonTrap s1 ea ks (s1.hot r) = none →
      Unfenced s (.stf c a b) = true →
      exec (.stf c a b) s = .next (s1.fly r (.fe (.stf (BitVec.ofNat 32 (readX t b).toNat)) k))) ∧
    (let s1 := s.issued c 4 [xReg t d];
      Executes s c false (rX a) (rX d) (guardOn · c) = true → word s1 .read → Unfenced s (.fprobe c d a) = true →
      exec (.fprobe c d a) s = .next (s1.fly r (.fe (.fprobe (xReg t d)) k))) ∧
    ∀ (o : Ord) (sc : Scope) (z : BitVec 1) (take : Bool), let s1 := s.issued c 4 [xReg t d];
      let n := if z = 1 then 8 else 4;
      let words := if z = 1 then [k, k + 4] else [k];
      Executes s c false (rXX d a) (rX d) (guardOn · c) = true →
      Resolves s1 r t ea n n (if take then .atomic else .read) ks = true → (∀ k ∈ words, s1.carriesFull r ea k = true) →
      s1.noFull r ea = false → (z = 1 → s1.noFull r (ea + 4) = false) → Unfenced s (.ldf c d a o sc z take) = true →
      ((∀ k ∈ words, s1.isFull k = true) → s.far = false → poisonTrap s1 ea ks (s1.hot r) = none →
        exec (.ldf c d a o sc z take) s = .next (s1.ldfStep r (xReg t d) k z take (if o = .acq ∨ o = .acqrel then some sc else none))) ∧
      ((∃ k ∈ words, s1.isFull k = false) ∨ (s.far = true ∧ t.wait = none) → ∃ w : WaitInfo, w.cause = 7 ∧ w.key = k ∧
        exec (.ldf c d a o sc z take) s = .next (s.startWait r (.ldf c d a o sc z take) 4 (readX t d) w))) ∧
  ∀ (u : State) (r : SlotRef) (x : Reg) (k : Nat) (b : Bool),
    let home : State := u.drainLines r.quadRef [lineOf k];
    let word (n : Nat) : List RegWrite := [regOf x (leBytes x.size n)];
    u.homeOp r (.fe .fset k) = some (.value [], home.fill k) ∧
    u.homeOp r (.fe .fclr k) = some (.value [], home.setFull k false) ∧
    (∀ y : W32, u.homeOp r (.fe (.stf y) k) = some (.value [], (home.storeLE k 4 y.toNat).fill k)) ∧
    u.homeOp r (.fe (.fprobe x) k) = some (.value (word (if home.isFull k then 1 else 0)), home) ∧
    (∀ (w : Wait) (c : Ctl) (d a : Spec) (o : Ord) (sc : Scope) (z : BitVec 1) (take : Bool),
      (u.slot r).wait = some w → w.instr = .ldf c d a o sc z take → u.mayGoOn r = true →
      let j := w.info.key;
      (∀ i ∈ (if z = 1 then [j, j + 4] else [j]), u.isFull i = true) → poisoned u (keysFrom j (if z = 1 then 8 else 4)) = none →
      let d := xReg (u.slot r) d;
      u.serveLdf r = (u.setSlot r (retire (noteRecent { u.slot r with wait := none } [d]) u.now c.w w.len)).ldfStep r d j z take
        (if o = .acq ∨ o = .acqrel then some sc else none)) ∧
    u.fill k = (u.ldfWaiters k).foldl (fun u r => u.serveLdf r) (u.setFull k true) ∧ (u.setFull k true).isFull k = true ∧
    (∀ (z : BitVec 1) (take : Bool) (acq : Option Scope),
      let n := if z = 1 then 8 else 4;
      let words := if z = 1 then [k, k + 4] else [k];
      let lines := (keysFrom k n).map lineOf;
      let u2 := (u.sampleLines r lines).drainLines r.quadRef lines;
      let w := [regOf x (leBytes x.size (leNat ((keysFrom k n).map fun k => memGet k u2.mem)))];
      u.ldfStep r x k z take acq = (if take then words.foldl (fun s k => s.setFull k false) u2 else u2).fly r (match acq with
        | some sc => .acquired w sc
        | none => .value w)) ∧
    u.makeMove (.far b) = .next { u with far := b }

/-- 13 R283; 08 R181 for a word of another package, whose words are as log 42 has them. When an atomic is executed is log
9's. A fence that comes first is FencesOrderMemory's. -/
def Obligations.AtomicsExecuteAtTheHome : Prop :=
  (∀ (s : State) (c : Ctl) (d a : Spec) (f : Aop) (o : Ord) (sc : Scope) (ks : List Nat),
    Executes s c false (if f = .cas then rXXX a d (d + 1) else rXX a d) (rX d) (guardOn · c) = true →
    Unfenced s (.amo c d a f o sc) = true →
    let r := s.cur;
    let t := s.slot r;
    let ea := (readX t a).toNat;
    let k := ks.getD 0 0;
    let s1 := s.issued c 4 [xReg t d];
    let x : W32 := BitVec.ofNat 32 (readX t d).toNat;
    let y : W32 := BitVec.ofNat 32 (readX t (d + 1)).toNat;
    let acq := if o = .acq ∨ o = .acqrel then some sc else none;
    Resolves s1 r t ea 4 4 .atomic ks = true → poisonTrap s1 ea ks (s1.hot r) = none →
    ((o = .rel ∨ o = .acqrel) → s1.mayRelease r sc = true) →
    (keyKind k ≠ 6 → exec (.amo c d a f o sc) s =
      .next ((if o = .rel ∨ o = .acqrel then s1.release r sc else s1).fly r (.atomic (xReg t d) ks f x y acq))) ∧
    (keyKind k = 6 → (s1.linkUp = true ∨ ∀ e ∈ (s1.quad r.quadRef).sb, e.line ≠ lineOf k) →
      ∃ u : State, exec (.amo c d a f o sc) s = .next u ∧
        (u.peer (keyUnit k)).next = (s.peer (keyUnit k)).next + 1 ∧
        .remote (xReg t d) (keyUnit k) (s.peer (keyUnit k)).next.toNat acq ∈ (u.slot r).flights ∧
        busy (u.slot r) (xReg t d) = true)) ∧
  ∀ (u : State) (r : SlotRef) (ks : List Nat) (f : Aop) (x y : W32),
    let v := u.drainLines r.quadRef (ks.map lineOf);
    let old : W32 := BitVec.ofNat 32 (leNat (ks.map fun k => memGet k v.mem));
    let new : W32 := match f with
      | .add => old + x
      | .and => old &&& x
      | .or => old ||| x
      | .xor => old ^^^ x
      | .min => BitVec.ofInt 32 (min old.toInt x.toInt)
      | .max => BitVec.ofInt 32 (max old.toInt x.toInt)
      | .minu => BitVec.ofNat 32 (min old.toNat x.toNat)
      | .maxu => BitVec.ofNat 32 (max old.toNat x.toNat)
      | .swap => x
      | .cas => if old = x then y else old
      | .fadd => rAdd old x
      | .fmax => maxNan old x;
    u.atomicStep r ks f x y = (old, v.store (ks.zip (leBytes 4 new.toNat)))

/-- 09 R187 to R189; 13 R284; 21 R379. That what a fence before them asks for is performed with the next instruction it
orders is the model's choice (log 86); whether a store to another package waits for its link log 89's; that the stores
a task releases are those it has acquired too log 102's. -/
def Obligations.FencesOrderMemory : Prop :=
  ∀ s : State,
    let r := s.cur;
    let t := s.slot r;
    (∀ (c : Ctl) (o : Ord) (sc : Scope), Executes s c false noRegs noRegs (guardOn · c) = true →
      let s1 := s.issued c 4 [];
      let rel : Prop := o = .rel ∨ o = .acqrel;
      let acq : Prop := o = .acq ∨ o = .acqrel;
      let goes : Prop := acquiring t = false ∧ linkTrap s1 r sc = none ∧ s1.linksHold r sc = false;
      let noted (x : Option Scope) : Scope := match x with
        | none => sc
        | some y => if sc.bits.toNat < y.bits.toNat then y else sc;
      let got (u : State) : State := if o = .acq ∨ o = .acqrel then u.acquire r sc else u;
      let far (u : State) : State := if sc.atLeast 2 then u.drainIf r farEnt else u;
      ((rel → goes) → (acq → quiet t = true) →
        let u := if o = .acq ∨ o = .acqrel then s1.sampleAll r else s1;
        exec (.fence c o sc) s = .next (got (if o = .rel ∨ o = .acqrel then (far u).modSlot r fun v =>
          { v with fence := some (noted v.fence), fenceAll := v.fenceAll || o == .acqrel } else u))) ∧
      (acq → quiet t = false → ∃ u, exec (.fence c o sc) s = .next u ∧ u.slot r = t ∧ u.mem = s.mem) ∧
      (rel → acquiring t = true → ∃ u, exec (.fenceE c o sc) s = .next u ∧ u.slot r = t ∧ u.mem = s.mem) ∧
      ((rel → goes) → exec (.fenceE c o sc) s = .next (got (if o = .rel ∨ o = .acqrel then (far s1).modSlot r fun v =>
          { v with fenceE := some (noted v.fenceE) } else s1))) ∧
      (goes → quiet t = true → exec (.fenceI c sc) s =
        .next (((s1.release r sc).drainQuad r.quadRef).modCore r.coreRef fun k => { k with fetched := [] })) ∧
      (quiet t = true → exec (.fenceT c o sc) s = .next (got ((s1.release r sc).drain r))) ∧
      ∀ tr, linkTrap s1 r sc = some tr → acquiring t = false → tr.cls = 0x07 ∧ tr.cause = 12 ∧
        (rel → (acq → quiet t = true) → exec (.fence c o sc) s = .next (s.takeFault r t.pc 4 tr)) ∧
        (rel → exec (.fenceE c o sc) s = .next (s.takeFault r t.pc 4 tr)) ∧ exec (.fenceI c sc) s = .next (s.takeFault r t.pc 4 tr)) ∧
    (∀ (i : Instr) (f : Form), formOf i = some f → t.fenced (touches i) = true → f.runs s = true →
      (quiet t = false → exec i s = .next s) ∧
      (∃ sc, (t.fence = some sc ∨ t.fenceE = some sc) ∧ s.met i = s.release r sc) ∧
      (quiet t = true → f.runs (s.met i) = true → exec i s = exec i (s.met i))) ∧
    (∀ x : Bool × Bool × Bool, t.fenced x =
      ((t.fence.isSome && (x.2.1 || (x.1 && t.fenceAll))) || (t.fenceE.isSome && x.2.2))) ∧
    (∀ sc : Scope, let u := s.release r sc;
      (u.slot r).fence = none ∧ (u.slot r).fenceAll = false ∧ (u.slot r).fenceE = none ∧
      (∀ f ∈ (u.slot r).flights, f.lines = []) ∧
      (sc.atLeast 3 = true → (∀ e ∈ (s.quad r.quadRef).sb, s.canLeave e = true) → ∀ e ∈ (u.quad r.quadRef).sb, e.mine r = false)) ∧
    ∀ (c : Ctl) (d a b : Spec) (o : Ord) (sc : Scope) (z : BitVec 2) (p : Bool) (f : Aop) (j : BitVec 19),
      touches (.vld c d a o sc z p) = (true, false, false) ∧ touches (.vst c d a o sc z p) = (false, true, false) ∧
      touches (.amo c d a f o sc) = (true, true, false) ∧ touches (.call c j) = (false, true, false) ∧
      touches (.callr c a) = (false, true, false) ∧ touches (.ret c) = (true, false, false) ∧
      touches (.racq c d a b) = (true, true, false) ∧ touches (.rpub c p a b) = (true, true, false) ∧
      touches (.rtake c d a b) = (true, true, false) ∧ touches (.rrel c a b) = (true, true, false) ∧
      touches (.jpost c a b) = (true, false, true) ∧ touches (.gfork c d a b) = (true, false, false) ∧
      touches (.sread c a b) = (true, false, true) ∧ touches (.swrite c a b) = (true, false, true) ∧
      touches (.sflush c a b) = (true, false, true) ∧ touches (.cadv c a b) = (false, false, true) ∧
      touches (.qdef c a b) = (true, false, false) ∧ touches (.fdrop c a b) = (false, true, false)

/-- 13 R277 to R280: the bytes stored are those at the form's own address function. A release may bring other bytes home,
which changes no newest value; the order in which bridges hold a line is the model's (log 68). -/
def Obligations.StoreFrame : Prop :=
  ∀ (s u : State) (c : Ctl) (d a b : Spec) (o : Ord) (sc : Scope) (z : BitVec 2) (p : Bool) (f : BitVec 7) (e : XSize),
    let r := s.cur;
    let t := s.slot r;
    let v := u.slot r;
    let bridges : Prop := ∀ x ∈ s.quads, x.1 / 128 = dieKey r.ctx r.die → ∀ y ∈ x.2.sb, y.out = false;
    let outside (i : Instr) (rel : Option Scope) (inc : Bool) (stored : State → List Nat) : Prop :=
      exec i s = .next u → frozenAt r u = false → Unfenced s i = true →
      let s1 := s.issued c 4 (if inc then [xReg t a] else []);
      let ks := stored s1;
      let lines := ks.map lineOf;
      let own := (ks.filter (ownLocal r)).map lineOf;
      let base := ((match rel with
        | some sc => s1.release r sc
        | none => s1).sampleLines r lines).drainLines r.quadRef own;
      ((u.mem = s.mem ∧ u.quads = s.quads ∧ v.pend = t.pend ∧ v.flights = t.flights ∧ (v.pc = t.pc ∨ v.issued = t.issued + 1)) ∨
        ((∀ k, k ∉ ks → u.newest r.quadRef k = base.newest r.quadRef k) ∧
          (bridges → ∀ k, k ∉ ks → u.newest r.quadRef k = s.newest r.quadRef k) ∧
          v.g = (ageAperture t).g ∧ v.ring = (ageAperture t).ring ∧ v.v = (ageAperture t).v ∧ v.p = (ageAperture t).p ∧
          v.pc = (advance t 4).pc ∧ (∀ q ∈ t.pend, q ∈ v.pend) ∧
          (∀ q ∈ v.pend, q ∈ t.pend ∨ (inc = true ∧ q.w.reg = xReg t a)) ∧ ∀ x, busy v x = true → busy t x = true)) ∧
      v.fflags = t.fflags ∧ v.mc = t.mc ∧ v.depth = t.depth ∧ v.rsp = t.rsp ∧ v.check = t.check ∧ v.wdog = t.wdog ∧ v.time = t.time ∧
      u.full = s.full ∧ u.ctxs = s.ctxs ∧ u.parts = s.parts ∧ u.boxes = s.boxes ∧ u.dies = s.dies ∧ u.pdies = s.pdies ∧
      u.regs = s.regs ∧ u.cores = s.cores ∧ (∀ q, slotKey q ≠ slotKey r → u.slot q = s.slot q);
    let keys (x : State) (ea n : Nat) : List Nat := match x.access r ea n n .write with
      | .keys ks => ks
      | _ => [];
    s.Inv → r.core ≠ supCore →
    outside (.st c d a o sc z p) (relOf o sc) p (fun x => keys x (addrM t a) (szBytes z)) ∧
    outside (.sto c d a z f) none false (fun x => keys x (addrO t a z f) (szBytes z)) ∧
    outside (.vst c d a o sc z p) (relOf o sc) p (fun x =>
      (movedLanes t c (vLanes z)).flatMap fun i => ((keys x (addrM t a) (vUnit z)).drop (4 * i)).take 4) ∧
    outside (.vstx c d a b e) none false (fun x =>
      (movedLanes t c 32).flatMap fun i => keys x (addrX t a b e i) (XSize.bytes e))

/-- 13 R277 to R280. A load of a supervisor core from the control space is included: it changes nothing. -/
def Obligations.LoadFrame : Prop :=
  ∀ (s u : State) (c : Ctl) (d a b : Spec) (o : Ord) (sc : Scope) (z : BitVec 2) (p : Bool) (f : BitVec 7) (e : XSize),
    let r := s.cur;
    let t := s.slot r;
    let v := u.slot r;
    let keeps (i : Instr) (ws : List Reg) : Prop := exec i s = .next u → frozenAt r u = false → Unfenced s i = true →
      (∃ w, u = { s.setSlot r w with ids := u.ids } ∨ u = s) ∧
      v.fflags = t.fflags ∧ v.mc = t.mc ∧ v.depth = t.depth ∧ v.rsp = t.rsp ∧ v.check = t.check ∧ v.wdog = t.wdog ∧ v.time = t.time ∧
      v.gens = t.gens ∧
      ((v.g = t.g ∧ v.ring = t.ring ∧ v.v = t.v ∧ v.p = t.p ∧ v.pc = t.pc ∧ v.pend = t.pend ∧ v.flights = t.flights) ∨
        (v.g = (ageAperture t).g ∧ v.ring = (ageAperture t).ring ∧ v.v = (ageAperture t).v ∧ v.p = (ageAperture t).p ∧
          v.pc = (advance t 4).pc ∧ (∀ q ∈ t.pend, q ∈ v.pend) ∧ (∀ q ∈ v.pend, q ∈ t.pend ∨ q.w.reg ∈ ws) ∧
          (∀ g ∈ t.flights, g ∈ v.flights) ∧ ∀ g ∈ v.flights, g ∈ t.flights ∨ ∀ x ∈ g.regs, x ∈ ws));
    let dests (x : Reg) : List Reg := x :: if p then [xReg t a] else [];
    keeps (.ld c d a o sc z p) (dests (xReg t d)) ∧ keeps (.ldo c d a z f) [xReg t d] ∧
    keeps (.vld c d a o sc z p) (dests (.v d)) ∧ keeps (.vldx c d a b e) [.v d]

/-- 14 R298; VectorLanesKeepTheirBits says what the mask means when the result lands. -/
def Obligations.VectorIntegerResults : Prop :=
  ∀ (s : State) (c : Ctl) (d a b : Spec),
    let r := s.cur;
    let t := s.slot r;
    let x (j : Nat) : W32 := lane (readV t a) j;
    let y (j : Nat) : W32 := lane (readV t b) j;
    let sh (j : Nat) : Nat := (y j).toNat % 32;
    let gives (i : Instr) (f : Nat → W32) : Prop :=
      exec i s = .next (((s.issued c 4 [.v d]).later r 1 [.v d (ofLanes f) (laneMask t c)]).flag r 0);
    (Executes s c false (fun _ => [.v a, .v b]) (fun _ => [.v d]) (fun t => laneMask t c != 0) = true →
      gives (.vaddI32 c d a b) (fun j => x j + y j) ∧ gives (.vsubI32 c d a b) (fun j => x j - y j) ∧
      gives (.vmulI32 c d a b) (fun j => x j * y j) ∧
      gives (.vmulhI32 c d a b) (fun j => BitVec.ofInt 32 ((x j).toInt * (y j).toInt / 2 ^ 32)) ∧
      gives (.vand c d a b) (fun j => x j &&& y j) ∧ gives (.vor c d a b) (fun j => x j ||| y j) ∧
      gives (.vxor c d a b) (fun j => x j ^^^ y j) ∧ gives (.vandn c d a b) (fun j => x j &&& ~~~y j) ∧
      gives (.vshl c d a b) (fun j => BitVec.ofNat 32 ((x j).toNat * 2 ^ sh j)) ∧
      gives (.vshr c d a b) (fun j => BitVec.ofNat 32 ((x j).toNat / 2 ^ sh j)) ∧
      gives (.vsra c d a b) (fun j => BitVec.ofInt 32 ((x j).toInt / 2 ^ sh j)) ∧
      gives (.vminI32 c d a b) (fun j => BitVec.ofInt 32 (min (x j).toInt (y j).toInt)) ∧
      gives (.vmaxI32 c d a b) (fun j => BitVec.ofInt 32 (max (x j).toInt (y j).toInt)) ∧
      gives (.vminN32 c d a b) (fun j => BitVec.ofNat 32 (min (x j).toNat (y j).toNat)) ∧
      gives (.vmaxN32 c d a b) (fun j => BitVec.ofNat 32 (max (x j).toNat (y j).toNat))) ∧
    (Executes s c false (fun _ => [.v a]) (fun _ => [.v d]) (fun t => laneMask t c != 0) = true →
      gives (.vabsI32 c d a) (fun j => BitVec.ofInt 32 ((x j).toInt.natAbs : Int)))

/-- 14 R299 to R307. The arithmetic of a lane is that of Machine/Float.lean; FloatResultsAreRoundedOnce says what sums,
products, fused results, lesser and greater ones come to. That exp2 and log2 are taken from series of 256 bits is log
26's. -/
def Obligations.VectorFloatResults : Prop :=
  ∀ (s : State) (c : Ctl) (d a b : Spec),
    let r := s.cur;
    let t := s.slot r;
    let m := modeOf t.round;
    let x (j : Nat) : W32 := lane (readV t a) j;
    let y (j : Nat) : W32 := lane (readV t b) j;
    let z (j : Nat) : W32 := lane (readV t d) j;
    let gives (i : Instr) (lat : Nat) (f : Nat → W32 × Flags) : Prop :=
      exec i s = .next (((s.issued c 4 [.v d]).later r lat [.v d (ofLanes fun j => (f j).1) (laneMask t c)]).flag r
        ((List.range 32).foldl (fun u j => if (laneMask t c).getLsbD j then u ||| (f j).2 else u) 0));
    let halves (g : Nat → Nat → Nat × Flags) (j : Nat) : W32 × Flags := pack (g (half (x j) 0) (half (y j) 0)) (g (half (x j) 1) (half (y j) 1));
    let fma (f : Fmt) (p q k : Nat) (np nk : Bool) : Nat × Flags :=
      f.deliver m (fMulAdd m (if np then (f.decode p).flip else f.decode p) (f.decode q) (if nk then (f.decode k).flip else f.decode k));
    (Executes s c false (fun _ => [.v a, .v b]) (fun _ => [.v d]) (fun t => laneMask t c != 0) = true →
      gives (.vaddF32 c d a b) 2 (fun j => w32 (fp32.add m (x j).toNat (y j).toNat)) ∧
      gives (.vsubF32 c d a b) 2 (fun j => w32 (fp32.sub m (x j).toNat (y j).toNat)) ∧
      gives (.vmulF32 c d a b) 2 (fun j => w32 (fp32.mul m (x j).toNat (y j).toNat)) ∧
      gives (.vminF32 c d a b) 2 (fun j => w32 (fp32.pick false (x j).toNat (y j).toNat)) ∧
      gives (.vmaxF32 c d a b) 2 (fun j => w32 (fp32.pick true (x j).toNat (y j).toNat)) ∧
      gives (.vcopysignF32 c d a b) 2 (fun j => ((x j &&& 0x7FFFFFFF) ||| (y j &&& 0x80000000), 0)) ∧
      gives (.vaddF16x2 c d a b) 2 (halves (fp16.add m)) ∧ gives (.vsubF16x2 c d a b) 2 (halves (fp16.sub m)) ∧
      gives (.vmulF16x2 c d a b) 2 (halves (fp16.mul m)) ∧ gives (.vmaxF16x2 c d a b) 2 (halves (fp16.pick true)) ∧
      gives (.vminF16x2 c d a b) 2 (halves (fp16.pick false)) ∧ gives (.vaddBf16x2 c d a b) 2 (halves (bf16.add m)) ∧
      gives (.vsubBf16x2 c d a b) 2 (halves (bf16.sub m)) ∧ gives (.vmulBf16x2 c d a b) 2 (halves (bf16.mul m)) ∧
      gives (.vmaxBf16x2 c d a b) 2 (halves (bf16.pick true)) ∧ gives (.vminBf16x2 c d a b) 2 (halves (bf16.pick false))) ∧
    (Executes s c false (fun _ => [.v a]) (fun _ => [.v d]) (fun t => laneMask t c != 0) = true →
      gives (.vabsF32 c d a) 2 (fun j => (x j &&& 0x7FFFFFFF, 0)) ∧ gives (.vnegF32 c d a) 2 (fun j => (x j ^^^ 0x80000000, 0)) ∧
      gives (.vsqrtF32 c d a) 4 (fun j => w32 (fp32.deliver m (fSqrt (val32 (x j))))) ∧
      gives (.vrcpF32 c d a) 4 (fun j => w32 (fp32.deliver m (fDiv (.fin false 1 0) (val32 (x j))))) ∧
      gives (.vrsqF32 c d a) 4 (fun j => w32 (fp32.deliver m (fRsq (val32 (x j))))) ∧
      gives (.vexp2F32 c d a) 4 (fun j => w32 (fp32.deliver m (fExp2 (val32 (x j))))) ∧
      gives (.vlog2F32 c d a) 4 (fun j => w32 (fp32.deliver m (fLog2 (val32 (x j))))) ∧
      gives (.vfloorF32 c d a) 2 (fun j => fIntegral .rdn false (x j)) ∧ gives (.vceilF32 c d a) 2 (fun j => fIntegral .rup false (x j)) ∧
      gives (.vrintF32 c d a) 2 (fun j => fIntegral m true (x j))) ∧
    (Executes s c false (fun _ => [.v a, .v b, .v d]) (fun _ => [.v d]) (fun t => laneMask t c != 0) = true →
      gives (.vfmaF32 c d a b) 2 (fun j => w32 (fma fp32 (x j).toNat (y j).toNat (z j).toNat false false)) ∧
      gives (.vfmsF32 c d a b) 2 (fun j => w32 (fma fp32 (x j).toNat (y j).toNat (z j).toNat false true)) ∧
      gives (.vfnmaF32 c d a b) 2 (fun j => w32 (fma fp32 (x j).toNat (y j).toNat (z j).toNat true false)) ∧
      gives (.vfmaF16x2 c d a b) 2 (fun j => pack (fma fp16 (half (x j) 0) (half (y j) 0) (half (z j) 0) false false)
        (fma fp16 (half (x j) 1) (half (y j) 1) (half (z j) 1) false false)) ∧
      gives (.vfmaBf16x2 c d a b) 2 (fun j => pack (fma bf16 (half (x j) 0) (half (y j) 0) (half (z j) 0) false false)
        (fma bf16 (half (x j) 1) (half (y j) 1) (half (z j) 1) false false)) ∧
      gives (.vdot2F16 c d a b) 2 (fun j => dot2 fp16 t (x j) (y j) (z j)) ∧
      gives (.vdot2Bf16 c d a b) 2 (fun j => dot2 bf16 t (x j) (y j) (z j)) ∧
      gives (.vdot4I8 c d a b) 2 (fun j => (z j + BitVec.ofInt 32
        (((List.range 4).map fun k => ((x j).extractLsb' (8 * k) 8).toInt * ((y j).extractLsb' (8 * k) 8).toInt).sum), 0)) ∧
      gives (.vdot4N8 c d a b) 2 (fun j => (z j + BitVec.ofNat 32
        (((List.range 4).map fun k => ((x j).extractLsb' (8 * k) 8).toNat * ((y j).extractLsb' (8 * k) 8).toNat).sum), 0)))

/-- 14 R299, R300, R304; 03 R62: all three formats keep subnormals and -0; R63, R65, R66. Values are compared exactly, as
whole numbers of the least unit of the format, or of its square for products. -/
def Obligations.FloatResultsAreRoundedOnce : Prop :=
  (∀ (f : Fmt) (round : Word) (x y z : Nat), f = fp32 ∨ f = fp16 ∨ f = bf16 →
    let m := modeOf round;
    let n := f.places;
    let v := f.valueAt n;
    let neg (c : Nat) : Bool := (f.decode c).neg;
    let rounded (q : Nat) (e : Int) (r : Nat × Flags) : Prop :=
      f.Rounds m q e r.1 ∧ r.2.getLsbD 0 = (f.valueAt q r.1 != e || !f.isFinite r.1);
    let zero (s : Bool) : Nat × Flags := (f.zero s, 0);
    let sum (a b : Bool) : Bool := if a = b then a else m == .rdn;
    (f.isFinite x = true → f.isFinite y = true →
      (let e := v x + v y;
        (e ≠ 0 → rounded n e (f.add m x y)) ∧ (e = 0 → f.add m x y = zero (sum (neg x) (neg y)))) ∧
      (let e := v x - v y;
        (e ≠ 0 → rounded n e (f.sub m x y)) ∧ (e = 0 → f.sub m x y = zero (sum (neg x) (!neg y)))) ∧
      (let e := v x * v y;
        (e ≠ 0 → rounded (2 * n) e (f.mul m x y)) ∧ (e = 0 → f.mul m x y = zero (neg x ^^ neg y))) ∧
      ∀ np nk : Bool, f.isFinite z = true →
        let e := (if np then -(v x * v y) else v x * v y) + (if nk then -(v z * 2 ^ n) else v z * 2 ^ n);
        let r := f.fma m (if np then (f.decode x).flip else f.decode x) (f.decode y) (if nk then (f.decode z).flip else f.decode z);
        (e ≠ 0 → rounded (2 * n) e r) ∧ (e = 0 → r = zero (sum (np ^^ (neg x ^^ neg y)) (nk ^^ neg z)))) ∧
    ∀ big : Bool, let r := f.pick big x y;
      let under (a b : Nat) : Prop := v a < v b ∨ (v a = v b ∧ (neg a = true ∨ neg b = false));
      (f.isCode x = true → f.isCode y = true →
        r.2 = 0 ∧ (r.1 = x ∨ r.1 = y) ∧ (if big then under x r.1 ∧ under y r.1 else under r.1 x ∧ under r.1 y)) ∧
      ((f.decode x).isNan = true ∨ (f.decode y).isNan = true → r = (f.nan, sigFlag (f.decode x) ||| sigFlag (f.decode y)))) ∧
  ∀ (mode : RMode) (x : Nat),
    (x < 2 ^ 32 → (fp32.decode x).isNan = false → fp32.deliver mode (fp32.decode x, 0) = (x, 0)) ∧
    (x < 2 ^ 16 → (fp16.decode x).isNan = false → fp16.deliver mode (fp16.decode x, 0) = (x, 0)) ∧
    (x < 2 ^ 16 → (bf16.decode x).isNan = false → bf16.deliver mode (bf16.decode x, 0) = (x, 0))

/-- 14 R308 with 03 R64, R67, R68, R74 to R76. Which flag a quiet NaN sets on its way to E5M3 is log 78's, how a one-bit
significand is judged tiny log 79's. -/
def Obligations.VectorConversionsComplete : Prop :=
  ∀ (s : State) (c : Ctl) (d a b : Spec) (k : BitVec 5),
    let r := s.cur;
    let t := s.slot r;
    let m := modeOf t.round;
    let x (j : Nat) : W32 := lane (readV t a) j;
    let y (j : Nat) : W32 := lane (readV t b) j;
    let z (j : Nat) : W32 := lane (readV t d) j;
    let flags (f : Nat → W32 × Flags) : Flags := (List.range 32).foldl (fun u j => if (laneMask t c).getLsbD j then u ||| (f j).2 else u) 0;
    let wr (f : Nat → W32 × Flags) (s1 : State) : State :=
      (s1.later r 2 [.v d (ofLanes fun j => (f j).1) (laneMask t c)]).flag r (flags f);
    let gives (i : Instr) (f : Nat → W32 × Flags) : Prop := exec i s = .next (wr f (s.issued c 4 [.v d]));
    let draws (i : Instr) (n : Nat) (f : Nat → W32 × Flags) : Prop := exec i s = .next (wr f
      (if t.round.toNat % 8 = 4 then (s.issued c 4 [.v d]).modSlot r fun u => { u with gens := stepGens (laneMask t c) n u.gens }
        else s.issued c 4 [.v d]));
    let m1 (j : Nat) : RMode := modeConv t.round (draw16 (mget 0 j t.gens)).1;
    let m2 (j : Nat) : RMode := modeConv t.round (draw16 (draw16 (mget 0 j t.gens)).2).1;
    (Executes s c false (fun _ => [.v a]) (fun _ => [.v d]) (fun t => laneMask t c != 0) = true →
      gives (.vcvtF32I32 c d a) (fun j => w32 (fp32.deliver m (ofInt (x j).toInt 0 false, 0))) ∧
      gives (.vcvtF32N32 c d a) (fun j => w32 (fp32.deliver m (ofInt (x j).toNat 0 false, 0))) ∧
      gives (.vcvtI32F32 c d a) (fun j => (BitVec.ofInt 32 (toIntSat m (-2 ^ 31) (2 ^ 31 - 1) (val32 (x j))).1,
        (toIntSat m (-2 ^ 31) (2 ^ 31 - 1) (val32 (x j))).2)) ∧
      gives (.vcvtN32F32 c d a) (fun j => (BitVec.ofInt 32 (toIntSat m 0 (2 ^ 32 - 1) (val32 (x j))).1,
        (toIntSat m 0 (2 ^ 32 - 1) (val32 (x j))).2)) ∧
      gives (.vcvtF32F16 c d a k) (fun j => widen (fp16.decode (half (x j) k.toNat))) ∧
      gives (.vcvtF32Bf16 c d a k) (fun j => widen (bf16.decode (half (x j) k.toNat))) ∧
      gives (.vcvtF32B8 c d a k) (fun j => widen ((b8Of t.b8fmt.toNat).decode (byteOf (x j) k.toNat))) ∧
      gives (.vcvtF32E5m3 c d a k) (fun j => widen (e5m3Val (byteOf (x j) k.toNat)))) ∧
    (Executes s c false (fun _ => [.v a, .v b]) (fun _ => [.v d]) (fun t => laneMask t c != 0) = true →
      draws (.vpackF16x2 c d a b) 2 (fun j => pack (narrow fp16 (m1 j) (x j)) (narrow fp16 (m2 j) (y j))) ∧
      draws (.vpackBf16x2 c d a b) 2 (fun j => pack (narrow bf16 (m1 j) (x j)) (narrow bf16 (m2 j) (y j)))) ∧
    (Executes s c false (fun _ => [.v a, .v d]) (fun _ => [.v d]) (fun t => laneMask t c != 0) = true →
      draws (.vcvtB8F32 c d a k) 1 (fun j =>
        let q := (b8Of t.b8fmt.toNat).ofVal (t.b8fmt.getLsbD 5) (m1 j) (val32 (x j));
        (setByte (z j) k.toNat q.1, q.2)) ∧
      draws (.vcvtE5m3F32 c d a k) 1 (fun j => let q := e5m3Of (m1 j) (val32 (x j));
        (setByte (z j) k.toNat q.1, q.2)))

/-- 14 R309 to R312. -/
def Obligations.VectorPermutesAndReductions : Prop :=
  ∀ (s : State) (c : Ctl) (p e : PSpec) (d a b : Spec),
    let r := s.cur;
    let t := s.slot r;
    let x (j : Nat) : W32 := lane (readV t a) j;
    let y (j : Nat) : W32 := lane (readV t b) j;
    let k := (readX t b).toNat % 32;
    let moves (i : Instr) (f : Nat → W32) : Prop :=
      exec i s = .next (((s.issued c 4 [.v d]).later r 1 [.v d (ofLanes f) (laneMask t c)]).flag r 0);
    let vv : Prop := Executes s c false (fun _ => [.v a, .v b]) (fun _ => [.v d]) (fun t => laneMask t c != 0) = true;
    (Executes s c false (fun _ => [.v b]) (fun _ => [.v d]) (fun t => laneMask t c != 0) = true → moves (.vmov c d b) y) ∧
    (Executes s c false (rX a) (fun _ => [.v d]) (fun t => laneMask t c != 0) = true →
      moves (.vbcast c d a) fun _ => BitVec.ofNat 32 (readX t a).toNat) ∧
    (vv → moves (.vshuf c d a b) (fun j => x ((y j).toNat % 32)) ∧
      moves (.vzlo c d a b) (fun j => if j % 2 = 0 then x (j / 2) else y (j / 2)) ∧
      moves (.vzhi c d a b) (fun j => if j % 2 = 0 then x (16 + j / 2) else y (16 + j / 2))) ∧
    (Executes s c false (fun t => [.v a, xReg t b]) (fun _ => [.v d]) (fun t => laneMask t c != 0) = true →
      moves (.vrot c d a b) fun j => x ((j + k) % 32)) ∧
    (Executes s c false noRegs (fun _ => [.v d]) (fun t => laneMask t c != 0) = true → moves (.viota c d) fun j => BitVec.ofNat 32 j) ∧
    (Executes s c false (rXX a b) (fun _ => [.v d]) (fun t => laneOn t c (bits (readX t b) 0 5)) = true →
      exec (.vins c d a b) s = .next ((s.issued c 4 [.v d]).later r 1
        [.v d (ofLanes fun _ => BitVec.ofNat 32 (readX t a).toNat) (BitVec.ofNat 32 (2 ^ k))])) ∧
    (Executes s c false (fun t => [.v a, xReg t b]) (rX d) (guardOn · c) = true →
      exec (.vext c d a b) s = .next ((s.issued c 4 [xReg t d]).later r 1 [writeX t d (BitVec.ofNat 64 (x k).toNat)])) ∧
    (Executes s c false (fun _ => [.v a]) (rX d) (fun _ => !(c.g == 0 && c.n)) = true →
      let ls : List (Nat × W32) := ((List.range 32).filter fun j => laneOn t c j).map fun j => (j, x j);
      let gives (i : Instr) (v : Word) (f : Flags) : Prop :=
        exec i s = .next (((s.issued c 4 [xReg t d]).later r 3 [writeX t d v]).flag r f);
      gives (.vsumI32 c d a) (BitVec.ofInt 64 (BitVec.ofInt 32 (ls.map fun l => l.2.toInt).sum).toInt) 0 ∧
      gives (.vorr c d a) (BitVec.ofNat 64 (ls.foldl (fun u l => u ||| l.2) (0 : W32)).toNat) 0 ∧
      gives (.vmaxrI32 c d a) (BitVec.ofInt 64 (ls.foldl (fun u l => max u l.2.toInt) (-2 ^ 31))) 0 ∧
      gives (.vminrI32 c d a) (BitVec.ofInt 64 (ls.foldl (fun u l => min u l.2.toInt) (2 ^ 31 - 1))) 0 ∧
      gives (.vmaxrF32 c d a) (foldPick true 0xFF800000 ls).1 (foldPick true 0xFF800000 ls).2 ∧
      gives (.vminrF32 c d a) (foldPick false 0x7F800000 ls).1 (foldPick false 0x7F800000 ls).2 ∧
      gives (.vargmaxF32 c d a) (argmax ls).1 (argmax ls).2 ∧
      ∃ v f, gives (.vsumF32 c d a) v f ∧ (ls = [] → v = 0 ∧ f = 0) ∧
        (ls ≠ [] → (v, f) = ((treeSum t.mode ((List.range 32).map fun j => if laneOn t c j then x j else 0)).1.setWidth 64,
          (treeSum t.mode ((List.range 32).map fun j => if laneOn t c j then x j else 0)).2))) ∧
    (Executes s c false (fun _ => [.v a, .v b]) (fun _ => [.p p, .p e]) (fun t => laneMask t c != 0) = true →
      let gives (i : Instr) (lat : Nat) (f : Nat → Bool × Flags) : Prop :=
        exec i s = .next (((s.issued c 4 [.p p, .p e]).later r lat
          [.p p (ofBits32 fun j => (f j).1) (laneMask t c), .p e (~~~(ofBits32 fun j => (f j).1)) (laneMask t c)]).flag r
          ((List.range 32).foldl (fun u j => if (laneMask t c).getLsbD j then u ||| (f j).2 else u) 0));
      (∀ f : FCond, gives (.vcmpf c p e a b f) 2 fun j => fcond f (x j) (y j)) ∧
      (∀ f : ICond, gives (.vcmpi c p e a b f) 1 fun j => (match f with
        | .eq => decide (x j = y j)
        | .ne => decide (x j ≠ y j)
        | .lt => decide ((x j).toInt < (y j).toInt)
        | .le => decide ((x j).toInt ≤ (y j).toInt)
        | .gt => decide ((x j).toInt > (y j).toInt)
        | .ge => decide ((x j).toInt ≥ (y j).toInt)
        | .ltu => decide ((x j).toNat < (y j).toNat)
        | .geu => decide ((x j).toNat ≥ (y j).toNat), 0)))

/-- 11 R235 with its table. -/
def Obligations.ShortFormsAreTheirCounterparts : Prop :=
  (∀ (s : State) (d b : Spec),
    let c : Ctl := ⟨0, false, 0⟩;
    let r := s.cur;
    let t := s.slot r;
    let m := modeOf t.round;
    let x (j : Nat) : W32 := lane (readV t d) j;
    let y (j : Nat) : W32 := lane (readV t b) j;
    let gives (i : Instr) (lat : Nat) (f : Nat → W32 × Flags) : Prop :=
      exec i s = .next (((s.issued c 2 [.v d]).later r lat [.v d (ofLanes fun j => (f j).1) 0xFFFFFFFF]).flag r
        ((List.range 32).foldl (fun u j => u ||| (f j).2) 0));
    let halves (g : Nat → Nat → Nat × Flags) (j : Nat) : W32 × Flags :=
      pack (g (half (x j) 0) (half (y j) 0)) (g (half (x j) 1) (half (y j) 1));
    (Executes s c false (fun _ => [.v d, .v b]) (fun _ => [.v d]) (fun t => laneMask t c != 0) = true →
      gives (.vaddF32_16 b d) 2 (fun j => w32 (fp32.add m (x j).toNat (y j).toNat)) ∧
      gives (.vsubF32_16 b d) 2 (fun j => w32 (fp32.sub m (x j).toNat (y j).toNat)) ∧
      gives (.vmulF32_16 b d) 2 (fun j => w32 (fp32.mul m (x j).toNat (y j).toNat)) ∧
      gives (.vmaxF32_16 b d) 2 (fun j => w32 (fp32.pick true (x j).toNat (y j).toNat)) ∧
      gives (.vminF32_16 b d) 2 (fun j => w32 (fp32.pick false (x j).toNat (y j).toNat)) ∧
      gives (.vaddI32_16 b d) 1 (fun j => (x j + y j, 0)) ∧ gives (.vsubI32_16 b d) 1 (fun j => (x j - y j, 0)) ∧
      gives (.vand16 b d) 1 (fun j => (x j &&& y j, 0)) ∧ gives (.vor16 b d) 1 (fun j => (x j ||| y j, 0)) ∧
      gives (.vxor16 b d) 1 (fun j => (x j ^^^ y j, 0)) ∧
      gives (.vshl16 b d) 1 (fun j => (BitVec.ofNat 32 ((x j).toNat * 2 ^ ((y j).toNat % 32)), 0)) ∧
      gives (.vaddF16x2_16 b d) 2 (halves (fp16.add m)) ∧ gives (.vmulF16x2_16 b d) 2 (halves (fp16.mul m)) ∧
      gives (.vaddBf16x2_16 b d) 2 (halves (bf16.add m)) ∧ gives (.vmulBf16x2_16 b d) 2 (halves (bf16.mul m))) ∧
    (Executes s c false (fun _ => [.v b]) (fun _ => [.v d]) (fun t => laneMask t c != 0) = true →
      gives (.vmov16 b d) 1 (fun j => (y j, 0)))) ∧
  (∀ b d : Spec, decode16 (0#1 ++ b ++ d ++ 0#4 ++ 0#1) = .ok (.vaddF32_16 b d) ∧ decode16 (0#1 ++ b ++ d ++ 1#4 ++ 0#1) = .ok (.vsubF32_16 b d) ∧
    decode16 (0#1 ++ b ++ d ++ 2#4 ++ 0#1) = .ok (.vmulF32_16 b d) ∧ decode16 (0#1 ++ b ++ d ++ 3#4 ++ 0#1) = .ok (.vmaxF32_16 b d) ∧
    decode16 (0#1 ++ b ++ d ++ 4#4 ++ 0#1) = .ok (.vminF32_16 b d) ∧ decode16 (0#1 ++ b ++ d ++ 5#4 ++ 0#1) = .ok (.vaddI32_16 b d) ∧
    decode16 (0#1 ++ b ++ d ++ 6#4 ++ 0#1) = .ok (.vsubI32_16 b d) ∧ decode16 (0#1 ++ b ++ d ++ 7#4 ++ 0#1) = .ok (.vand16 b d) ∧
    decode16 (0#1 ++ b ++ d ++ 8#4 ++ 0#1) = .ok (.vor16 b d) ∧ decode16 (0#1 ++ b ++ d ++ 9#4 ++ 0#1) = .ok (.vxor16 b d) ∧
    decode16 (0#1 ++ b ++ d ++ 10#4 ++ 0#1) = .ok (.vmov16 b d) ∧ decode16 (0#1 ++ b ++ d ++ 11#4 ++ 0#1) = .ok (.vaddF16x2_16 b d) ∧
    decode16 (0#1 ++ b ++ d ++ 12#4 ++ 0#1) = .ok (.vmulF16x2_16 b d) ∧ decode16 (0#1 ++ b ++ d ++ 13#4 ++ 0#1) = .ok (.vaddBf16x2_16 b d) ∧
    decode16 (0#1 ++ b ++ d ++ 14#4 ++ 0#1) = .ok (.vmulBf16x2_16 b d) ∧ decode16 (0#1 ++ b ++ d ++ 15#4 ++ 0#1) = .ok (.vshl16 b d)) ∧
  ∀ w : BitVec 16, w.getLsbD 15 = true → decode16 w = .error .rsvField

/-- 12 R251, 14 R296; aperture stores land with the third later instruction (04 R99). -/
def Obligations.ComputeFrame : Prop :=
  ∀ (i : Instr) (f : Effect) (fm : Form) (s u : State), effectOf i = some f → formOf i = some fm → exec i s = .next u →
    frozenAt s.cur u = false →
    let t := s.slot s.cur;
    u = s ∨ (∃ x, u = s.setSlot s.cur { t with fault := some x, wait := none, walk := none, fdrop := none }) ∨
      ∃ recent pend flights fflags gens,
        u = s.setSlot s.cur { ageAperture t with
          pc := (advance t fm.len).pc, rep := (advance t fm.len).rep, ready := s.now + fm.c.w.toNat + 1, issued := t.issued + 1,
          starve := 0, recent := recent, pend := pend, flights := flights, fflags := fflags, gens := gens } ∧
        (∀ p ∈ t.pend, p ∈ pend) ∧ (∀ p ∈ pend, p ∈ t.pend ∨ p.w.reg ∈ f.regs t) ∧
        (∀ g ∈ t.flights, g ∈ flights) ∧ (∀ g ∈ flights, g ∈ t.flights ∨ ∀ x ∈ g.regs, x ∈ f.regs t) ∧
        (∀ n, t.fflags.getLsbD n = true → fflags.getLsbD n = true) ∧ (f.flags = false → fflags = t.fflags) ∧
        (f.draws = false → gens = t.gens)

/-- 10 R211; 06 R141; 21 R373. That a fault waits in the slot until those results have come is 04 R97. -/
def Obligations.TakingAFault : Prop :=
  ∀ (s : State) (r : SlotRef) (pc : Word) (len : Nat) (tr : Trap), r.ok = true →
    let u := s.takeFault r pc len tr;
    let v := u.slot r;
    let s1 := (s.landSlot r).modSlot r fun t => wdogAtFault t (!s.ctxHalted r.ctx) tr;
    let p := s1.faultPacket r pc tr;
    let pd := s.physDie r.ctx r.die;
    let calm : Prop := ∀ g ∈ s.haltsOf r.coreRef, (mget {} g (s.pdie pd).halts).stopf = false;
    (resting (s.slot r) = false →
      u = s.modSlot r fun t => { t with fault := some (pc, len, tr), wait := none, walk := none, fdrop := none }) ∧
    ((s.slot r).fault = some (pc, len, tr) → resting ((s.atomicsHome r).slot r) = true →
      s.freezeLate r = (s.atomicsHome r).takeFault r pc len tr) ∧
    (resting (s.slot r) = true →
      v.st = .frozen ∧ v.pc = pc ∧ v.npc = pc + BitVec.ofNat 64 len ∧ v.wait = none ∧ v.walk = none ∧ v.fault = none ∧
      v.pend = [] ∧ v.flights = [] ∧ v.aperture = [] ∧ (∀ x, busy v x = false) ∧
      (r.core = supCore → u.supf = true ∧ (u.pdie pd).srep = p) ∧
      (r.core ≠ supCore → calm → s.Inv → s.sqRoom pd = true →
        (u.pdie pd).sqTail = (s.pdie pd).sqTail + 1 ∧
        ∀ i < 64, memGet (pkey .hbm 0 ((s.pdie pd).sqBase.toNat + 64 * ((s.pdie pd).sqTail.toNat % 4096)) + i) u.mem =
          p.extractLsb' (8 * i) 8) ∧
      (r.core ≠ supCore → calm → s.sqRoom pd = false → v.packet = some p ∧ (u.pdie pd).sqTail = (s.pdie pd).sqTail))

/-- 10 R212, R216; 04 R93, R105. -/
def Obligations.PacketsAndTheDebugWindow : Prop :=
  (∀ (cls cause pkind snap ctx pslot : Nat) (wdp more : Bool) (who pc addr idx : Word) (iword aux : W32) (tail : BitVec 128),
    cls < 256 → cause < 256 → pkind < 4 → snap < 8 → ctx < 65536 → pslot < 65536 →
    let p := mkPacket cls cause pkind wdp snap more ctx pslot who pc iword aux addr idx tail;
    (p.extractLsb' 0 8).toNat = cls ∧ (p.extractLsb' 8 8).toNat = cause ∧
    (p.extractLsb' 16 8).toNat = pkind + (if wdp then 4 else 0) ∧ (p.extractLsb' 24 8).toNat = snap + (if more then 8 else 0) ∧
    (p.extractLsb' 32 16).toNat = ctx ∧ (p.extractLsb' 48 16).toNat = pslot ∧ p.extractLsb' 64 64 = who ∧
    p.extractLsb' 128 64 = pc ∧ p.extractLsb' 192 32 = iword ∧ p.extractLsb' 224 32 = aux ∧ p.extractLsb' 256 64 = addr ∧
    p.extractLsb' 320 64 = idx ∧ p.extractLsb' 384 128 = tail ∧
    packetBytes p = (List.range 64).map fun i => p.extractLsb' (8 * i) 8) ∧
  (∀ (s : State) (c : Ctl) (d a : Spec) (o : Ord) (sc : Scope) (z : BitVec 2) (p : Bool) (off : Nat),
    let r := s.cur;
    let t := s.slot r;
    let n := 2 ^ z.toNat;
    let ea := (readX t a).toNat;
    let inc (s1 : State) : State := if p = true then s1.later r 1 [writeX t a (BitVec.ofNat 64 (ea + n))] else s1;
    acquiring t = false →
    (let s1 := s.issued c 4 (xReg t d :: if p then [xReg t a] else []);
      Executes s c false (rX a) (fun t => xReg t d :: if p then [xReg t a] else []) (guardOn · c) = true →
      Unfenced s (.ld c d a o sc z p) = true → s1.access r ea n n .read = .debug off → o ≠ .acq → o ≠ .acqrel →
      s1.debugPoison (supDie r) ea off n (fun _ => true) = none →
      exec (.ld c d a o sc z p) s = .next ((if xReg t d ≠ xReg t a then inc s1 else s1).fly r
        (.value [writeX t d (BitVec.ofNat 64 (leNat (s1.debugRead (supDie r) off n)))]))) ∧
    (let s1 := s.issued c 4 (if p then [xReg t a] else []);
      Executes s c false (rXX d a) (fun t => if p then [xReg t a] else []) (guardOn · c) = true →
      Unfenced s (.st c d a o sc z p) = true → s1.access r ea n n .write = .debug off → o ≠ .rel → o ≠ .acqrel → off % 65536 < 0x8000 →
      exec (.st c d a o sc z p) s = .next (inc (s1.debugWrite (supDie r) off (leBytes n (readX t d).toNat))))) ∧
  (∀ (s : State) (pd off : Nat), off % 8 = 0 → off % 65536 ≠ 0x290 →
    (∀ r, s.debugSlot pd off = some r → s.debugOpen r = true →
      s.debugRead pd off 8 = leBytes 8 (s.debugWord r (off % 65536)).toNat) ∧
    (s.debugSlot pd off = none ∨ (∃ r, s.debugSlot pd off = some r ∧ s.debugOpen r = false) →
      s.debugRead pd off 8 = List.replicate 8 0 ∧ ∀ x : Word, s.debugWrite pd off (leBytes 8 x.toNat) = s)) ∧
  (∀ (s : State) (r : SlotRef),
    let t := s.slot r;
    let w := s.debugWord r;
    (∀ j < 64, w (8 * j) = readRing t (BitVec.ofNat 6 j)) ∧ (∀ j < 8, w (0x200 + 8 * j) = readG t (BitVec.ofNat 3 j)) ∧
    (∀ j < 4, w (0x240 + 8 * j) = readP t (BitVec.ofNat 3 (2 * j + 1)) ++ readP t (BitVec.ofNat 3 (2 * j))) ∧
    w 0x260 = t.ringValid ∧ (w 0x268).extractLsb' 0 8 = t.gValid ||| 1 ∧ (w 0x268).extractLsb' 8 32 = t.vValid ∧
    (w 0x268).extractLsb' 40 8 = t.pValid ||| 1 ∧ w 0x270 = 0 ∧ bits (w 0x278) 0 16 = t.depth % 65536 ∧
    bits (w 0x278) 16 16 = t.lo % 65536 ∧ w 0x280 = t.pc ∧ w 0x288 = t.npc ∧ (∀ n < 128, w (0x400 + 8 * n) = s.ctlReg r n) ∧
    (∀ n < 32, ∀ i < 16, w (0x1000 + 128 * n + 8 * i) = (readV t (BitVec.ofNat 5 n)).extractLsb' (64 * i) 64) ∧
    (∀ i < 16, w (0x2000 + 8 * i) = mget 0 (2 * i + 1) t.gens ++ mget 0 (2 * i) t.gens) ∧
    ((∀ x ∈ t.snaps, x.1 < 256) → ∀ i < 4, bits (w 0x2100) (8 * i) 8 = (t.snaps.getD i (0, 0)).1) ∧
    (∀ i < 4, ∀ h < 2, w (0x2110 + 16 * i + 8 * h) = (t.snaps.getD i (0, 0)).2.extractLsb' (64 * h) 64) ∧
    ∀ o, 0x8000 ≤ o → w o = BitVec.ofNat 64 (s.loadLE (localKey r (o - 0x8000)) 8)) ∧
  ∀ (s : State) (pd off : Nat) (r : SlotRef) (x : Word),
    s.debugSlot pd off = some r → s.debugOpen r = true → off % 8 = 0 →
    let o := off % 65536;
    let t := s.slot r;
    let u := s.debugWrite pd off (leBytes 8 x.toNat);
    let v := u.slot r;
    (∀ j < 64, o = 8 * j → readRing v (BitVec.ofNat 6 j) = x ∧ v.ringValid = t.ringValid ||| 1#64 <<< j) ∧
    (∀ j < 8, o = 0x200 + 8 * j → (j ≠ 0 → readG v (BitVec.ofNat 3 j) = x) ∧ readG v 0 = 0) ∧
    (∀ j < 4, o = 0x240 + 8 * j → (j ≠ 0 → readP v (BitVec.ofNat 3 (2 * j)) = x.setWidth 32) ∧
      readP v (BitVec.ofNat 3 (2 * j + 1)) = x.extractLsb' 32 32 ∧ readP v 0 = BitVec.allOnes 32) ∧
    (o = 0x260 → v = { t with ringValid := x }) ∧
    (o = 0x268 → v = { t with gValid := x.setWidth 8, vValid := x.extractLsb' 8 32, pValid := x.extractLsb' 40 8 }) ∧
    (o = 0x278 → v = { t with depth := bits x 0 16, lo := bits x 16 16 }) ∧ (o = 0x288 → v = { t with npc := x }) ∧
    (o = 0x270 ∨ o = 0x280 ∨ (0x2100 ≤ o ∧ o < 0x2150) → u = s) ∧
    (∀ n ∈ [3, 4, 5, 6, 7, 0xC, 0xE, 0x11, 0x18, 0x19], o = 0x400 + 8 * n → u.ctlReg r n = x) ∧
    (∀ n, 0x40 ≤ n → n < 0x80 → o = 0x400 + 8 * n → u.ctlReg r n = x) ∧
    (∀ n ∈ [0x10, 0x15, 0x16], o = 0x400 + 8 * n → u.ctlReg r n = s.ctlReg r n) ∧
    (∀ n < 32, ∀ i < 16, o = 0x1000 + 128 * n + 8 * i →
      lane (readV v (BitVec.ofNat 5 n)) (2 * i) = x.setWidth 32 ∧ lane (readV v (BitVec.ofNat 5 n)) (2 * i + 1) = x.extractLsb' 32 32 ∧
      (v.vValid.getLsbD n = true) ∧ ∀ l < 32, l ≠ 2 * i → l ≠ 2 * i + 1 →
        lane (readV v (BitVec.ofNat 5 n)) l = lane (readV t (BitVec.ofNat 5 n)) l) ∧
    (∀ i < 16, o = 0x2000 + 8 * i → mget 0 (2 * i) v.gens = x.setWidth 32 ∧ mget 0 (2 * i + 1) v.gens = x.extractLsb' 32 32) ∧
    (0x8000 ≤ o → u = s.store ((keysFrom (localKey r (o - 0x8000)) 8).zip (leBytes 8 x.toNat))) ∧
    (o ≠ 0x290 → (∀ q : SlotRef, slotKey q ≠ slotKey r → u.slot q = s.slot q) ∧ (o < 0x8000 → u.mem = s.mem))

/-- 13 R285 to R288. That spilled held messages turn ordinary when their mailbox leaves the settle mode is log 25's
(DEDUCED), and that the mailbox's messages change the kind of their counts then is 01 R33. -/
def Obligations.MessageInstructions : Prop :=
  ∀ (s : State) (c : Ctl) (d a b : Spec),
    let r := s.cur;
    let t := s.slot r;
    let k := r.coreRef;
    let x := readX t a;
    let y := readX t b;
    (let s1 := s.issued c 4 [];
      Executes s c false (fun t => [.v d, xReg t a, xReg t b]) noRegs (guardOn · c) = true →
      (∀ e, s1.edge r.ctx (bits x 32 10) = some e → e.src = t.loc → bits x 42 22 = 0 → t.send.length < 4 →
        s1.countBlocked k e.dst (e.apply t.time) = false →
        let m : Msg := { dst := x, src := s1.srcWord r t x, time := e.apply t.time, payload := readV t d, loc := e.dst, weight := 1,
                         counted := true, poisoned := false };
        ((s1.shapeOf r.ctx).hasCore (bits x 11 2) (bits x 3 8) = true → s1.inPod (bits x 13 9) = true →
          let sc := if bits x 13 9 = s.pkg then scopeOf k ⟨r.ctx, bits x 11 2, bits x 3 8⟩ else .pod;
          s1.mayRelease r sc = true → exec (.send c d a b) s = .next ((s1.release r sc).enqueue r m 1 none)) ∧
        (bits x 10 20 = 0 → s1.mayRelease r (s1.mcastScope r (bits x 0 10)) = true →
          let n := mcastCounts (s1.core k) (bits x 0 10) (readV t d);
          let u := s1.release r (s1.mcastScope r (bits x 0 10));
          exec (.mcast c d a b) s = .next (if bits (mget 0 (bits x 0 10) (s1.core k).groups) 5 3 = 3 ∧ n = 0 then u
            else u.enqueue r m n (some (bits x 0 10)))))) ∧
    (let s1 := s.issued c 4 [.v d];
      let bx := if x.getLsbD 2 then 16 + bits x 0 2 else 4 * r.slot + bits x 0 2;
      Executes s c false (rXX a b) (fun _ => [.v d]) (guardOn · c) = true → bits x 3 61 = 0 →
      (bx ≥ 16 → (s1.box k bx).mode = 0) →
      ((s1.box k bx).oldest = none →
        exec (.recv c d a b) s = .next (s.startWait r (.recv c d a b) 4 y (boxWait r x 0))) ∧
      ∀ e g, (s1.box k bx).oldest = some (e, g) → entryTrap s1 k bx e = none → (g.counted && s1.countBlocked k g.loc g.time) = false →
        let sl := s1.sampleLines r ((keysFrom (entryKey k bx e) 128).map lineOf);
        let v := BitVec.ofNat 1024 (leNat (sl.seeBytes r.quadRef (entryAddr bx e).toNat (keysFrom (entryKey k bx e) 128)));
        let sc := if bits g.src 13 9 = s1.pkg then scopeOf k (srcCore r.ctx g.src) else .pod;
        let got (f : Flight) : State :=
          ((sl.fly r f).modSlot r fun u => { u with mtime := g.time, msrc := g.src }).freeEntry k bx e;
        exec (.recv c d a b) s = .next (if isDev g.src then got (.value [.v d v 0xFFFFFFFF]) else
          let s2 := got (winFlight (some sc) [.v d v 0xFFFFFFFF]);
          s2.retireMsg (s2.origin r t) k g false)) ∧
    (let s1 := s.issued c 4 [xReg t d];
      let bx := if x.getLsbD 2 then 16 + bits x 0 2 else 4 * r.slot + bits x 0 2;
      Executes s c false (rXX a b) (rX d) (guardOn · c) = true → bits x 4 60 = 0 →
      (∀ e g, (s1.box k bx).oldest = some (e, g) → exec (.mprobe c d a b) s = .next (s1.fly r (.value
        [writeX t d (entryAddr bx e ||| BitVec.ofNat 64 ((s1.box k bx).inSt 1).length)]))) ∧
      ((s1.box k bx).oldest = none → x.getLsbD 3 = true →
        exec (.mprobe c d a b) s = .next (s1.fly r (.value [writeX t d 0])))) ∧
    (let s1 := s.issued c 4 [];
      let mode := bits x 3 2;
      let bx := 16 + bits x 0 2;
      Executes s c false (rXX a b) noRegs (guardOn · c) = true → x.getLsbD 2 = true → mode < 3 → bits x 5 59 = 0 →
      (mode ≠ 0 → y ≠ 0 ∧ y.getLsbD 0 = false) →
      let s2 := remode k bx (BitVec.ofNat 2 mode) (s1.modBox k bx fun z => { z with mode := BitVec.ofNat 2 mode, entry := y });
      let s3 := if mode = 2 then s2.settleFix k bx 8 else unholdSpill k bx s2;
      let noRoom := s2.tilthFull r.ctx r.die && decide ((s3.ctx r.ctx).inflight.length ≠ (s1.ctx r.ctx).inflight.length);
      exec (.hdlr c a b) s = .next (if noRoom then s.startWait r (.hdlr c a b) 4 0 (s1.countWait k) else s3))

/-- 13 R289 to R291. -/
def Obligations.HoldsAndFrontierReads : Prop :=
  ∀ (s : State) (c : Ctl) (d a b : Spec),
    let r := s.cur;
    let t := s.slot r;
    let x := readX t a;
    let l := bits x 0 8;
    let tau := readTime t b;
    let s1 := s.issued c 4 [];
    let located : Prop := l < (s.ctx r.ctx).nloc ∧ bits x 8 56 = 0;
    (Executes s c false (rLocTime a b) noRegs (guardOn · c) = true →
      (located → s1.reaches r.ctx t.loc t.time l tau = true → s1.countBlocked r.coreRef l tau = false →
        exec (.fhold c a b) s = .next (s1.count r.coreRef l tau false 1)) ∧
      (located → s1.reaches r.ctx t.loc t.time l tau = false →
        exec (.fhold c a b) s = .next (s.takeFault r t.pc 4 (frontierFault 2 l tau))) ∧
      (located → Unfenced s (.fdrop c a b) = true → settled t = true → s1.countBlocked r.coreRef l tau = false →
        let s2 := (s1.count r.coreRef l tau false (-1)).flush r.coreRef (some (r, l, tau));
        exec (.fdrop c a b) s = .next (s2.modSlot r fun u => { u with fdrop := some (s2.lastBatch, t.pc, t.rep) })) ∧
      ((s.ctx r.ctx).nloc ≤ l → exec (.fhold c a b) s = .next (s.takeFault r t.pc 4
        { cls := 0x01, cause := 3, addr := x, aux := a.setWidth 32 }))) ∧
    (Executes s c false (fun t => xReg t d :: rLocTime a b t) noRegs (guardOn · c) = true → located →
      (tau < s.frontierAt r.ctx r.die l → exec (.fwait c d a b) s = .next (s1.acquire r .pkg)) ∧
      (¬ tau < s.frontierAt r.ctx r.die l → ∃ w : WaitInfo, w.cause = 9 ∧
        exec (.fwait c d a b) s = .next (s.startWait r (.fwait c d a b) 4 (readX t d) w))) ∧
    (Executes s c false (rX a) (rPair d) (guardOn · c) = true → located →
      let f := s.frontierAt r.ctx r.die l;
      exec (.fread c d a) s = .next ((s.issued c 4 [xReg t d, xReg t (d + 1)]).fly r (.value
        [writeX t d (f.extractLsb' 64 64), writeX t (d + 1) (f.extractLsb' 0 64)])))

/-- 13 R292, R293; 15 R336. -/
def Obligations.BarriersAndInvalidations : Prop :=
  ∀ (s : State) (c : Ctl) (sc : Scope) (a b : Spec),
    let r := s.cur;
    let t := s.slot r;
    let x := readX t b;
    let s1 := s.issued c 4 [];
    let id := bits x 0 2;
    let slotId := sc.bits.toNat * 4 + id;
    let key := barKey sc (barUnit r sc) id;
    let mine := mfind slotId t.bars;
    let inst := mget {} key (s1.ctx r.ctx).bars;
    let named : Prop := x.getLsbD (4 + r.slot) = true ∧ bits x 2 2 = 0 ∧ bits x 8 56 = 0;
    let ill (k : Nat) (i : Instr) : Prop := exec i s = .next (s.takeFault r t.pc 4
      { cls := 0x01, cause := k, addr := x, aux := b.setWidth 32 });
    let leave (u : State) : State := (u.modSlot r fun t => { t with bars := mdel slotId t.bars }).acquire r sc;
    let came := arrive r s1 sc key x;
    (Executes s c false (rX b) noRegs (guardOn · c) = true →
      (named → mine = none → maskClash r inst x = false → s1.mayRelease r sc = true → exec (.barn c sc a b) s = .next came) ∧
      (named → mine.isSome = true → ill 5 (.barn c sc a b)) ∧ (x.getLsbD (4 + r.slot) = false → ill 3 (.barn c sc a b))) ∧
    (Executes s c false (rXX a b) noRegs (guardOn · c) = true →
      (named → mine = none → ill 5 (.barw c sc a b)) ∧
      (x.getLsbD (4 + r.slot) = false → ill 3 (.bar c sc a b) ∧ ill 3 (.barw c sc a b)) ∧
      (named → ∀ p, mine = some p → p ≠ inst.parity →
        exec (.barw c sc a b) s = .next (leave s1) ∧ exec (.bar c sc a b) s = .next (leave s1)) ∧
      (named → mine = none → maskClash r inst x = false → s1.mayRelease r sc = true → ∃ w : WaitInfo, w.cause = 10 ∧
        exec (.bar c sc a b) s = .next ((came.modSlot r fun u =>
          { t with bars := u.bars, flights := u.flights, fence := u.fence, fenceAll := u.fenceAll, fenceE := u.fenceE }).startWait r
          (.bar c sc a b) 4 (readX t a) w))) ∧
    (Executes s c false (rXX a b) noRegs (guardOn · c) = true →
      let lo := (readX t a).toNat;
      let n := bits x 16 48 * 65536;
      lo % 65536 = 0 → n ≠ 0 → lo + n ≤ 2 ^ 52 →
      (r.core = supCore ∨ bits x 0 16 = bits (s.ctlReg r 1) 0 16 →
        exec (.tlbinv c a b) s = .next ((s1.invalidate (bits x 0 16) lo n).modSlot r fun u => { u with inv := u.inv + 1 })) ∧
      (r.core ≠ supCore → bits x 0 16 ≠ bits (s.ctlReg r 1) 0 16 → ill 3 (.tlbinv c a b))) ∧
    (Executes s c false (rX a) noRegs (guardOn · c) = true →
      (t.inv = 0 → exec (.tlbsync c a) s = .next s1) ∧
      (t.inv ≠ 0 → exec (.tlbsync c a) s = .next (s.startWait r (.tlbsync c a) 4 (readX t a)
        { cause := 14, addr := BitVec.ofNat 64 r.ctx, i0 := t.inv, i1 := 0 })))

/-- 06 R138; 13 R294. That each acts at the ring's home when it issues, with the quad's stores to the ring's lines brought
home first, is log 9 (DEDUCED; 13 R281 puts it later). -/
def Obligations.StageRingOperations : Prop :=
  ∀ (s : State) (c : Ctl) (d a b : Spec) (ks : List Nat) (g : RingView),
    let r := s.cur;
    let t := s.slot r;
    let ad := (readX t a).toNat;
    let k := ks.getD 0 0;
    let n := (readX t b).toNat;
    let lines := (List.range 66).map fun i => lineOf k + i;
    let home (s1 : State) : State := (s1.sampleLines r lines).drainLines r.quadRef lines;
    let onRing (s1 : State) : Prop := acquiring t = false ∧ s1.access r ad 128 128 .atomic = .keys ks ∧ ringPlace k = true ∧
      region false ad ≠ .trans ∧ (∀ o, region false ad ≠ .inter o) ∧ (home s1).ringAt k = some g ∧
      poisonTrap (home s1) ad (keysFrom k 64) (fun _ => true) = none ∧
      poisonTrap (home s1) (ad + 64) (keysFrom (k + 64) g.slots) (fun _ => true) = none;
    (Executes s c false (rXX a b) (rPair d) (guardOn · c) = true →
      let s1 := s.issued c 4 [xReg t d, xReg t (d + 1)];
      let s2 := home s1;
      onRing s1 →
      (Unfenced s (.racq c d a b) = true → g.closed = false → g.anext - g.fnext ≠ g.slots →
        exec (.racq c d a b) s = .next (((s2.setRing g g.anext 1).storeLE g.k 8 (g.anext + 1)).fly r (.value
          [writeX t d (BitVec.ofNat 64 g.anext), writeX t (d + 1) (g.slotAddr ad g.anext)]))) ∧
      (Unfenced s (.rtake c d a b) = true → g.tnext ≠ g.anext → s2.ringState g g.tnext = 2 →
        exec (.rtake c d a b) s = .next ((((s2.setRing g g.tnext 3).storeLE (g.k + 8) 8 (g.tnext + 1)).modSlot r fun u =>
          { u with held := u.held ++ [.ring (BitVec.ofNat 64 ad) (BitVec.ofNat 64 g.tnext)] }).fly r (.acquired
            [writeX t d (BitVec.ofNat 64 g.tnext), writeX t (d + 1) (g.slotAddr ad g.tnext)] (ringScope r g.k)))) ∧
      (Unfenced s (.rtake c d a b) = true → g.tnext = g.anext → g.closed = true →
        exec (.rtake c d a b) s = .next (s2.fly r (.value [writeX t d (BitVec.allOnes 64), writeX t (d + 1) 0])))) ∧
    (Executes s c false (rXX a b) noRegs (guardOn · c) = true →
      let s1 := s.issued c 4 [];
      let s2 := home s1;
      onRing s1 →
      (∀ cl, Unfenced s (.rpub c cl a b) = true → g.fnext ≤ n → n < g.anext → s2.ringState g n = 1 → s2.mayRelease r (ringScope r g.k) = true →
        let s3 := (s2.release r (ringScope r g.k)).setRing g n 2;
        exec (.rpub c cl a b) s =
          .next (if cl then s3.storeLE (g.k + 32) 1 (s3.loadLE (g.k + 32) 1 / 2 * 2 + 1) else s3)) ∧
      (Unfenced s (.rrel c a b) = true → g.fnext ≤ n → n < g.tnext → s2.ringState g n = 3 →
        exec (.rrel c a b) s = .next (commit g g.tnext g.slots g.fnext ((s2.modSlot r fun u =>
          { u with held := u.held.filter fun h => h != .ring (BitVec.ofNat 64 ad) (BitVec.ofNat 64 n) }).setRing g n 4)))) ∧
    (Executes s c false (rX a) (rPair d) (guardOn · c) = true →
      let s1 := s.issued c 4 [xReg t d, xReg t (d + 1)];
      onRing s1 → Unfenced s (.rstat c d a 0) = true →
      exec (.rstat c d a 0) s = .next ((home s1).fly r (.value
        [writeX t d (BitVec.ofNat 64 g.anext), writeX t (d + 1) (BitVec.ofNat 64 g.tnext)])) ∧
      exec (.rstat c d a 1) s = .next ((home s1).fly r (.value
        [writeX t d (BitVec.ofNat 64 g.fnext), writeX t (d + 1) (if g.closed then 1 else 0)])))

/-- 15 R315 to R323. The next state of each is given; place's refusals of a bad shadow set are left to the spec's list in
mcTrap. -/
def Obligations.MatrixCommands : Prop :=
  ∀ (s : State) (c : Ctl) (d a b : Spec) (idx : BitVec 9),
    let r := s.cur;
    let t := s.slot r;
    let q := r.quadRef;
    let s1 := s.issued c 4 [];
    let x := readX t a;
    let y := readX t b;
    let mc := copyMc r t;
    let goes (k : Nat) : Prop := mcTrap (handOver r) mc k = none ∧ (s1.arr q).occ < 8 ∧ s1.mayRelease r .die = true;
    let full (k : Nat) : Prop := mcTrap (handOver r) mc k = none ∧ 8 ≤ (s1.arr q).occ;
    let pushed (k : Nat) (keep : Bool) (tile : Nat) (shape : W32) : State := (s1.perform r .die).pushCmd q
      { id := s1.ids, who := r, gen := t.gen, remote := false, kind := k, keep := keep, tile := tile,
        shape := shape.setWidth 64, mc := mc, seed := t.seed.setWidth 32, at_ := s1.now, pc := t.pc, cid := s1.cId r, iword := t.iword };
    let queued (k : Nat) (keep : Bool) (tile : Nat) (shape : W32) : State :=
      { pushed k keep tile shape with ids := (pushed k keep tile shape).ids + 1 };
    let waits (i : Instr) (lim : Word) : Prop := exec i s = .next (s.startWait r i 4 lim (s1.arrWait q r t false));
    (Executes s c false (rX a) noRegs (guardOn · c) = true →
      (idx.toNat < 11 ∨ x = 0 → exec (.mset c a idx) s = .next (s1.modSlot r fun u => { u with mc := mput idx.toNat x u.mc })) ∧
      (goes 0 → exec (.wld c a) s = .next (queued 0 false 0 0)) ∧ (full 0 → waits (.wld c a) x) ∧
      (goes 1 → exec (.wswap c a) s = .next (queued 1 false 0 0)) ∧ (full 1 → waits (.wswap c a) x) ∧
      (goes 2 → exec (.xstr c a) s = .next ((queued 2 false 0 0).modSlot r fun u =>
        { u with held := u.held ++ [.matrix q.die q.quad s1.ids] })) ∧ (full 2 → waits (.xstr c a) x) ∧
      (goes 6 → exec (.tout c a) s = .next (queued 6 false 0 0)) ∧ (full 6 → waits (.tout c a) x) ∧
      ((s1.arr q).mine r t.gen false = 0 → nextFail t q false = none → exec (.mwait c a) s = .next (s1.acquire r .die)) ∧
      ((s1.arr q).mine r t.gen false ≠ 0 → waits (.mwait c a) x) ∧
      (bits x 16 48 = 0 →
        (s1.tokenMode q = true → exec (.mburst c a) s = .next (s1.modArr q fun z =>
          { z with hold := some (bits x 0 16), holdUntil := if z.token then some (s1.now + bits x 0 16) else none,
                   wantToken := !z.token })) ∧
        (s1.tokenMode q = false → exec (.mburst c a) s = .next (s1.modArr q fun z =>
          { z with hold := none, holdUntil := some (s1.now + bits x 0 16 + 64), ramped := true,
                   rampFrom := if z.ramped then z.rampFrom else s1.now, wantToken := false })))) ∧
    (Executes s c false (rXX a b) noRegs (guardOn · c) = true →
      (goes 5 → exec (.tzero c a b) s = .next (queued 5 false (bits x 0 8) 0)) ∧ (full 5 → waits (.tzero c a b) y)) ∧
    (Executes s c false (rXXX d a b) noRegs (guardOn · c) = true → shapeOk (y.setWidth 32) = true → bits x 9 55 = 0 →
      bits y 32 32 = 0 → goes 4 → exec (.tcfg c d a b) s = .next (queued 4 (x.getLsbD 8) (bits x 0 8) (y.setWidth 32))) ∧
    (Executes s c false (fun t => [xReg t d, xReg t a, xReg t (a + 1), xReg t b]) noRegs (guardOn · c) = true →
      (∀ id, t.reply = some (id, 0) → bits x 8 4 ≠ 3 →
        exec (.msend c d a b) s = .next (s1.modSlot r fun u => { u with reply := none })) ∧
      (t.reply = none → bits x 8 4 ≤ 6 → bits x 8 4 ≠ 4 → (s1.shapeOf r.ctx).hasQuad (bits x 6 2) (bits x 0 6) = true →
        mcTrap (handOver r) mc (bits x 8 4) = none → bits x 21 43 = 0 → s1.mayRelease r .die = true →
        ∃ (u : State) (w : WaitInfo), exec (.msend c d a b) s = .next (u.startWait r (.msend c d a b) 4 (readX t d) w) ∧
          (u.ctx r.ctx).cmds = (s.ctx r.ctx).cmds ++ [{
            from_ := r, die := bits x 6 2, quad := bits x 0 6, kind := bits x 8 4, keep := x.getLsbD 20, tile := bits x 12 8,
            shape := readX t (a + 1), cap := y, mc := mc, seed := t.seed.setWidth 32, id := s1.ids, pc := t.pc, cid := s1.cId r, iword := t.iword }])) ∧
    (Executes s c false noRegs (rX d) (guardOn · c) = true →
      let s2 := s.issued c 4 [xReg t d];
      exec (.mstat c d) s = .next (s2.fly r (.value [writeX t d (mstatWord s2 q (s2.slot r))])))

/-- 12 R267; 15 R329 to R331. That gjoin also waits while the record has not settled is log 29 (DEDUCED; 15 R331 waits for
a record not open alone); that gstat shows the record open until then log 29's too; that the upper bits of the
operands of gcancel and gstat are ignored is log 71 (DESIGN CHOICE). -/
def Obligations.TasksCardsAndGroups : Prop :=
  ∀ (s : State) (c : Ctl) (d a b : Spec),
    let r := s.cur;
    let t := s.slot r;
    let s1 := s.issued c 4 [];
    let sd := s.issued c 4 [xReg t d];
    let x := readX t a;
    let ad := addrM t a;
    (Executes s c true noRegs noRegs (guardOn · c) = true → t.flights = [] → s1.mayRelease r .pkg = true →
      ((s1.endCount r t).any fun x => s1.countBlocked r.coreRef x.1 x.2) = false → exec (.endTask c) s = .next (s1.finish r false)) ∧
    (∀ p : Posted, Unfenced s (.jpost c a b) = true → Executes s c false (rXX a b) noRegs (guardOn · c) = true →
      s1.readCard r.ctx (taskPoster r t s1 a) ad = .ok p → p.rsv = none →
      s1.reaches r.ctx t.loc t.time p.card.loc p.card.time = true →
      (p.card.count = 0 ∨ (mget {} p.card.queue (s1.pdie (s1.physDie r.ctx r.die)).jobs).full = false ∧
        s1.countBlocked r.coreRef p.card.loc p.card.time = false) →
      let s2 := (s1.count r.coreRef p.card.loc p.card.time false p.card.count).flush r.coreRef none;
      let card : Card := { p.card with poster := some r, batch := if p.card.count = 0 then 0 else s2.lastBatch };
      let s3 := ((s2.addSched r.ctx r.die p.ents p.card.time r (s2.cId r) t.pc t.iword).2).addCard r.ctx card p.raw;
      let freed := (List.range p.ents.length).filter fun i => (p.ents[i]?).any fun e => e.stage == 0;
      exec (.jpost c a b) s = .next (if freed = [] then s3 else
        s3.modSlot r fun u => { u with held := u.held ++ [.copy s2.ids freed] })) ∧
    (∀ (n v : Nat), Unfenced s (.gfork c d a b) = true →
      Executes s c false (fun t => rXX a b t ++ (List.range 8).map fun i => xReg t (BitVec.ofNat 5 (8 + i))) (rX d) (guardOn · c) = true →
      t.grp = none → taskRec r t sd a ad 64 64 = .val v → groupBad r v = false → sd.freeRecord r.ctx r.die = some n →
      fld v 20 1 - 1 ≤ (sd.quad r.quadRef).ringFree → sd.countBlocked r.coreRef t.loc t.time = false →
      ∃ u : State, exec (.gfork c d a b) s = .next (u.fly r (.value [writeX t d 0])) ∧
        (u.slot r).grp = some (n, 0) ∧
        (∃ y, mfind n (u.die r.ctx r.die).groups = some y ∧ y.gsize = fld v 20 1 ∧ y.quorum = fld v 21 1 ∧ y.isOpen = true ∧
          y.posted = 0 ∧ y.cancelled = 0 ∧ y.loc = t.loc ∧ y.time = t.time) ∧
        (u.quad r.quadRef).forks = (sd.quad r.quadRef).forks ++ [{
          batch := ((sd.count r.coreRef t.loc t.time false (fld v 20 1 - 1 : Nat)).flush r.coreRef none).lastBatch,
          ents := (List.range (fld v 20 1 - 1)).map fun i => RingEnt.sibling t.cardId r n r.die (i + 1) d (t.pc + 4)
            ((List.range 8).map fun j => readX t (BitVec.ofNat 5 (8 + j))) t.loc t.time t.card }]) ∧
    (∀ (n i : Nat) (y : GroupRec), t.grp = some (n, i) →
      (Executes s c false (rX a) noRegs (guardOn · c) = true → mfind n (s1.die r.ctx r.die).groups = some y →
        (y.isOpen = true → y.posted.getLsbD i = false → s1.mayRelease r .die = true → exec (.grwd c a) s = .next
          ((s1.release r .die).modGroup r.ctx r.die n fun z =>
            { z with posted := setM z.posted i, rewards := mput i (x.setWidth 32) z.rewards })) ∧
        (y.isOpen = true → y.posted.getLsbD i = true →
          exec (.grwd c a) s = .next (s.takeFault r t.pc 4 (groupFault 2 (toW n) i))) ∧
        (y.isOpen = true → bits x 0 6 < y.gsize → exec (.gcancel c a) s = .next (s1.cancelSibling r.ctx r.die n (bits x 0 6))) ∧
        (y.isOpen = true → y.gsize ≤ bits x 0 6 →
          exec (.gcancel c a) s = .next (s.takeFault r t.pc 4 (groupFault 3 (toW n) (bits x 0 6)))) ∧
        (y.isOpen = false → exec (.grwd c a) s = .next s1 ∧ exec (.gcancel c a) s = .next s1)) ∧
      (Executes s c false (rX a) (rX d) (guardOn · c) = true → mfind n (sd.die r.ctx r.die).groups = some y →
        (y.isOpen = true ∨ y.settled = true → ∃ w : WaitInfo, w.cause = 11 ∧ exec (.gjoin c d a) s = .next (s.startWait r (.gjoin c d a) 4 x w)) ∧
        (y.isOpen = false → y.settled = false → exec (.gjoin c d a) s = .next ((sd.fly r (.value [writeX t d
          (y.status ++ (if bits y.status 0 2 = 2 then 0 else mget 0 i y.adv : W32))])).acquire r .die)) ∧
        exec (.gstat c d a) s = .next (sd.fly r (.value [writeX t d (if bits x 0 2 = 0 then
            (if y.settled then y.status &&& 32 else y.status).setWidth 64
          else if bits x 0 2 = 1 then y.posted else if bits x 0 2 = 2 then y.cancelled else if y.settled then 0 else y.included)]))))

/-- 15 R332 to R334. That sstat ignores the upper bits of its operand is log 71 (DESIGN CHOICE). -/
def Obligations.CopyAndStorageInstructions : Prop :=
  ∀ (s : State) (c : Ctl) (d a b : Spec),
    let r := s.cur;
    let t := s.slot r;
    let x := readX t a;
    let y := readX t b;
    let s1 := s.issued c 4 [];
    let sd := s.issued c 4 [xReg t d];
    let ch := bits x 0 7;
    let cr := mget {} ch (sd.die r.ctx r.die).chans;
    let ill (i : Instr) : Prop := exec i s = .next (s.takeFault r t.pc 4
      { cls := 0x01, cause := 5, addr := x, aux := a.setWidth 32 });
    (Executes s c false (rX a) (rX d) (guardOn · c) = true →
      (sd.oldestSched r.ctx r.die ch = none → ill (.cwm c d a) ∧ ill (.cstat c d a)) ∧
      (∀ id sc, sd.oldestSched r.ctx r.die ch = some (id, sc) → bits x 7 57 = 0 →
        exec (.cwm c d a) s = .next (sd.fly r (.value [writeX t d (toW (cr.mark.toNat +
          (match cr.run with | some i => i | none => 255) * 2 ^ 32 + mget 0 ch sc.counters * 2 ^ 48))])) ∧
        exec (.cstat c d a) s = .next (sd.fly r (.value [writeX t d (toW ((if cr.stopped then 2 ^ 18 else 0) +
          (if cr.run.isSome then 2 ^ 16 else 0) + sc.entries.length * 256 + sc.done.length))])))) ∧
    (Executes s c false (rXX a b) noRegs (guardOn · c) = true →
      (s1.oldestSched r.ctx r.die ch = none → t.wait = none →
        (Unfenced s (.cadv c a b) = true → ill (.cadv c a b)) ∧ ill (.cwait c a b)) ∧
      (∀ id sc, s1.oldestSched r.ctx r.die ch = some (id, sc) →
        (Unfenced s (.cadv c a b) = true → bits x 7 57 = 0 → bits y 16 48 = 0 →
          let old := mget 0 ch sc.counters;
          let new := min 65535 (old + bits y 0 16);
          let s2 := s1.modDie r.ctx r.die fun z => { z with scheds := mput id { sc with counters := mput ch new sc.counters } z.scheds };
          let freed := (List.range sc.entries.length).filter fun i =>
            (sc.entries[i]?).any fun e => e.chan == ch && decide (old < e.stage) && decide (e.stage ≤ new);
          exec (.cadv c a b) s = .next (if freed = [] then s2 else
            s2.modSlot r fun u => { u with held := u.held ++ [.copy id freed] })) ∧
        (x.getLsbD 7 = false → bits x 14 50 = 0 → t.wait = none → bits x 8 6 < sc.entries.length →
          (mfind id (s1.die r.ctx r.die).scheds = some sc) →
          (sc.done.contains (bits x 8 6) = true → exec (.cwait c a b) s = .next s1) ∧
          (sc.done.contains (bits x 8 6) = false → exec (.cwait c a b) s = .next (s.startWait r (.cwait c a b) 4 y
            { cause := 13, addr := toW ch, i0 := bits x 8 6, i1 := mget 0 ch sc.counters, key := id }))))) ∧
    (∀ v : Nat, Executes s c false (rXX a b) noRegs (guardOn · c) = true → taskRec r t s1 a (addrM t a) 32 32 = .val v →
      fld v 21 1 / 2 = 0 → fld v 22 2 = 0 →
      let pd := s1.physDie r.ctx r.die;
      let room : Prop := ((s1.pdie pd).siltQ (fld v 20 1 % 8 % 4)).length < 256;
      let taken (op : Nat) : State := (({ s1 with ids := s1.ids + 1 } : State).modPdie pd fun z => z.enterSilt {
          id := s1.ids, fault := none, op := if op = 0 ∧ fld v 21 1 % 2 = 1 then 3 else op,
          buf := (handOver r (fld v 0 8)).getD (fld v 0 8), lba := fld v 8 8, nblk := fld v 16 4,
          drive := fld v 20 1 % 8, cw := (handOver r (fld v 24 8)).getD (fld v 24 8), cwVa := toW (fld v 24 8), ctx := r.ctx,
          poster := r, who := s1.cId r, pc := t.pc, iword := t.iword, cid := none, done := 0, pages := 0, status := 0, devCause := 0,
          writeFail := false }).modSlot r fun u => { u with held := u.held ++ [.silt s1.ids] };
      let fits (op : Nat) : Prop := siltBad op v r = false ∧ s1.cwOk r (fld v 24 8) = true;
      (Unfenced s (.sread c a b) = true → fits 0 → room → exec (.sread c a b) s = .next (taken 0)) ∧
      (Unfenced s (.swrite c a b) = true → fits 1 → room → exec (.swrite c a b) s = .next (taken 1)) ∧
      (Unfenced s (.sflush c a b) = true → fits 2 → room → exec (.sflush c a b) s = .next (taken 2)) ∧
      (Unfenced s (.sread c a b) = true → fits 0 → ¬ room → ∃ w : WaitInfo, w.cause = 5 ∧
        exec (.sread c a b) s = .next (s.startWait r (.sread c a b) 4 y w))) ∧
    (Executes s c false (rX a) (rX d) (guardOn · c) = true →
      let drive := bits x 0 3;
      exec (.sstat c d a) s = .next (sd.fly r (.value [writeX t d (toW ((if sd.driveUp drive then 65536 else 0) +
        min ((sd.pdie (sd.physDie r.ctx r.die)).silt.filter fun q => q.drive == drive).length 511))])))

/-- 15 R325 to R328. -/
def Obligations.CrossingUnitInstructions : Prop :=
  ∀ (s : State) (c : Ctl) (d a b : Spec),
    let r := s.cur;
    let t := s.slot r;
    let k := r.coreRef;
    let x := readX t a;
    let y := readX t b;
    let s1 := s.issued c 4 [];
    let installs (i : Instr) (u : XUnit) (v : Nat) (p : XVar × XEnt) : Prop :=
      let l := s1.unitLoc r.ctx u;
      ((p.1.on = false ∨ s1.reaches r.ctx t.loc t.time l p.1.time = true) → s1.moveBlocked k { u with vars := mput v p.1 u.vars } = false →
        exec i s = .next (((s1.sampleLines r [lineOf (varKey k v)]).setVar k v p.2).setUnit k
          { u with vars := mput v p.1 u.vars })) ∧
      (p.1.on = true → s1.reaches r.ctx t.loc t.time l p.1.time = false →
        exec i s = .next (s.takeFault r t.pc 4 (frontierFault 2 l p.1.time)));
    let fresh : XUnit := { edge := bits y 10 10, cls := bits y 20 2, vars := [], count := none };
    (∀ (n : Nat) (ed : Edge), Unfenced s (.qdef c a b) = true → Executes s c false (rXX a b) noRegs (guardOn · c) = true →
      taskRec r t s1 a (addrM t a) 32 32 = .val n → xentBad (XEnt.ofNat n) = false → (XEnt.ofNat n).flags < 16 → fld n 30 2 = 0 →
      bits y 22 42 = 0 → s1.edge r.ctx (bits y 10 10) = some ed → ed.src = t.loc →
      let e : XEnt := { XEnt.ofNat n with cnt := 0 };
      let p := if e.en then e.scheduleAt t.time else (XVar.off, e);
      ((s1.core k).xunit = none → installs (.qdef c a b) fresh (bits y 0 10) p) ∧
      (∀ u, (s1.core k).xunit = some u →
        (u.edge = bits y 10 10 → u.cls = bits y 20 2 → installs (.qdef c a b) u (bits y 0 10) p) ∧
        (u.edge ≠ bits y 10 10 ∨ u.cls ≠ bits y 20 2 → u.part = [] → s1.unitBusy k = false →
          installs (.qdef c a b) fresh (bits y 0 10) p) ∧
        (u.edge ≠ bits y 10 10 ∨ u.cls ≠ bits y 20 2 → u.part = [] → s1.unitBusy k = true →
          exec (.qdef c a b) s = .next (s.takeFault r t.pc 4 { cls := 0x01, cause := 5, addr := y, aux := b.setWidth 32 })))) ∧
    (∀ u : XUnit, Executes s c false (rXX a b) noRegs (guardOn · c) = true → (s1.core k).xunit = some u →
      let v := bits x 0 10;
      let tick : Word := t.time.extractLsb' 64 64;
      let e := s1.var k v;
      let w : W32 := y.setWidth 32;
      poisonTrap s1 (0x1C000 + 32 * v) (keysFrom (varKey k v) 32) (fun _ => true) = none → e.tlast ≤ tick → s1.varRsv k v = false →
      let e1 := { e with x := e.at_ (s1.neverVar k v) tick, tlast := tick };
      installs (.qslope c a b) u v (({ e1.setFlag 2 false with slope := w } : XEnt).scheduleAt t.time) ∧
      (posFinite w = true → installs (.qquant c a b) u v
        (({ ((e1.setFlag 1 false).setFlag 2 false).setFlag 0 true with dq := w, cnt := 0 } : XEnt).scheduleAt t.time)) ∧
      (posFinite w = false → exec (.qquant c a b) s = .next (s.takeFault r t.pc 4
        { cls := 0x01, cause := 3, addr := y, aux := b.setWidth 32 }))) ∧
    (Executes s c false (rX a) (rPair d) (guardOn · c) = true →
      let s2 := s.issued c 4 [xReg t d, xReg t (d + 1)];
      let k2 : CoreRef := ⟨r.ctx, bits x 18 2, bits x 10 8⟩;
      let v := bits x 0 10;
      (bits x 29 35 = 0 → (s2.shapeOf r.ctx).hasCore k2.die k2.core = true → bits x 20 9 = s.pkg →
        poisonTrap s2 (0x20000C000 + k2.die * 2 ^ 25 + k2.core * 2 ^ 17 + 32 * v) (keysFrom (varKey k2 v) 32) (fun _ => true) = none →
        s2.varRsv k2 v = false →
        exec (.qread c d a) s = .next (s2.fly r (.value
          [writeX t d ((s2.var k2 v).q ++ (s2.var k2 v).x), writeX t (d + 1) (s2.var k2 v).tlast]))) ∧
      (poisonTrap s2 (0x1C000 + 32 * v) (keysFrom (varKey k v) 32) (fun _ => true) = none → s2.varRsv k v = false →
        exec (.qstat c d a) s = .next (s2.fly r (.value
          [writeX t d (toW ((s2.var k v).flags + 256 * (s2.var k v).cnt)),
           writeX t (d + 1) (match (s2.core k).xunit with
            | some u => (match mfind v u.vars with | some z => z.tnext | none => neverTick)
            | none => neverTick)])))) ∧
    (∀ bh ch : Nat, Executes s c false (rXXX d a b) noRegs (guardOn · c) = true →
      let l := bits y 0 8;
      let hold : Time := x ++ BitVec.allOnes 64;
      handOver r (y.toNat / 256 * 256) = some bh → handOver r (readX t d).toNat = some ch → s1.cwOk r (readX t d).toNat = true → l < (s1.ctx r.ctx).nloc →
      (readX t d).toNat % 4 = 0 → s1.reaches r.ctx t.loc t.time l hold = true → s1.countBlocked r.coreRef l hold = false →
      exec (.qsnap c d a b) s = .next ((({ s1 with ids := s1.ids + 1 } : State).count r.coreRef l hold false 1).modCtx r.ctx fun z =>
        { z with snaps := z.snaps ++ [{ loc := l, tick := x, base := toW bh, cw := toW ch, poster := r, who := s1.cId r,
                                        pc := t.pc, iword := t.iword, id := s1.ids }] }))

/-- 01 R18, R19, R22, R34; 02 R44 to R57; 07 R163. That a pipeline card waits at the head of its queue while its quad
serves another is log 33 (DEDUCED); two chunks at most in a cycle, log 81; that a cancelled sibling that waits ends
without its wait's completion, log 65 (DEDUCED); the occupancy of a ring that cannot be read, log 80 (DESIGN CHOICE);
of two quads of the same free room and number on two dies, log 104; a bound task's pending values of registers the
manual gives none are those of log 3. -/
def Obligations.BindingAndDealingEvents : Prop :=
  ∀ s : State,
    (∀ (r : SlotRef) (i c n : Nat) (card : Card), s.nextBind r.quadRef = some (i, .record c n, r) →
      mfind c (s.ctx r.ctx).cards = some card →
      ∃ u : State, exec (.bindTask r) s = .next u ∧
        let t := u.slot r;
        t.st = .running ∧ t.pc = card.entry ∧ t.arg = card.argbase + toW (n * card.recsize) ∧ t.rec_ = toW n ∧
          readX t 8 = card.argbase + toW (n * card.recsize) ∧ readX t 9 = toW n ∧ t.loc = card.loc ∧ t.time = card.time ∧
          t.gen = (s.slot r).gen + 1 ∧ t.rsp = toW (stackBase r.slot) ∧ t.ready = s.now + 2 ∧
          (∀ n : Spec, n ≠ 8 → n ≠ 9 → readX t n = 0) ∧ (∀ n, readV t n = 0) ∧ (∀ n : PSpec, n ≠ 0 → readP t n = 0) ∧
          (let d (i : Nat) : Word := ((s.ctx r.ctx).defaults).getD i 0;
           t.round = d 0 ∧ t.b8fmt = d 1 ∧ t.check = d 2 ∧ t.wlimit = d 3 ∧ t.seed = d 4) ∧
          t.fflags = 0 ∧ t.cycles = 0 ∧ t.wdog = 0 ∧ t.mtime = 0 ∧ t.msrc = 0 ∧ t.depth = 0 ∧ t.grp = none ∧ t.rep = none ∧
          (u.quad r.quadRef).ring = (s.quad r.quadRef).ring.eraseIdx i) ∧
    (∀ (r : SlotRef) (n : Nat), (s.slot r).zero = some n →
      ∃ u : State, exec (.taskLocalZeroing r) s = .next u ∧
        (u.slot r).zero = (if n + 512 ≥ 0x8000 then none else some (n + 512)) ∧
        (s.Inv → ∀ k, memGet k u.mem = if localKey r n ≤ k ∧ k < localKey r n + 512 then 0 else memGet k s.mem)) ∧
    (∀ (r : SlotRef) (c e : Nat), s.canBind r = true → c < 4 → s.startable r.coreRef (16 + c) = some e →
      (∀ j < c, s.startable r.coreRef (16 + j) = none) → exec (.handlerBind r) s = .next (s.bindHandler r (16 + c) e)) ∧
    (∀ (r : SlotRef) (p : Pipe) (n : Nat) (st : Stage), s.canBind r = true → s.hasStage r.coreRef = false →
      s.stageOf r.coreRef = some (p, n) → mfind (posOf r.core) p.moves = none → p.stages[n]? = some st → st.closed = false →
      ∃ u : State, exec (.stageBind r) s = .next u ∧
        let t := u.slot r;
        t.st = .running ∧ t.pc = st.entry ∧ t.arg = st.desc ∧ t.rec_ = toW n ∧ t.stage = some n ∧ t.loc = p.loc ∧ t.time = p.time) ∧
    (∀ (pd q id : Nat) (j : JobQ) (c : Card) (t : Nat × Nat),
      let s1 := s.refreshQueues pd;
      let k : QuadRef := ⟨j.ctx, t.1, t.2⟩;
      s.dealtNow pd < 2 → (s1.pdie pd).choose = some (q, j) → s1.headCard j = some (id, c) → s1.roomiest j.ctx c.quads = some t →
      c.flags.getLsbD 1 = false →
      ∃ u : State, exec (.dealChunk pd) s = .next u ∧
        (u.quad k).ring = (s.quad k).ring ++
          (List.range (min c.chunk (s1.dealRoom j.ctx t))).map fun i => RingEnt.record id (c.next + i)) ∧
    (∀ (q : QuadRef) (a : Nat) (rest : List Nat), s.enginesUp q.ctx = true → (s.quad q).requeue = a :: rest → (s.quad q).ringFree ≠ 0 →
      (∀ b, RingEnt.swapped b ∉ (s.quad q).ring) →
      ∃ u : State, exec (.requeueListEntry q) s = .next u ∧ (u.quad q).requeue = rest ∧
        (u.quad q).ring = .swapped a :: (s.quad q).ring) ∧
    (∀ (q : QuadRef) (f : ForkWait) (rest : List ForkWait), (s.quad q).forks = f :: rest → s.rootHas q.ctx f.batch = true →
      (∀ e ∈ f.ents, s.sibCancelled q.ctx e = false) →
      ∃ u : State, exec (.gforkSiblingsEnter q) s = .next u ∧ (u.quad q).ring = f.ents ++ (s.quad q).ring ∧
        (u.quad q).forks = rest) ∧
    (∀ cx d : Nat, s.enginesUp cx = true → d < (s.shapeOf cx).dieCount → (s.now - s.pclock) % 4096 = 0 →
      (s.die cx d).leveled < (s.now - s.pclock) / 4096 →
      let depth (q : Nat) : Nat := (s.quad ⟨cx, d, q⟩).ring.length;
      let plans := ((s.shapeOf cx).quadsOn d).filterMap fun q => (shipPlan (s.shapeOf cx) depth d q).map fun p => (q, p);
      exec (.neighbourLevelling cx d) s = .next (plans.foldl (fun s p => s.shipFrom cx d p.1 p.2.1 p.2.2)
        (s.modDie cx d fun x => { x with leveled := (s.now - s.pclock) / 4096 }))) ∧
    (∀ (cx i id : Nat) (sh : Ship), (s.ctx cx).ships[i]? = some (id, sh) → s.enginesUp cx = true →
      let q : QuadRef := ⟨cx, sh.die, sh.dest⟩;
      let shipped (n : Nat) (l : List RingEnt) (s : State) : State := s.modCtx cx fun x =>
        { x with ships := mput id { sh with ents := l, st := n } x.ships };
      let gone (s : State) : State := s.modCtx cx fun x => { x with ships := mdel id x.ships };
      (sh.st = 0 → s.ctxHalted cx = false →
        ((s.quad q).requeue = [] → sh.ents.length ≤ (s.quad q).ringFree →
          exec (.levellingShipment cx i) s = .next (shipped 1 [] (s.modQuad q fun y => { y with ring := y.ring ++ sh.ents }))) ∧
        ((s.quad q).requeue ≠ [] ∨ (s.quad q).ringFree < sh.ents.length → exec (.levellingShipment cx i) s = .next (shipped 2 sh.ents s))) ∧
      (sh.st = 1 → exec (.shipmentAcknowledge cx i) s = .next (gone (s.modQuad ⟨cx, sh.die, sh.from_⟩ fun y =>
        { y with ring := y.ring.filter fun e => e != .reserved id }))) ∧
      (sh.st = 2 → exec (.shipmentBounce cx i) s = .next (gone (s.modQuad ⟨cx, sh.die, sh.from_⟩ fun y =>
        { y with ring := refill id y.ring sh.ents })))) ∧
    (∀ (q : QuadRef) (p : Pipe), (s.quad q).pipe = some p → s.enginesUp q.ctx = true → (s.now - s.pclock) % 1024 = 0 →
      p.governed < (s.now - s.pclock) / 1024 →
      let occ (n : Nat) : Nat := match p.stages[n]? with | some st => s.occupancy q.ctx st | none => 0;
      exec (.stageGovernor q) s = .next (s.modQuad q fun y => { y with pipe := some { p with
        moves := (match p.move occ with | some m => mput m.1 m.2 p.moves | none => p.moves),
        governed := (s.now - s.pclock) / 1024 } })) ∧
    (∀ r : SlotRef, (s.slot r).st ≠ .empty → (s.slot r).cancelled = true → settled (s.slot r) = true → (s.slot r).fault = none → s.resident r.ctx = true →
      s.coreHalted r.coreRef = false → exec (.cancelledSiblingEnd r) s = .next (s.finish r true)) ∧
    (∀ (cx d g : Nat) (y : GroupRec), mfind g (s.die cx d).groups = some y → y.dline ≠ 0 → y.isOpen = true → y.left = 0 →
      s.enginesUp cx = true → s.ctxHalted cx = false →
      exec (.groupDeadline cx d g) s = .next ((s.groupDeadline cx d g).resolveGroup cx d g))

/-- 06 R132, R135, R136; 07 R155; 08 R171 to R176; 13 R293; 15 R324, R328. That a barrier phase at pod scope turns with
this package's arrivals alone is log 35 (DESIGN CHOICE); where the ports' order of classes is kept is log 91
(DEDUCED); that a unit fires while earlier messages of it are refused is log 103 (DEDUCED); which variables a snapshot
samples is log 20's, that a completion word carries a full-empty bit where its place does log 59's, what room a batch
needs log 109's. -/
def Obligations.MeshCountAndFrontierEvents : Prop :=
  ∀ s : State,
    (∀ (r : SlotRef) (i : Nat) (e : SendEnt), (s.sendBuf r)[i]? = some e → e.sent = false →
      (((s.sendBuf r).take i).all SendEnt.sent) = true → s.enginesUp r.ctx = true → s.countKnown r e = true →
      (((s.sendBuf r).take i).any (s.sameDest r · e)) = false →
      exec (.messageInjection r i) s = .next ((s.modSend r.ctx e.id fun e => some { e with sent := true }).modCtx r.ctx fun c =>
        { c with mesh := c.mesh ++ [{ from_ := some r, ent := e.id, msg := e.msg, group := e.group, die := r.die, core := r.core,
                                      port := 4 }] })) ∧
    (∀ (cx i : Nat) (f : Flit), (s.ctx cx).mesh[i]? = some f → f.group = none → s.enginesUp cx = true →
      let k : CoreRef := ⟨cx, dDie f.msg.dst, dCore f.msg.dst⟩;
      let s1 := s.regrant cx f;
      (s.granted cx f = true → dPkg f.msg.dst = s.pkg →
        (∀ t, s1.deliver k (dBox f.msg.dst) f.msg = some t →
          exec (.messageDelivery cx i) s = .next ((t.unmesh cx i).copies cx f.from_ f.ent 0 1)) ∧
        (s1.deliver k (dBox f.msg.dst) f.msg = none → f.from_.isSome = true →
          exec (.messageDelivery cx i) s = .next ((s1.unmesh cx i).modSend cx f.ent fun e =>
            some { e with refused := e.refused ++ [(coreKey k, s.now)] }))) ∧
      (s.granted cx f = true → dPkg f.msg.dst ≠ s.pkg → s.sendsTo (dPkg f.msg.dst) = true → exec (.messageDelivery cx i) s =
        .next (((s1.unmesh cx i).copies cx f.from_ f.ent 0 1).linkGood (dPkg f.msg.dst))) ∧
      (∀ p ∈ s.outPorts cx f, (∃ c, s.owed (s.readyAt cx p) = some c ∧ c ≠ dCls f.msg.dst) ∨
          (s.owed (s.readyAt cx p) = none ∧ ∃ g ∈ (s.ctx cx).mesh, p ∈ s.outPorts cx g ∧ dCls g.msg.dst < dCls f.msg.dst) →
        exec (.messageDelivery cx i) s = .next s) ∧
      ((∀ p ∈ s.outPorts cx f, s.owed (s.readyAt cx p) = some (dCls f.msg.dst) ∨ (s.owed (s.readyAt cx p) = none ∧
        ∀ g ∈ (s.ctx cx).mesh, p ∈ s.outPorts cx g → dCls f.msg.dst ≤ dCls g.msg.dst)) → s.granted cx f = true) ∧
      ∀ (j : Nat) (g : Flit), (s.ctx cx).mesh[j]? = some g → (s1.ctx cx).mesh[j]? = some
        (if (∀ p ∈ s.outPorts cx g, p ∉ s.outPorts cx f) then g else if dCls g.msg.dst = dCls f.msg.dst then { g with since := none }
          else { g with since := some (match g.since with | some n => n | none => s.now) })) ∧
    (∀ here : List Flit,
      (s.owed here = none ↔ ∀ g ∈ here, ∀ n, g.since = some n → s.now < n + 32) ∧
      ∀ c, s.owed here = some c → ∃ g ∈ here, ∃ n, dCls g.msg.dst = c ∧ g.since = some n ∧ n + 32 ≤ s.now ∧
        ∀ h ∈ here, ∀ m, h.since = some m → m + 32 ≤ s.now → n < m ∨ (n = m ∧ c ≤ dCls h.msg.dst)) ∧
    (∀ (r : SlotRef) (i : Nat) (e : SendEnt) (x : Nat × Nat) (rest : List (Nat × Nat)), (s.sendBuf r)[i]? = some e →
      s.enginesUp r.ctx = true → e.refused = x :: rest → x.2 + 64 ≤ s.now → e.group = none →
      exec (.refusedMessageReoffer r i) s =
        .next ((s.modSend r.ctx e.id fun e => some { e with refused := e.refused.erase x }).modCtx r.ctx fun c =>
          { c with mesh := c.mesh ++ [{ from_ := some r, ent := e.id, msg := e.msg, group := none, die := r.die, core := r.core,
                                        port := 4 }] })) ∧
    (∀ (cx i grp : Nat) (f : Flit), (s.ctx cx).mesh[i]? = some f → f.group = some grp → s.enginesUp cx = true → s.granted cx f = true →
      let s1 := s.regrant cx f;
      let f1 : Flit := { f with since := none };
      let e := mget 0 grp (s.core ⟨cx, f.die, f.core⟩).groups;
      (bits e 5 3 = 0 → exec (.routerGroupMessage cx i) s = .next ((s1.unmesh cx i).forward cx f1 [f.msg] (bits e 0 5))) ∧
      (bits e 5 3 = 3 → f.port = 4 →
        exec (.routerGroupMessage cx i) s = .next ((s1.unmesh cx i).forward cx f1 (dropZeros f.msg) (bits e 0 5))) ∧
      (bits e 5 3 = 1 → exec (.routerGroupMessage cx i) s = .next (s1.combine cx i f1 grp 1 (bits e 8 5) (bits e 0 5)))) ∧
    (∀ k : CoreRef, (s.core k).delta ≠ [] → (s.core k).deltaAt + 128 ≤ s.now → s.tilthFull k.ctx k.die = false →
      s.enginesUp k.ctx = true →
      ∃ u : State, exec (.deltaFlushAge k) s = .next u ∧ (u.core k).delta = [] ∧
        (u.ctx k.ctx).inflight = (s.ctx k.ctx).inflight ++
          [{ id := s.ids, die := k.die, entries := (s.core k).delta, owner := none, core := k.core }]) ∧
    (∀ (cx d : Nat) (b : Batch) (rest : List Batch), s.enginesUp cx = true → (s.ctx cx).inflight = b :: rest → b.die = d →
      (∀ y ∈ rest, y.id ≠ b.id) → s.tilthTakes cx b = true →
      ∃ u : State, exec (.tilthBatchAccept cx d) s = .next u ∧ (u.ctx cx).inflight = rest ∧
        (u.ctx cx).toRoot = (s.ctx cx).toRoot ++ [b] ∧
        (u.die cx d).counts = dropZero (b.entries.foldl (fun l e => addDelta e l) (s.die cx d).counts)) ∧
    (∀ (cx : Nat) (b : Batch) (rest : List Batch), s.enginesUp cx = true → (s.ctx cx).toRoot = b :: rest → s.rootTakes cx (applyBatch (s.ctx cx).counts b.entries).1 = true →
      (applyBatch (s.ctx cx).counts b.entries).2 = [] → b.owner = none →
      let cs := dropZero (applyBatch (s.ctx cx).counts b.entries).1;
      ∃ u : State, exec (.rootBatchApply cx) s = .next u ∧ (u.ctx cx).toRoot = rest ∧ (u.ctx cx).counts = cs ∧
        (u.ctx cx).f = frontier (s.ctx cx).edges cs false ∧ (u.ctx cx).fset = frontier (s.ctx cx).edges cs true) ∧
    (∀ cx d : Nat, s.enginesUp cx = true → ∃ u : State, exec (.frontierBroadcast cx d) s = .next u ∧
      (u.die cx d).f = (s.ctx cx).f ∧ (u.die cx d).fset = (s.ctx cx).fset) ∧
    (∀ (cx : Nat) (sc : Scope) (x id : Nat) (b : BarInst), mfind (barKey sc x id) (s.ctx cx).bars = some b →
      s.enginesUp cx = true → b.arrived ≠ [] → id ≤ 3 → (s.barCores cx sc x).all b.coreIn = true →
      exec (.barrierCompletion cx sc x id) s = .next (s.modCtx cx fun c =>
        { c with bars := mput (barKey sc x id) { parity := !b.parity, arrived := [] } c.bars })) ∧
    (∀ (k : CoreRef) (u : XUnit) (h : Time), (s.core k).xunit = some u → u.count = some h →
      s.frontierAt k.ctx k.die (s.unitLoc k.ctx u) = h → s.enginesUp k.ctx = true →
      s.fireBlocked k u h = false →
      let due := (u.vars.filter fun v => v.2.on && v.2.time == h).map Prod.fst;
      let a := due.foldl (fireVar k h) (s, u.part, u);
      exec (.crossingFiring k) s = .next (a.1.unitSend k a.2.1 a.2.2)) ∧
    (∀ (pd : Nat) (w : Who) (k : CoreRef) (v : Nat) (q : Snap) (ks : List Nat) (s1 : State),
      s.agentGet pd w (q.base.toNat + 4 * (s.varId k v % 2 ^ 20)) 4 .write = (.keys ks, s1) →
      snapRun pd w [(k, v)] q s = (false, { q with next := q.next + 1, wrote := q.wrote + 1 },
        s1.store (ks.zip (leBytes 4 ((s1.var k v).at_ (s1.neverVar k v) q.tick).toNat)))) ∧
    (∀ (cx i : Nat) (q : Snap),
      (s.ctx cx).snaps[i]? = some q → snapTime q.tick ≤ s.frontierAt cx q.poster.die q.loc → s.enginesUp cx = true →
      s.countBlocked q.poster.coreRef q.loc (snapTime q.tick) = false →
      let pd := s.physDie cx q.poster.die;
      let w : Who := ⟨cx, q.poster, q.who, q.pc, q.iword, workOf 5 q.id⟩;
      let x := snapRun pd w ((s.snapVars cx q.loc).drop q.next) q s;
      let q1 := x.2.1;
      let s1 := x.2.2.modCtx cx fun c => { c with snaps := lmod i (fun _ => q1) c.snaps };
      (x.1 = true → exec (.qsnapSample cx i) s = .next s1) ∧
      (∀ (ks : List Nat) (s2 : State), x.1 = false → q1.bad = none → s1.agentGet pd w q1.cw.toNat 4 .write = (.keys ks, s2) →
        let full := s2.carriesFull q1.poster q1.cw.toNat (ks.getD 0 0);
        exec (.qsnapSample cx i) s = .next
          ((((s2.store (ks.zip (leBytes 4 q1.wrote))).setFullIf full (ks.getD 0 0)).modCtx cx fun c =>
            { c with snaps := c.snaps.eraseIdx i }).count q.poster.coreRef q1.loc (snapTime q1.tick) false (-1))))

/-- 04 R96, R102; 05 R112, R119, R121, R126; 06 R141, R145, R146; 08 R178 to R181; 11 R231; 15 R315, R321, R322; 21 R379,
R382. When a load reads its bytes and an operation at a home is executed is log 9 (DEDUCED); what a failed link does
to traffic of other packages is log 42, and which flits a replay counts log 100; which instruction word a watchdog's
packet holds is log 62's, where an engine's store goes log 67's, how requests stand in a submission queue log 76's
(PRESUMED), which context a channel serves first log 110's. -/
def Obligations.ResultsWaitsStorageAndEngineEvents : Prop :=
  ∀ s : State,
    (∀ (r : SlotRef) (i : Nat) (f : Flight), (s.slot r).flights[i]? = some f → s.up r.ctx = true →
      (∀ x ∈ f.regs, early (s.slot r) x = false) →
      let s0 := s.samplePlaces r (readFirst (f.lines ++ f.homeLines) ((s.slot r).flights.take i) ++ [true]);
      let land (u : State) (ws : List RegWrite) : State :=
        u.setSlot r { applyWrites (u.slot r) ws with flights := (u.slot r).flights.eraseIdx i };
      exec (.resultLanding r i) s = .next (match f with
        | .value ws => land s0 ws
        | .acquired ws sc => (land s0 ws).acquire r sc
        | .timed ws due => if due ≤ s.now then land s0 ws else s0
        | .load d ps m bc acq =>
          let u := (land s0 (s0.loadWrites r.quadRef d ps m bc)).acquireAt r acq;
          match f.lines.find? fun l => keyKind (64 * l) == 6 with
          | some l => u.linkGood (keyUnit (64 * l))
          | none => u
        | .atomic d ks g b new acq =>
          let x := s0.atomicStep r ks g b new;
          (land x.2 (d.word x.1)).acquireAt r acq
        | .fe op k =>
          let x := s0.feStep r op k;
          land x.2 x.1
        | .remote _ _ _ _ => s0)) ∧
    (∀ (ls : List Nat) (f : Flight) (fs : List Flight), readFirst ls [] = [] ∧
      readFirst ls (f :: fs) = (f.lines.any fun l => ls.contains l ||
        ((fs.zip (readFirst ls fs)).any fun x => x.2 && x.1.lines.contains l)) :: readFirst ls fs) ∧
    (∀ (r : SlotRef) (w : Wait), (s.slot r).wait = some w → s.mayGoOn r = true →
      (∀ u, s.retryWait r w = some (.ok u) → exec (.waitSatisfied r) s = .next u) ∧
      (∀ tr, s.retryWait r w = some (.trap tr) → exec (.waitSatisfied r) s = .next (s.takeFault r (s.slot r).pc w.len tr)) ∧
      (∀ l i, s.retryWait r w = some (.wait l i) → exec (.waitSatisfied r) s = .next s ∧
        (w.lim ≠ 0 → w.left = 0 → s.barMeets r w = s →
          exec (.waitExpiry r) s = .next (s.takeFault r (s.slot r).pc w.len (waitFault i w.lim))))) ∧
    (∀ r : SlotRef, (s.slot r).wdogPend = true → (s.slot r).st = .running → (s.slot r).fault = none → (s.slot r).walk = none →
      s.up r.ctx = true → s.coreHalted r.coreRef = false →
      exec (.watchdogExpiry r) s = .next ((s.modSlot r fun t =>
        { t with wdogPend := false, iword := if t.wait.isSome then t.iword else s.wordAt r }).takeFault r (s.slot r).pc
        (match (s.slot r).wait with | some w => w.len | none => s.lenAt r (s.slot r).pc.toNat) { cls := 0x0D, cause := 1 })) ∧
    (∀ (r : SlotRef) (p : Packet), (s.slot r).packet = some p → (s.slot r).ready ≤ s.now → s.up r.ctx = true →
      let pd := s.physDie r.ctx r.die;
      exec (.faultPacketReoffer pd (some r)) s = .next (if s.sqRoom pd then
        (s.modSlot r fun t => { t with packet := none }).pushPacket pd p
        else s.modSlot r fun t => { t with ready := s.now + 256 })) ∧
    (∀ (pd : Nat) (p : Packet) (rest : List Packet), (s.pdie pd).heldPkts = p :: rest → (s.pdie pd).offered + 256 ≤ s.now →
      let s1 := s.modPdie pd fun d => { d with offered := s.now };
      exec (.faultPacketReoffer pd none) s =
        .next (if s.sqRoom pd then (s1.modPdie pd fun d => { d with heldPkts := rest }).pushPacket pd p else s1)) ∧
    (∀ (r : SlotRef) (va : Word) (x : Access) (len : Nat), (s.slot r).walk = some (va.toNat, x, len) → s.up r.ctx = true →
      s.tlbOf r.quadRef va.toNat = none →
      (∀ c l, s.walkVa r.ctx va.toNat = .bad c l → exec (.pageWalk r va x) s =
        .next ((s.modSlot r fun u => { u with walk := none }).takeFault r (s.slot r).pc len (transFault c va.toNat l x))) ∧
      (∀ l home e, s.walkVa r.ctx va.toNat = .leaf l home e → permits e x = true → pteKind e = 2 → writes x = false →
        exec (.pageWalk r va x) s = .next ((s.modSlot r fun u => { u with walk := none }).fillTlb r.quadRef
          ⟨va.toNat / 2 ^ levelBits l, levelBits l, e, home⟩))) ∧
    (∀ (pd e : Nat) (q : SReq), (∀ x ∈ (s.pdie pd).silt, x.drive % 4 = e → x.writeFail = false ∧ x.back = false) → (s.pdie pd).nextSilt e = some q →
      q.op ≠ 3 → (q.fault.isSome = true ∨ s.driveUp q.drive = true) → exec (.siltSubmission pd e) s = .next (s.submit pd e q)) ∧
    (∀ (pd cid st : Nat) (q : SReq), ((s.pdie pd).silt.find? fun q => q.cid == some cid && !q.back) = some q → q.fault = none →
      (st ≠ 0 ∨ q.op = 2) → exec (.nvmeCompletion pd cid st) s =
        .next ((s.completed pd (q.drive % 4) q.drive cid st).siltEnd pd { q with status := st })) ∧
    (∀ r : SlotRef, (s.slot r).inv ≠ 0 → s.up r.ctx = true →
      let s1 := (s.invScope r.ctx).foldl (fun s cx => s.performAll cx) s;
      ((s.invScope r.ctx).any s1.outstanding) = false →
      exec (.tlbinvAcknowledge r) s = .next (s1.modSlot r fun t => { t with inv := 0 })) ∧
    (∀ (cx d ch id i : Nat) (sc : Sched) (e : CEnt), s.enginesRun cx d = true →
      let c := mget {} ch (s.die cx d).chans;
      c.stopped = false → s.oldestSched cx d ch = some (id, sc) →
      (c.run = none → s.atHead cx d id sc = true → s.chanTaken cx d ch id sc = false → sc.next ch = some (i, e) → e.stage ≤ mget 0 ch sc.counters →
        exec (.copyEntryRelease cx d ch) s = .next (s.modChan cx d ch fun c =>
          { c with run := some i, bytes := 0, mark := 0, poisonSeen := false, clipSeen := false })) ∧
      (c.run = some i → sc.entries[i]? = some e →
        (∀ l, c.bytes < e.boxBytes → (let stop := min e.boxBytes ((c.bytes / 128 + 1) * 128);
            copyElems (s.physDie cx d) d ⟨cx, sc.poster, sc.who, sc.pc, sc.iword, workOf 2 ch⟩ (s.ctx cx).useAttr[0] e
              ((stop - c.bytes) / 2 ^ e.lay.esz) (c.bytes / 2 ^ e.lay.esz)
              { s := s, ps := [], bad := [], first := none, clip := false } = .made l) →
          l.bad = [] → l.first = none → l.clip = false →
          exec (.copyLineWritten cx d ch) s = .next ((l.s.engineStore cx l.ps).modChan cx d ch fun c =>
            { c with bytes := min e.boxBytes (((mget {} ch (s.die cx d).chans).bytes / 128 + 1) * 128),
                     mark := BitVec.ofNat 32 (min e.boxBytes (((mget {} ch (s.die cx d).chans).bytes / 128 + 1) * 128)) })) ∧
        (e.boxBytes ≤ c.bytes → sc.done.length + 1 < sc.entries.length →
          exec (.copyEntryComplete cx d ch) s = .next ((s.modChan cx d ch fun c => { c with run := none }).modDie cx d fun x =>
            { x with scheds := mput id { sc with done := sc.done ++ [i] } x.scheds })))) ∧
    (∀ (cx d ch id : Nat) (sc : Sched),
      ((∀ x ∈ s.diesOn (s.physDie cx d), x.1 = dieKey cx d) → s.chanTaken cx d ch id sc = false) ∧
      ∀ x ∈ s.diesOn (s.physDie cx d), x.1 ≠ dieKey cx d → (mget {} ch x.2.chans).run.isSome = true →
        s.chanTaken cx d ch id sc = true ∧
          (s.oldestSched cx d ch = some (id, sc) → exec (.copyEntryRelease cx d ch) s = .next s)) ∧
    (∀ (cx d ch : Nat), (mget {} ch (s.die cx d).chans).stopped = true →
      exec (.copyChannelRestart cx d ch false) s = .next (s.modChan cx d ch fun c => { c with stopped := false })) ∧
    (∀ (q : QuadRef), s.arrUp q = true →
      (∀ i c, (s.arr q).startable s.now = some i → (s.arr q).queue[i]? = some c → c.kind ≠ 2 → (s.arr q).skips c = false →
        ∃ u : State, exec (.arrayCommandStart q) s = .next u ∧ (u.arr q).queue = (s.arr q).queue.eraseIdx i ∧
          (u.arr q).run = (s.arr q).run ++
            [{ cmd := c, start := s.now, finish := s.now, gens := arrGens c.seed,
               ahead := ((s.arr q).queue.take i).map ArrCmd.id }]) ∧
      (∀ x, ((s.arr q).run.find? fun x => decide (x.finish ≤ s.now) && (x.cmd.kind != 2 || decide (x.done ≥ mcF x.cmd.mc 3 0 11))) = some x →
        (x.cmd.kind = 2 → exec (.arrayCommandComplete q) s = .next (s.arrEnd q x.cmd none)) ∧
        (x.cmd.kind = 6 → exec (.arrayCommandComplete q) s = .next (s.outRows q x.cmd
          (shapeRows (mget 0 (mcF x.cmd.mc 5 0 8) (s.arr q).tiles) - x.done) x.done x.gens x.hurt)) ∧
        (∀ u v f, x.cmd.kind ≠ 2 → x.cmd.kind ≠ 6 → s.runCmd q x.cmd = (some (u, f), v) →
          exec (.arrayCommandComplete q) s = .next (u.arrEnd q x.cmd f)))) ∧
    (∀ q : QuadRef, (s.arr q).hasStream = false →
      ((s.arr q).ramped = true → (s.arr q).holdUntil = none → (s.arr q).idleAt + 64 ≤ s.now →
        exec (.arrayRampDown q) s = .next (s.modArr q fun a => { a with ramped := false })) ∧
      (∀ h, (s.arr q).holdUntil = some h → h ≤ s.now → (s.arr q).token = false →
        ∃ u : State, exec (.burstHoldExpiry q) s = .next u ∧ (u.arr q).hold = none ∧ (u.arr q).holdUntil = none ∧
          (u.arr q).ramped = ((s.arr q).ramped && decide (s.now < (s.arr q).idleAt + 64)) ∧ (u.arr q).wantToken = false)) ∧
    (∀ pd : Nat,
      let s1 := s.returnTokens pd;
      let f := (s.pdie pd).fenced;
      let takes (q : QuadRef) : Bool :=
        !s.thr && s.arrUp q && s.tokenMode q && ((s1.arr q).wantToken || (s1.arr q).hasStream) && !(s1.arr q).token;
      (∀ n k, n < 64 → s.coreAtPhys pd (coreAt n 0) = some k → (s.arr k.quadRef).token = true →
        (s1.arr k.quadRef).token = (s.arrUp k.quadRef || !(s.arr k.quadRef).still)) ∧
      ((∀ n k, s.coreAtPhys pd (coreAt n 0) = some k → takes k.quadRef = false) → ∃ u : State, exec (.tokenPass pd) s = .next u ∧
        (u.pdie pd).tokens.length = (s1.pdie pd).tokens.length ∧ ∀ n t : Nat, (s1.pdie pd).tokens[n]? = some t →
          (∀ j, (∀ i < j, f.getLsbD ((t + 1 + i) % 64) = true) → f.getLsbD ((t + 1 + j) % 64) = false →
            ((u.pdie pd).tokens[n]? : Option Nat) = some ((t + 1 + j) % 64)) ∧
          ((∀ i < 64, f.getLsbD i = true) → ((u.pdie pd).tokens[n]? : Option Nat) = some t)) ∧
      (∀ t k, (s1.pdie pd).tokens = [t] → f.getLsbD ((t + 1) % 64) = false →
        s.coreAtPhys pd (coreAt ((t + 1) % 64) 0) = some k → takes k.quadRef = true →
        ∃ u : State, exec (.tokenPass pd) s = .next u ∧ (u.pdie pd).tokens = [] ∧ (u.arr k.quadRef).token = true ∧
          (u.arr k.quadRef).wantToken = false ∧ (u.arr k.quadRef).holdUntil = (s1.arr k.quadRef).hold.map fun h => s.now + h)) ∧
    (∀ (cx i : Nat) (c : MCmd), (s.ctx cx).cmds[i]? = some c → s.enginesUp cx = true → c.kind ≠ 3 →
      let q : QuadRef := ⟨cx, c.die, c.quad⟩;
      let cause := capCause (s.quad q) c;
      (cause = 0 → (s.arr q).occ < 8 → ∃ u : State, exec (.msendCommandArrival cx i) s = .next u ∧
        (u.ctx cx).cmds = (s.ctx cx).cmds.eraseIdx i ∧
        (u.ctx cx).replies = (s.ctx cx).replies ++ [{ dst := c.from_, id := c.id, cause := 0 }] ∧
        (u.arr q).occ = (s.arr q).occ + 1)) ∧
    (∀ (cx i o : Nat) (y : MReply), (s.ctx cx).replies[i]? = some y → (s.slot y.dst).reply = some (y.id, o) →
      ∃ u : State, exec (.msendReply cx i) s = .next u ∧ (u.slot y.dst).reply = some (y.id, y.cause) ∧
        (u.ctx cx).replies = (s.ctx cx).replies.eraseIdx i) ∧
    (∀ (q : QuadRef) (i : Nat) (e : SbEnt), (s.quad q).sb[i]? = some e → s.up q.ctx = true → s.canLeave e = true →
      (((s.quad q).sb.take i).any fun x => x.line == e.line) = false →
      let s1 := ((if e.out then s else s.bridgeOut q.ctx q.die [e.line]).store e.bytes).modQuad q fun x => { x with sb := x.sb.eraseIdx i };
      exec (.storeReachesHome q i) s = .next (if farEnt e then s1.linkGood (keyUnit (64 * e.line)) else s1)) ∧
    (∀ a len : Nat, ∃ u : State, exec (.frameZeroingComplete 0 a len) s = .next u ∧
      (s.Inv → ∀ k, memGet k u.mem = if pkey .hbm 0 a ≤ k ∧ k < pkey .hbm 0 a + len then 0 else memGet k s.mem)) ∧
    (∀ (p sq : Nat) (f : Aop) (key : Nat) (a b : W32), (s.peer p).above sq = true → key % 4 = 0 →
      let k := pkey .hbm 0 key;
      let old : W32 := BitVec.ofNat 32 (s.loadLE k 4);
      poisoned s (keysFrom k 4) = none → exec (.scaleupAtomicRequest p sq f key a b) s =
        .next ((s.storeLE k 4 (aop f old a b).toNat).modPeer p fun x => x.keep (sq % 2 ^ 32) old)) ∧
    (∀ (p sq : Nat) (v : W32) (q : Remote), ((s.peer p).out.find? fun q => q.seq == sq) = some q → q.res = some v → s.linkUp = true →
      exec (.scaleupAtomicReply p sq v) s = .next ((s.modSlot q.who fun t =>
        { t with flights := t.flights.map fun f => if f.isRemote p sq then f.arrived v else f }).requestOver p sq |>.linkGood p)) ∧
    (∀ (p sq : Nat) (q : Remote), ((s.peer p).out.find? fun q => q.seq == sq) = some q → q.tries ≠ 0 → q.sent + 12800 ≤ s.now →
      (q.tries < 8 → exec (.scaleupRetransmit p sq) s = .next (s.modPeer p fun x => { x with out := x.out.map fun y =>
        if y.seq = sq then { y with tries := y.tries + 1, sent := s.now } else y })) ∧
      (8 ≤ q.tries → exec (.scaleupRetransmit p sq) s = .next
        (((s.modSlot q.who fun t => { t with flights := t.flights.filter fun f => !f.isRemote p sq }).linkFault q.who p sq 8).requestOver p sq))) ∧
    (∀ l < 32,
      let x := mget {} l s.links;
      let s1 : State := { s with links := mput l { x with works := false } s.links };
      let s2 : State := { s with links := mput l { x with replays := 0 } s.links };
      let moves (p : Nat × Peer) : Nat × Peer :=
        if s.linkFor p.1 = some l ∧ s1.linkUp = true ∧ (p.2.out.any fun q => q.tries != 0) = true then (p.1, { p.2 with moving := true })
        else p;
      exec (.linkFailure l) s = .next { s1 with peers := s.peers.map moves } ∧
      (x.works = true → x.replays < 7 → exec (.linkLevelReplay l) s =
        .next { s with links := mput l { x with replays := x.replays + 1 } s.links }) ∧
      (x.works = true → 7 ≤ x.replays → exec (.linkLevelReplay l) s = .next (match s2.slots.findSome? (s2.farAccess l) with
        | some y => (s2.dropFar y.1 y.2).linkFault y.1 y.2 0 8
        | none => s2))) ∧
    (∀ p : Nat, (s.peer p).moving = true → ((s.peer p).out.any fun q => q.tries != 0) = true → s.sendAtomics p = s)

/-- 10 R217 to R228; 06 R135, R139 to R141, R147; 07 R153 to R158; 21 R374, R380; 02 R41, R45. The model's choices it
rests on: router and capability entries go to the context that cxsel selects (log 21); a queue depth of 1 to 3 is
ignored (log 22); a quad is fenced in two stages (log 38); the driver's commands do nothing at any boot but 2 (log
40); V is 0 at an assignment (log 39); a save takes two events (log 50); a killed swapped-out task's messages stay
with its home core (log 90). -/
def Obligations.SwitchesHaltsAndDriverEvents : Prop :=
  ∀ s : State, (s.boot ≠ 2 → ∀ (cx p q : Nat) (v w : Word), exec (.contextCreate cx) s = .next s ∧ exec (.contextDestroy cx) s = .next s ∧
      exec (.graphLoad cx) s = .next s ∧ exec (.partitionForm p) s = .next s ∧ exec (.gangSwitchRequest p v w) s = .next s ∧
      exec (.jobQueueAssign p q v w) s = .next s ∧ exec (.haltStopCommand p q) s = .next s ∧ exec (.swcmdKill p v) s = .next s) ∧
    (s.boot = 2 →
    (∀ (p : Nat) (t v : Word),
      let s1 := (s.modPart p fun x => { x with pswtime := t }).modPart p fun x =>
        { x with prio := v.extractLsb' 16 2, tctx := v.setWidth 16 };
      let x := s1.part p;
      (x.place.isSome = true → s1.fitsPart p (bits v 0 16) = true → x.st < 2 → bits v 0 16 ≠ x.ctx →
        exec (.gangSwitchRequest p t v) s = .next (s1.modPart p fun x =>
          { x with res := if x.st = 1 then 2 else 0, st := 1, cur := some { t := t, prio := bits v 16 2, ctx := bits v 0 16 } })) ∧
      (s1.fitsPart p (bits v 0 16) = false →
        exec (.gangSwitchRequest p t v) s = .next (s1.modPart p fun x => { x with res := 4 }))) ∧
    (∀ (p : Nat) (q : SwReq), (s.part p).cur = some q → (s.part p).st = 1 → q.t ≤ s.clock →
      exec (.gangSwitchStart p) s = .next (s.stopPart p)) ∧
    (∀ p : Nat, ((s.part p).st = 3 → exec (.gangSwitchSave p) s = .next (s.saveNow p)) ∧
      ((s.part p).st = 2 → (s.part p).ctx = 0 →
        exec (.gangSwitchSave p) s = .next (s.modPart p fun x => { x with st := 3 })) ∧
      ((s.part p).st = 2 → (s.part p).ctx ≠ 0 →
        let s1 := (s.rest (s.part p).ctx).performAll (s.part p).ctx;
        exec (.gangSwitchSave p) s = .next (if s1.mustWait (s.part p).ctx then s1
          else (s1.dropTokens (s.part p).ctx).modPart p fun x => { x with st := 3 }))) ∧
    (∀ (p : Nat) (q : SwReq) (pl : Place), (s.part p).cur = some q → (s.part p).place = some pl → (s.part p).st = 4 →
      s.fitsPart p q.ctx = true → q.ctx ≠ 0 →
      exec (.gangSwitchRestore p) s = .next ((s.enter p q.ctx pl).modPart p fun y =>
        { y with st := if y.queued.isSome then 1 else 0, cur := y.queued, queued := none, res := 1 })) ∧
    (∀ pd g : Nat, exec (.haltStopCommand pd g) s = .next (s.haltGroups pd [g])) ∧
    (∀ pd g : Nat,
      let h := mget {} g (s.pdie pd).halts;
      let s1 := s.noteRelease pd g;
      let s2 := s1.modPdie pd fun y => { y with halts := mput g { h with st := 0 } y.halts };
      (∀ cx, (s1.ctx cx).halted = (s.ctx cx).halted.map (SavedHalt.release pd g)) ∧
      (h.st = 0 → exec (.haltRelease pd g) s = .next s1) ∧
      (h.st ≠ 0 → exec (.haltRelease pd g) s = .next (s2.released (s2.members pd h) (g + 16 * pd) h.since))) ∧
    (∀ (pd k sl : Nat) (r : SlotRef) (d : Nat), s.dctlSlot pd k sl = some (r, d) → (d = 2 ∨ d = 4) →
      exec (.dctlResume pd k sl) s = .next (((s.modSlot r resumed).unfreeze r (resumed (s.slot r)).pc).dctlDone pd k sl) ∧
      exec (.dctlRestart pd k sl) s = .next (
        let s1 := (s.dropPoisoned r).modSlot r fun t => { t with rep := none };
        (s1.unfreeze r (s1.slot r).npc).dctlDone pd k sl) ∧
      exec (.dctlKill pd k sl) s = .next (((s.dropPoisoned r).finish r true).dctlDone pd k sl)) ∧
    (∀ (pd k sl : Nat) (r : SlotRef), s.dctlSlot pd k sl = some (r, 3) →
      exec (.dctlKill pd k sl) s = .next ((s.finish r true).dctlDone pd k sl)) ∧
    (∀ (pd : Nat) (a : Word), s.swTask pd a.toNat = none →
      exec (.swcmdRequeue pd a) s = .next (s.swResult pd 2) ∧ exec (.swcmdKill pd a) s = .next (s.swResult pd 2)) ∧
    (∀ (pd : Nat) (a : Word) (cx : Nat) (w : Swapped), s.swTask pd a.toNat = some (cx, w) → w.held = true →
      exec (.swcmdRequeue pd a) s = .next ((s.requeue cx a.toNat).swResult pd 1) ∧
      exec (.swcmdKill pd a) s = .next ((s.killSwapped cx a.toNat w).swResult pd 1)) ∧
    (∀ pd q : Nat, pd < 4 → q < 64 → (s.pdie pd).fenced.getLsbD q = false →
      let fence (s : State) : State :=
        (({ (s.modPdie pd fun d => { d with fenced := setM d.fenced q }) with rr := true } : State).notice pd 0 5
          (toW (pd * 64 + q))).ucieSend 0x200;
      (s.partOfQuad pd q = none → exec (.quadFence pd q) s = .next (fence s)) ∧
      (∀ p, s.partOfQuad pd q = some p →
        ((s.part p).ctx = 0 → (s.part p).st ≤ 1 → exec (.quadFence pd q) s = .next (fence (s.dropPart p))) ∧
        ((s.part p).ctx ≠ 0 ∨ 1 < (s.part p).st → exec (.quadFence pd q) s = .next (s.modPart p Part.evict)))) ∧
    (∀ p : Nat, s.trip = false → s.cooling = false → p < 16 → (s.part p).place = none →
      (∀ pl, s.formed.length < 16 → shapeOfReg (s.part p).pshape = some pl →
        (pl.quads.all fun q => (s.partOfQuad q.1 q.2).isNone && !(s.pdie q.1).fenced.getLsbD q.2) = true →
        exec (.partitionForm p) s = .next (s.modPart p fun x => { x with pstat := 1, place := some pl })) ∧
      (s.formed.length < 16 → shapeOfReg (s.part p).pshape = none →
        exec (.partitionForm p) s = .next (s.modPart p fun x => { x with pstat := 5, place := none }))) ∧
    (∀ p : Nat, (s.part p).place.isSome = true →
      ((s.part p).ctx ≠ 0 → exec (.partitionDissolve p) s = .next (s.modPart p fun x => { x with pstat := 6 })) ∧
      ((s.part p).ctx = 0 → exec (.partitionDissolve p) s = .next (s.modPart p fun x =>
        { x with place := none, ctx := 0, st := 0, cur := none, queued := none, pstat := 0 }))) ∧
    (∀ cx : Nat, 0 < cx → cx < 65536 → (s.ctx cx).exist = false →
      ∃ u : State, exec (.contextCreate cx) s = .next u ∧ (u.ctx cx).exist = true ∧ (u.ctx cx).resident = none ∧ u.cxstat = 0) ∧
    (∀ cx : Nat, (s.ctx cx).exist = true →
      ((s.ctx cx).resident = none → exec (.contextDestroy cx) s = .next { s.forgetCtx cx with cxstat := 0 }) ∧
      ((s.ctx cx).resident.isSome = true → exec (.contextDestroy cx) s = .next { s with cxstat := cxRefused 17 0 0 }) ∧
      ((s.ctx cx).resident = none → (s.ctx cx).onlyStarts = true →
        (∀ part num, s.checkGraph (pkey .hbm 0 (s.ctx cx).cxgraph.toNat) = .bad part num →
          exec (.graphLoad cx) s = .next { s with cxstat := cxRefused 2 part num }) ∧
        (∀ nloc starts edges, s.checkGraph (pkey .hbm 0 (s.ctx cx).cxgraph.toNat) = .ok nloc starts edges →
          ∃ u : State, exec (.graphLoad cx) s = .next u ∧ u.cxstat = 0 ∧ (u.ctx cx).nloc = nloc ∧ (u.ctx cx).edges = edges ∧
            (u.ctx cx).counts = startCounts starts ∧ (u.ctx cx).f = frontier edges (startCounts starts) false))) ∧
    (∀ (pd k g : Nat) (v : W32) (c : CoreRef) (pl : Place), s.coreOfCtx (s.sel .host .cx).toNat pd k = some c →
      s.placeAt pd k = some pl →
      (groupEntryOk pl c v = true → exec (.routerEntryWrite pd k g v) s =
        .next ((s.modCore c fun x => { x with groups := mput (g % 1024) v x.groups }).setSel .host .rtBad 0)) ∧
      (groupEntryOk pl c v = false → exec (.routerEntryWrite pd k g v) s = .next (s.setSel .host .rtBad 1))) ∧
    (∀ (pd q e : Nat) (lo hi : Word) (c : CoreRef), s.coreOfCtx (s.sel .host .cx).toNat pd (coreAt q 0) = some c →
      exec (.capabilityEntryWrite pd q e lo hi) s = .next (if capEntryOk lo hi then
        (s.modQuad c.quadRef fun x => { x with caps := mput (e % 64) (hi ++ lo) x.caps }).setSel .host .capBad 0
        else s.setSel .host .capBad 1)) ∧
    (∀ (cx : Nat) (a sq : Word), exec (.ringEntryDiscard cx a sq) s = .next (match s.discard cx a.toNat sq.toNat with
      | some u => u.setSel .host .rdBad 0
      | none => s.setSel .host .rdBad 1)) ∧
    (∀ (pd k : Nat) (v : W32),
      let q := mget {} k (s.pdie pd).dls;
      ((q.tail - v).toNat ≤ Config.deadLetters → exec (.deadLetterHeadWrite pd k v) s =
        .next (s.modPdie pd fun d => { d with dls := mput k { q with head := v } d.dls })) ∧
      (((s.pdie pd).sqTail - v).toNat ≤ 4096 → exec (.supervisorQueueHeadWrite pd v) s =
        .next (s.modPdie pd fun d => { d with sqHead := v })) ∧
      (k < 3 → exec (.freeFrameTailWrite pd k v) s = .next ((s.modFree pd k fun q => { q with tail := v }).lowNotice pd k))) ∧
    (∀ (pd q : Nat) (v bs : Word), q ≤ 255 → (bits v 28 4 = 0 ∨ 4 ≤ bits v 28 4) →
      ∃ u : State, exec (.jobQueueAssign pd q v bs) s = .next u ∧ (u.pdie pd).v = 0 ∧
        let j := mget {} q (u.pdie pd).jobs;
        j.ctx = bits v 0 16 ∧ j.pass = 0 ∧ j.base = bs ∧ j.tickets = (if bits v 16 10 = 0 then 1024 else bits v 16 10) ∧
          j.depth = (if bits v 28 4 = 0 then 16 else bits v 28 4)) ∧
    (∀ (pd q : Nat) (v bs : Word), 255 < q ∨ (1 ≤ bits v 28 4 ∧ bits v 28 4 < 4) → exec (.jobQueueAssign pd q v bs) s = .next s) ∧
    (∀ (cx a : Nat) (w : Swapped), w.slot.send ≠ [] →
      ((s.dropSwapped cx a w).core ⟨cx, w.die, w.core⟩).osend = (s.core ⟨cx, w.die, w.core⟩).osend ++ w.slot.send))

/-- 21 R372 to R383; 10 R219, R228. The model's choices it rests on: what a reset keeps (log 43), the verification as one
event (log 50), the cause of a card that cannot be read (log 52), a trip behind a switch in progress (log 55), the
events that write pwrstat (log 56), the report as a free function of what it is made of (log 57), the value 0 of an
unaligned read (log 23), the blocks that are silent at any boot but 2 (log 40), fencing beyond the threshold and not
at it (log 83). -/
def Obligations.HostAndDeviceEvents : Prop :=
  ∀ s : State,
    (∀ (q : Nat) (v : Word), s.boot = 2 → q ≤ 255 → (mget {} q s.hostqs).en = false →
      let y : HostQ := { mget {} q s.hostqs with cfg := toW (bits v 0 30) };
      ∃ u : State, exec (.hostQueueConfig q v) s = .next u ∧
        mget {} q u.hostqs = if s.hostCfgOk y then y else { y with cfg := y.cfg &&& ~~~(1#64 <<< 28) }) ∧
    (∀ (q : Nat) (v : W32), s.boot = 2 → q ≤ 255 →
      ∃ u : State, exec (.hostQueueDoorbell q v) s = .next u ∧ (mget {} q u.hostqs).tail = v ∧
        ((mget {} q s.hostqs).depth < (v - (mget {} q s.hostqs).head).toNat → (mget {} q u.hostqs).en = false)) ∧
    (∀ n : Nat, n ≤ 255 →
      let q := mget {} n s.hostqs;
      let a := toW (s.loadLE (pkey .hbm 0 (bits q.base 0 52 + 8 * (q.head.toNat % q.depth))) 8);
      q.en = true → q.head ≠ q.tail → s.enginesUp q.ctx = true →
      (∀ tr, s.readCard q.ctx (hostPoster s n q) a.toNat = .error (.trap tr) →
        exec (.hostQueueEntry n) s = .next (s.hostRefuse n a q.head 2 tr.cause)) ∧
      (∀ p, s.readCard q.ctx (hostPoster s n q) a.toNat = .ok p →
        (p.rsv.isSome = true → exec (.hostQueueEntry n) s = .next (s.hostRefuse n a q.head 2 2)) ∧
        (p.rsv = none → p.card.time < mget Time.never p.card.loc (s.ctx q.ctx).f →
          exec (.hostQueueEntry n) s = .next (s.hostRefuse n a q.head 3 0)) ∧
        (p.rsv = none → mget Time.never p.card.loc (s.ctx q.ctx).f ≤ p.card.time →
          (mget {} p.card.queue (s.pdie (s.physDie q.ctx q.die)).jobs).full = false → s.tilthFull q.ctx q.die = false →
          exec (.hostQueueEntry n) s = .next (s.hostAccept n q a p)))) ∧
    (∀ (q : Nat) (v : W32), s.boot = 2 → q ≤ 255 → (mget {} q s.hostqs).waiting = [] →
      ∃ u : State, exec (.hostCompletionHeadWrite q v) s = .next u ∧ (mget {} q u.hostqs).chead = v) ∧
    (∀ (off : Nat) (v : Word), off < 2 ^ 25 → off % 8 = 0 →
      let k := pkey .hbm 0 (bits s.hwin 0 27 * 2 ^ 25 + off);
      poisoned s (keysFrom k 8) = none → exec (.hostHbmAccess true off v) s = .next (s.storeLE k 8 v.toNat)) ∧
    (s.boot ≠ 2 → exec .firmwareLoad s = .next (if Config.imageVerifies s.stagedImage = true
      then (({ s with boot := 2, bver := Config.imageVersion s.stagedImage, fwdig := Config.imageDigest s.stagedImage } : State).selfTest s.now) else { s with boot := 3 })) ∧
    (s.boot = 2 → exec .firmwareLoad s = .next s) ∧ exec .attestationRequest s = .next { s with areq := true, adone := false } ∧
    (s.areq = true → exec .attestationReady s = .next {
      s with
      areq := false, adone := true, fresh := s.fresh + 1,
      attest := [toW s.fresh, mget 0 0x30100 s.regs, mget 0 0x30108 s.regs, mget 0 0x30110 s.regs, mget 0 0x30118 s.regs, s.bver,
        s.fwdig.extractLsb' 0 64, s.fwdig.extractLsb' 64 64, s.fwdig.extractLsb' 128 64, s.fwdig.extractLsb' 192 64,
        (s.pdie 0).fenced, (s.pdie 1).fenced, (s.pdie 2).fenced, (s.pdie 3).fenced] }) ∧
    (∀ v : Word, s.boot = 2 → s.formed = [] → 800 ≤ bits v 8 16 → bits v 8 16 ≤ 3200 → bits v 4 4 ≠ 0 →
      ∃ u : State, exec (.powerConfigWrite v) s = .next u ∧ u.pwrcfg = toW (bits v 0 24) ∧
        ∀ d < 4, (u.pdie d).tokens = List.replicate (bits v 4 4) 0) ∧
    (∀ tj pw : Nat,
      (95 < tj ∨ bits s.pwrcfg 8 16 < pw → exec (.thermalThrottle tj pw) s =
        .next { s with thr := true, pwrstat := toW (pw % 65536 + tj % 256 * 65536),
                       cooling := s.cooling && decide (95 ≤ tj % 256) }) ∧
      (s.thr = true → tj < 95 → pw < bits s.pwrcfg 8 16 → exec (.thermalThrottleEnd tj pw) s =
        .next { s with thr := false, pwrstat := toW (pw % 65536 + tj % 256 * 65536),
                       cooling := s.cooling && decide (95 ≤ tj % 256) })) ∧
    (s.trip = false → 110 ≤ bits s.pwrstat 16 8 → ∃ u : State, exec .thermalTrip s = .next u ∧ u.trip = true ∧ u.cooling = true ∧
      u.parts = s.parts.map fun p => (p.1, p.2.tripSwitch (s.clock + 1))) ∧
    (∀ key : Nat, keyKind key ≠ 9 → granuleSize (keyKind key) ≠ 0 →
      ∃ u : State, exec (.uncorrectableError key) s = .next u ∧ granuleOf key ∈ u.poison ∧ u.mem = s.mem) ∧
    (s.trip = true ∨ bits s.pwrstat 16 8 < 110 → exec .thermalTrip s = .next s) ∧
    (∀ pd q : Nat,
      let now := s.clock.toNat;
      let old := (mget [] q (s.pdie pd).quadErrs).filter fun t => decide (now < t + 2 ^ 36);
      let counted := s.modPdie pd fun d => { d with
        corrected := if d.corrected = BitVec.allOnes 64 then BitVec.allOnes 64 else d.corrected + 1
        quadErrs := mput q (old ++ [now]) d.quadErrs };
      (old.length + 1 ≤ s.cerrth.toNat → exec (.correctedError pd q) s = .next counted) ∧
      (s.cerrth.toNat < old.length + 1 → exec (.correctedError pd q) s = .next (counted.fenceQuad pd q))) ∧
    (∀ (ag : Agent) (off : Nat) (v : Word) (u : State), s.plainWrite ag off v = some u →
      exec (.registerWrite ag off v) s = .next u) ∧
    (∀ (ag : Agent) (v : Word), s.boot = 2 → exec (.registerWrite ag 0x260 v) s = .next { s with cerrth := v } ∧
      exec (.registerWrite ag 0x1000100 v) s = .next (s.setSel ag .cx (toW (bits v 0 16)))) ∧
    (∀ (ag : Agent) (off : Nat), off % 8 ≠ 0 ∨ (s.boot ≠ 2 ∧ 0x10000 ≤ off ∧ off < 0x30000) → s.ctlRead ag off = 0) ∧
    (∀ ag : Agent, s.boot = 2 → s.ctlRead ag 0x20000 = s.pwrcfg ∧ s.ctlRead ag 0x20008 = s.pwrstat ∧ s.ctlRead ag 0x1000110 = s.cxstat) ∧
    exec .deviceReset s = .next
      (({ State.reset with
        cooling := s.cooling,
        now := s.now, pclock := s.now, pkg := s.pkg, drives := s.drives, links := s.links, ucie := s.ucie,
        mem := s.mem.filter fun c => [3, 4, 5, 6, 8].contains (keyKind c.1),
        full := s.full.filter fun k => keyKind k == 3,
        poison := s.poison.filter fun k => keyKind k == 3 || keyKind k == 4,
        cur := s.cur, agenda := s.agenda, ids := s.ids, fresh := s.fresh } : State).bootFrom)
end

