-- ==== Sys2Proof/Laws/State.lean ====
section
/-! SUPPORT. What the updates of the state leave alone: one lemma per field and update; the tables read back what was put in. -/

namespace Sys2Proof.Machine

open Sys2Proof

/-! ## Tables -/

variable {α : Type}

theorem mfind_mput_same (k : Nat) (x : α) (m : Map α) : mfind k (mput k x m) = some x := by
  induction m with
  | nil => simp [mput, mfind]
  | cons p m ih =>
    obtain ⟨j, y⟩ := p
    by_cases h : k = j
    · simp [mput, mfind, h]
    · by_cases g : k < j
      · simp [mput, mfind, h, g]
      · simp [mput, mfind, h, g, ih]

theorem mfind_mput_ne {i k : Nat} (h : i ≠ k) (x : α) (m : Map α) : mfind i (mput k x m) = mfind i m := by
  induction m with
  | nil =>
    have : ¬ i = k := h
    by_cases g : i < k <;> simp [mput, mfind, this, g]
  | cons p m ih =>
    obtain ⟨j, y⟩ := p
    rcases Nat.lt_trichotomy k j with g | g | g
    · have h1 : ¬ k = j := by omega
      by_cases g2 : i < k
      · have h2 : ¬ i = j := by omega
        have h3 : i < j := by omega
        simp [mput, mfind, h1, g, h, g2, h2, h3]
      · simp [mput, mfind, h1, g, h, g2]
    · subst g; simp [mput, mfind, h]
    · have h1 : ¬ k = j := by omega
      have h2 : ¬ k < j := by omega
      simp [mput, mfind, h1, h2, ih]

@[simp] theorem mget_mput_same (d : α) (k : Nat) (x : α) (m : Map α) : mget d k (mput k x m) = x := by
  simp [mget, mfind_mput_same]

theorem mget_mput_ne (d : α) {i k : Nat} (h : i ≠ k) (x : α) (m : Map α) : mget d i (mput k x m) = mget d i m := by
  simp [mget, mfind_mput_ne h]

@[simp] theorem mget_nil (d : α) (k : Nat) : mget d k ([] : Map α) = d := rfl

/-! ## Reading back -/

@[simp] theorem slot_setSlot (s : State) (r : SlotRef) (t : Slot) : (s.setSlot r t).slot r = t := by
  simp [State.slot, State.setSlot]
@[simp] theorem slot_modSlot (s : State) (r : SlotRef) (f : Slot → Slot) : (s.modSlot r f).slot r = f (s.slot r) := by
  simp [State.modSlot]
@[simp] theorem core_modCore (s : State) (k : CoreRef) (f : Core → Core) : (s.modCore k f).core k = f (s.core k) := by
  simp [State.core, State.modCore]
@[simp] theorem quad_modQuad (s : State) (q : QuadRef) (f : Quad → Quad) : (s.modQuad q f).quad q = f (s.quad q) := by
  simp [State.quad, State.modQuad]
@[simp] theorem die_modDie (s : State) (cx d : Nat) (f : Die → Die) : (s.modDie cx d f).die cx d = f (s.die cx d) := by
  simp [State.die, State.modDie]
@[simp] theorem pdie_modPdie (s : State) (d : Nat) (f : PDie → PDie) : (s.modPdie d f).pdie d = f (s.pdie d) := by
  simp [State.pdie, State.modPdie]
@[simp] theorem ctx_modCtx (s : State) (cx : Nat) (f : Ctx → Ctx) : (s.modCtx cx f).ctx cx = f (s.ctx cx) := by
  simp [State.ctx, State.modCtx]
@[simp] theorem part_modPart (s : State) (p : Nat) (f : Part → Part) : (s.modPart p f).part p = f (s.part p) := by
  simp [State.part, State.modPart]
@[simp] theorem peer_modPeer (s : State) (p : Nat) (f : Peer → Peer) : (s.modPeer p f).peer p = f (s.peer p) := by
  simp [State.peer, State.modPeer]
@[simp] theorem box_modBox (s : State) (k : CoreRef) (b : Nat) (f : Box → Box) : (s.modBox k b f).box k b = f (s.box k b) := by
  simp [State.box, State.modBox]

/-- Slots in range have keys of their own. -/
theorem slotKey_inj {r q : SlotRef} (hr : r.ok) (hq : q.ok) (h : slotKey r = slotKey q) : r = q := by
  obtain ⟨a, b, c, d⟩ := r
  obtain ⟨e, f, g, i⟩ := q
  simp only [SlotRef.ok, Bool.and_eq_true, decide_eq_true_eq] at hr hq
  simp only [slotKey, dieKey] at h
  have h1 : a = e := by omega
  have h2 : b = f := by omega
  have h3 : c = g := by omega
  have h4 : d = i := by omega
  subst h1 h2 h3 h4; rfl

theorem slot_setSlot_ne {r q : SlotRef} (h : slotKey q ≠ slotKey r) (s : State) (t : Slot) :
    (s.setSlot r t).slot q = s.slot q := by
  simp [State.slot, State.setSlot, mget_mput_ne _ h]
theorem slot_modSlot_ne {r q : SlotRef} (h : slotKey q ≠ slotKey r) (s : State) (f : Slot → Slot) :
    (s.modSlot r f).slot q = s.slot q := slot_setSlot_ne h s _
theorem ctx_modCtx_ne {a b : Nat} (h : a ≠ b) (s : State) (f : Ctx → Ctx) : (s.modCtx b f).ctx a = s.ctx a := by
  simp [State.ctx, State.modCtx, mget_mput_ne _ h]
theorem part_modPart_ne {a b : Nat} (h : a ≠ b) (s : State) (f : Part → Part) : (s.modPart b f).part a = s.part a := by
  simp [State.part, State.modPart, mget_mput_ne _ h]
theorem pdie_modPdie_ne {a b : Nat} (h : a ≠ b) (s : State) (f : PDie → PDie) : (s.modPdie b f).pdie a = s.pdie a := by
  simp [State.pdie, State.modPdie, mget_mput_ne _ h]

/-! ## What an update leaves alone -/

@[simp] theorem State.setSlot_now (s : State) (r : SlotRef) (t : Slot) : (s.setSlot r t).now = s.now := rfl
@[simp] theorem State.setSlot_boxes (s : State) (r : SlotRef) (t : Slot) : (s.setSlot r t).boxes = s.boxes := rfl
@[simp] theorem State.setSlot_cores (s : State) (r : SlotRef) (t : Slot) : (s.setSlot r t).cores = s.cores := rfl
@[simp] theorem State.setSlot_quads (s : State) (r : SlotRef) (t : Slot) : (s.setSlot r t).quads = s.quads := rfl
@[simp] theorem State.setSlot_dies (s : State) (r : SlotRef) (t : Slot) : (s.setSlot r t).dies = s.dies := rfl
@[simp] theorem State.setSlot_pdies (s : State) (r : SlotRef) (t : Slot) : (s.setSlot r t).pdies = s.pdies := rfl
@[simp] theorem State.setSlot_ctxs (s : State) (r : SlotRef) (t : Slot) : (s.setSlot r t).ctxs = s.ctxs := rfl
@[simp] theorem State.setSlot_parts (s : State) (r : SlotRef) (t : Slot) : (s.setSlot r t).parts = s.parts := rfl
@[simp] theorem State.setSlot_hostqs (s : State) (r : SlotRef) (t : Slot) : (s.setSlot r t).hostqs = s.hostqs := rfl
@[simp] theorem State.setSlot_peers (s : State) (r : SlotRef) (t : Slot) : (s.setSlot r t).peers = s.peers := rfl
@[simp] theorem State.setSlot_links (s : State) (r : SlotRef) (t : Slot) : (s.setSlot r t).links = s.links := rfl
@[simp] theorem State.setSlot_mem (s : State) (r : SlotRef) (t : Slot) : (s.setSlot r t).mem = s.mem := rfl
@[simp] theorem State.setSlot_full (s : State) (r : SlotRef) (t : Slot) : (s.setSlot r t).full = s.full := rfl
@[simp] theorem State.setSlot_poison (s : State) (r : SlotRef) (t : Slot) : (s.setSlot r t).poison = s.poison := rfl
@[simp] theorem State.setSlot_drives (s : State) (r : SlotRef) (t : Slot) : (s.setSlot r t).drives = s.drives := rfl
@[simp] theorem State.setSlot_pkg (s : State) (r : SlotRef) (t : Slot) : (s.setSlot r t).pkg = s.pkg := rfl
@[simp] theorem State.setSlot_boot (s : State) (r : SlotRef) (t : Slot) : (s.setSlot r t).boot = s.boot := rfl
@[simp] theorem State.setSlot_rr (s : State) (r : SlotRef) (t : Slot) : (s.setSlot r t).rr = s.rr := rfl
@[simp] theorem State.setSlot_supf (s : State) (r : SlotRef) (t : Slot) : (s.setSlot r t).supf = s.supf := rfl
@[simp] theorem State.setSlot_thr (s : State) (r : SlotRef) (t : Slot) : (s.setSlot r t).thr = s.thr := rfl
@[simp] theorem State.setSlot_trip (s : State) (r : SlotRef) (t : Slot) : (s.setSlot r t).trip = s.trip := rfl
@[simp] theorem State.setSlot_bver (s : State) (r : SlotRef) (t : Slot) : (s.setSlot r t).bver = s.bver := rfl
@[simp] theorem State.setSlot_bstage (s : State) (r : SlotRef) (t : Slot) : (s.setSlot r t).bstage = s.bstage := rfl
@[simp] theorem State.setSlot_pwrcfg (s : State) (r : SlotRef) (t : Slot) : (s.setSlot r t).pwrcfg = s.pwrcfg := rfl
@[simp] theorem State.setSlot_pwrstat (s : State) (r : SlotRef) (t : Slot) : (s.setSlot r t).pwrstat = s.pwrstat := rfl
@[simp] theorem State.setSlot_cerrth (s : State) (r : SlotRef) (t : Slot) : (s.setSlot r t).cerrth = s.cerrth := rfl
@[simp] theorem State.setSlot_hwin (s : State) (r : SlotRef) (t : Slot) : (s.setSlot r t).hwin = s.hwin := rfl
@[simp] theorem State.setSlot_cooling (s : State) (r : SlotRef) (t : Slot) : (s.setSlot r t).cooling = s.cooling := rfl
@[simp] theorem State.setSlot_fwdig (s : State) (r : SlotRef) (t : Slot) : (s.setSlot r t).fwdig = s.fwdig := rfl
@[simp] theorem State.setSlot_attest (s : State) (r : SlotRef) (t : Slot) : (s.setSlot r t).attest = s.attest := rfl
@[simp] theorem State.setSlot_areq (s : State) (r : SlotRef) (t : Slot) : (s.setSlot r t).areq = s.areq := rfl
@[simp] theorem State.setSlot_adone (s : State) (r : SlotRef) (t : Slot) : (s.setSlot r t).adone = s.adone := rfl
@[simp] theorem State.setSlot_cxstat (s : State) (r : SlotRef) (t : Slot) : (s.setSlot r t).cxstat = s.cxstat := rfl
@[simp] theorem State.setSlot_regs (s : State) (r : SlotRef) (t : Slot) : (s.setSlot r t).regs = s.regs := rfl
@[simp] theorem State.setSlot_sels (s : State) (r : SlotRef) (t : Slot) : (s.setSlot r t).sels = s.sels := rfl
@[simp] theorem State.setSlot_ucie (s : State) (r : SlotRef) (t : Slot) : (s.setSlot r t).ucie = s.ucie := rfl
@[simp] theorem State.setSlot_pclock (s : State) (r : SlotRef) (t : Slot) : (s.setSlot r t).pclock = s.pclock := rfl
@[simp] theorem State.setSlot_cur (s : State) (r : SlotRef) (t : Slot) : (s.setSlot r t).cur = s.cur := rfl
@[simp] theorem State.setSlot_agenda (s : State) (r : SlotRef) (t : Slot) : (s.setSlot r t).agenda = s.agenda := rfl
@[simp] theorem State.setSlot_ids (s : State) (r : SlotRef) (t : Slot) : (s.setSlot r t).ids = s.ids := rfl
@[simp] theorem State.setSlot_fresh (s : State) (r : SlotRef) (t : Slot) : (s.setSlot r t).fresh = s.fresh := rfl
@[simp] theorem State.setSlot_far (s : State) (r : SlotRef) (t : Slot) : (s.setSlot r t).far = s.far := rfl

@[simp] theorem State.modSlot_now (s : State) (r : SlotRef) (f : Slot → Slot) : (s.modSlot r f).now = s.now := rfl
@[simp] theorem State.modSlot_boxes (s : State) (r : SlotRef) (f : Slot → Slot) : (s.modSlot r f).boxes = s.boxes := rfl
@[simp] theorem State.modSlot_cores (s : State) (r : SlotRef) (f : Slot → Slot) : (s.modSlot r f).cores = s.cores := rfl
@[simp] theorem State.modSlot_quads (s : State) (r : SlotRef) (f : Slot → Slot) : (s.modSlot r f).quads = s.quads := rfl
@[simp] theorem State.modSlot_dies (s : State) (r : SlotRef) (f : Slot → Slot) : (s.modSlot r f).dies = s.dies := rfl
@[simp] theorem State.modSlot_pdies (s : State) (r : SlotRef) (f : Slot → Slot) : (s.modSlot r f).pdies = s.pdies := rfl
@[simp] theorem State.modSlot_ctxs (s : State) (r : SlotRef) (f : Slot → Slot) : (s.modSlot r f).ctxs = s.ctxs := rfl
@[simp] theorem State.modSlot_parts (s : State) (r : SlotRef) (f : Slot → Slot) : (s.modSlot r f).parts = s.parts := rfl
@[simp] theorem State.modSlot_hostqs (s : State) (r : SlotRef) (f : Slot → Slot) : (s.modSlot r f).hostqs = s.hostqs := rfl
@[simp] theorem State.modSlot_peers (s : State) (r : SlotRef) (f : Slot → Slot) : (s.modSlot r f).peers = s.peers := rfl
@[simp] theorem State.modSlot_links (s : State) (r : SlotRef) (f : Slot → Slot) : (s.modSlot r f).links = s.links := rfl
@[simp] theorem State.modSlot_mem (s : State) (r : SlotRef) (f : Slot → Slot) : (s.modSlot r f).mem = s.mem := rfl
@[simp] theorem State.modSlot_full (s : State) (r : SlotRef) (f : Slot → Slot) : (s.modSlot r f).full = s.full := rfl
@[simp] theorem State.modSlot_poison (s : State) (r : SlotRef) (f : Slot → Slot) : (s.modSlot r f).poison = s.poison := rfl
@[simp] theorem State.modSlot_drives (s : State) (r : SlotRef) (f : Slot → Slot) : (s.modSlot r f).drives = s.drives := rfl
@[simp] theorem State.modSlot_pkg (s : State) (r : SlotRef) (f : Slot → Slot) : (s.modSlot r f).pkg = s.pkg := rfl
@[simp] theorem State.modSlot_boot (s : State) (r : SlotRef) (f : Slot → Slot) : (s.modSlot r f).boot = s.boot := rfl
@[simp] theorem State.modSlot_rr (s : State) (r : SlotRef) (f : Slot → Slot) : (s.modSlot r f).rr = s.rr := rfl
@[simp] theorem State.modSlot_supf (s : State) (r : SlotRef) (f : Slot → Slot) : (s.modSlot r f).supf = s.supf := rfl
@[simp] theorem State.modSlot_thr (s : State) (r : SlotRef) (f : Slot → Slot) : (s.modSlot r f).thr = s.thr := rfl
@[simp] theorem State.modSlot_trip (s : State) (r : SlotRef) (f : Slot → Slot) : (s.modSlot r f).trip = s.trip := rfl
@[simp] theorem State.modSlot_bver (s : State) (r : SlotRef) (f : Slot → Slot) : (s.modSlot r f).bver = s.bver := rfl
@[simp] theorem State.modSlot_bstage (s : State) (r : SlotRef) (f : Slot → Slot) : (s.modSlot r f).bstage = s.bstage := rfl
@[simp] theorem State.modSlot_pwrcfg (s : State) (r : SlotRef) (f : Slot → Slot) : (s.modSlot r f).pwrcfg = s.pwrcfg := rfl
@[simp] theorem State.modSlot_pwrstat (s : State) (r : SlotRef) (f : Slot → Slot) : (s.modSlot r f).pwrstat = s.pwrstat := rfl
@[simp] theorem State.modSlot_cerrth (s : State) (r : SlotRef) (f : Slot → Slot) : (s.modSlot r f).cerrth = s.cerrth := rfl
@[simp] theorem State.modSlot_hwin (s : State) (r : SlotRef) (f : Slot → Slot) : (s.modSlot r f).hwin = s.hwin := rfl
@[simp] theorem State.modSlot_cooling (s : State) (r : SlotRef) (f : Slot → Slot) : (s.modSlot r f).cooling = s.cooling := rfl
@[simp] theorem State.modSlot_fwdig (s : State) (r : SlotRef) (f : Slot → Slot) : (s.modSlot r f).fwdig = s.fwdig := rfl
@[simp] theorem State.modSlot_attest (s : State) (r : SlotRef) (f : Slot → Slot) : (s.modSlot r f).attest = s.attest := rfl
@[simp] theorem State.modSlot_areq (s : State) (r : SlotRef) (f : Slot → Slot) : (s.modSlot r f).areq = s.areq := rfl
@[simp] theorem State.modSlot_adone (s : State) (r : SlotRef) (f : Slot → Slot) : (s.modSlot r f).adone = s.adone := rfl
@[simp] theorem State.modSlot_cxstat (s : State) (r : SlotRef) (f : Slot → Slot) : (s.modSlot r f).cxstat = s.cxstat := rfl
@[simp] theorem State.modSlot_regs (s : State) (r : SlotRef) (f : Slot → Slot) : (s.modSlot r f).regs = s.regs := rfl
@[simp] theorem State.modSlot_sels (s : State) (r : SlotRef) (f : Slot → Slot) : (s.modSlot r f).sels = s.sels := rfl
@[simp] theorem State.modSlot_ucie (s : State) (r : SlotRef) (f : Slot → Slot) : (s.modSlot r f).ucie = s.ucie := rfl
@[simp] theorem State.modSlot_pclock (s : State) (r : SlotRef) (f : Slot → Slot) : (s.modSlot r f).pclock = s.pclock := rfl
@[simp] theorem State.modSlot_cur (s : State) (r : SlotRef) (f : Slot → Slot) : (s.modSlot r f).cur = s.cur := rfl
@[simp] theorem State.modSlot_agenda (s : State) (r : SlotRef) (f : Slot → Slot) : (s.modSlot r f).agenda = s.agenda := rfl
@[simp] theorem State.modSlot_ids (s : State) (r : SlotRef) (f : Slot → Slot) : (s.modSlot r f).ids = s.ids := rfl
@[simp] theorem State.modSlot_fresh (s : State) (r : SlotRef) (f : Slot → Slot) : (s.modSlot r f).fresh = s.fresh := rfl
@[simp] theorem State.modSlot_far (s : State) (r : SlotRef) (f : Slot → Slot) : (s.modSlot r f).far = s.far := rfl

@[simp] theorem State.modCore_now (s : State) (k : CoreRef) (f : Core → Core) : (s.modCore k f).now = s.now := rfl
@[simp] theorem State.modCore_slots (s : State) (k : CoreRef) (f : Core → Core) : (s.modCore k f).slots = s.slots := rfl
@[simp] theorem State.modCore_boxes (s : State) (k : CoreRef) (f : Core → Core) : (s.modCore k f).boxes = s.boxes := rfl
@[simp] theorem State.modCore_quads (s : State) (k : CoreRef) (f : Core → Core) : (s.modCore k f).quads = s.quads := rfl
@[simp] theorem State.modCore_dies (s : State) (k : CoreRef) (f : Core → Core) : (s.modCore k f).dies = s.dies := rfl
@[simp] theorem State.modCore_pdies (s : State) (k : CoreRef) (f : Core → Core) : (s.modCore k f).pdies = s.pdies := rfl
@[simp] theorem State.modCore_ctxs (s : State) (k : CoreRef) (f : Core → Core) : (s.modCore k f).ctxs = s.ctxs := rfl
@[simp] theorem State.modCore_parts (s : State) (k : CoreRef) (f : Core → Core) : (s.modCore k f).parts = s.parts := rfl
@[simp] theorem State.modCore_hostqs (s : State) (k : CoreRef) (f : Core → Core) : (s.modCore k f).hostqs = s.hostqs := rfl
@[simp] theorem State.modCore_peers (s : State) (k : CoreRef) (f : Core → Core) : (s.modCore k f).peers = s.peers := rfl
@[simp] theorem State.modCore_links (s : State) (k : CoreRef) (f : Core → Core) : (s.modCore k f).links = s.links := rfl
@[simp] theorem State.modCore_mem (s : State) (k : CoreRef) (f : Core → Core) : (s.modCore k f).mem = s.mem := rfl
@[simp] theorem State.modCore_full (s : State) (k : CoreRef) (f : Core → Core) : (s.modCore k f).full = s.full := rfl
@[simp] theorem State.modCore_poison (s : State) (k : CoreRef) (f : Core → Core) : (s.modCore k f).poison = s.poison := rfl
@[simp] theorem State.modCore_drives (s : State) (k : CoreRef) (f : Core → Core) : (s.modCore k f).drives = s.drives := rfl
@[simp] theorem State.modCore_pkg (s : State) (k : CoreRef) (f : Core → Core) : (s.modCore k f).pkg = s.pkg := rfl
@[simp] theorem State.modCore_boot (s : State) (k : CoreRef) (f : Core → Core) : (s.modCore k f).boot = s.boot := rfl
@[simp] theorem State.modCore_rr (s : State) (k : CoreRef) (f : Core → Core) : (s.modCore k f).rr = s.rr := rfl
@[simp] theorem State.modCore_supf (s : State) (k : CoreRef) (f : Core → Core) : (s.modCore k f).supf = s.supf := rfl
@[simp] theorem State.modCore_thr (s : State) (k : CoreRef) (f : Core → Core) : (s.modCore k f).thr = s.thr := rfl
@[simp] theorem State.modCore_trip (s : State) (k : CoreRef) (f : Core → Core) : (s.modCore k f).trip = s.trip := rfl
@[simp] theorem State.modCore_bver (s : State) (k : CoreRef) (f : Core → Core) : (s.modCore k f).bver = s.bver := rfl
@[simp] theorem State.modCore_bstage (s : State) (k : CoreRef) (f : Core → Core) : (s.modCore k f).bstage = s.bstage := rfl
@[simp] theorem State.modCore_pwrcfg (s : State) (k : CoreRef) (f : Core → Core) : (s.modCore k f).pwrcfg = s.pwrcfg := rfl
@[simp] theorem State.modCore_pwrstat (s : State) (k : CoreRef) (f : Core → Core) : (s.modCore k f).pwrstat = s.pwrstat := rfl
@[simp] theorem State.modCore_cerrth (s : State) (k : CoreRef) (f : Core → Core) : (s.modCore k f).cerrth = s.cerrth := rfl
@[simp] theorem State.modCore_hwin (s : State) (k : CoreRef) (f : Core → Core) : (s.modCore k f).hwin = s.hwin := rfl
@[simp] theorem State.modCore_cooling (s : State) (k : CoreRef) (f : Core → Core) : (s.modCore k f).cooling = s.cooling := rfl
@[simp] theorem State.modCore_fwdig (s : State) (k : CoreRef) (f : Core → Core) : (s.modCore k f).fwdig = s.fwdig := rfl
@[simp] theorem State.modCore_attest (s : State) (k : CoreRef) (f : Core → Core) : (s.modCore k f).attest = s.attest := rfl
@[simp] theorem State.modCore_areq (s : State) (k : CoreRef) (f : Core → Core) : (s.modCore k f).areq = s.areq := rfl
@[simp] theorem State.modCore_adone (s : State) (k : CoreRef) (f : Core → Core) : (s.modCore k f).adone = s.adone := rfl
@[simp] theorem State.modCore_cxstat (s : State) (k : CoreRef) (f : Core → Core) : (s.modCore k f).cxstat = s.cxstat := rfl
@[simp] theorem State.modCore_regs (s : State) (k : CoreRef) (f : Core → Core) : (s.modCore k f).regs = s.regs := rfl
@[simp] theorem State.modCore_sels (s : State) (k : CoreRef) (f : Core → Core) : (s.modCore k f).sels = s.sels := rfl
@[simp] theorem State.modCore_ucie (s : State) (k : CoreRef) (f : Core → Core) : (s.modCore k f).ucie = s.ucie := rfl
@[simp] theorem State.modCore_pclock (s : State) (k : CoreRef) (f : Core → Core) : (s.modCore k f).pclock = s.pclock := rfl
@[simp] theorem State.modCore_cur (s : State) (k : CoreRef) (f : Core → Core) : (s.modCore k f).cur = s.cur := rfl
@[simp] theorem State.modCore_agenda (s : State) (k : CoreRef) (f : Core → Core) : (s.modCore k f).agenda = s.agenda := rfl
@[simp] theorem State.modCore_ids (s : State) (k : CoreRef) (f : Core → Core) : (s.modCore k f).ids = s.ids := rfl
@[simp] theorem State.modCore_fresh (s : State) (k : CoreRef) (f : Core → Core) : (s.modCore k f).fresh = s.fresh := rfl
@[simp] theorem State.modCore_far (s : State) (k : CoreRef) (f : Core → Core) : (s.modCore k f).far = s.far := rfl

@[simp] theorem State.modQuad_now (s : State) (q : QuadRef) (f : Quad → Quad) : (s.modQuad q f).now = s.now := rfl
@[simp] theorem State.modQuad_slots (s : State) (q : QuadRef) (f : Quad → Quad) : (s.modQuad q f).slots = s.slots := rfl
@[simp] theorem State.modQuad_boxes (s : State) (q : QuadRef) (f : Quad → Quad) : (s.modQuad q f).boxes = s.boxes := rfl
@[simp] theorem State.modQuad_cores (s : State) (q : QuadRef) (f : Quad → Quad) : (s.modQuad q f).cores = s.cores := rfl
@[simp] theorem State.modQuad_dies (s : State) (q : QuadRef) (f : Quad → Quad) : (s.modQuad q f).dies = s.dies := rfl
@[simp] theorem State.modQuad_pdies (s : State) (q : QuadRef) (f : Quad → Quad) : (s.modQuad q f).pdies = s.pdies := rfl
@[simp] theorem State.modQuad_ctxs (s : State) (q : QuadRef) (f : Quad → Quad) : (s.modQuad q f).ctxs = s.ctxs := rfl
@[simp] theorem State.modQuad_parts (s : State) (q : QuadRef) (f : Quad → Quad) : (s.modQuad q f).parts = s.parts := rfl
@[simp] theorem State.modQuad_hostqs (s : State) (q : QuadRef) (f : Quad → Quad) : (s.modQuad q f).hostqs = s.hostqs := rfl
@[simp] theorem State.modQuad_peers (s : State) (q : QuadRef) (f : Quad → Quad) : (s.modQuad q f).peers = s.peers := rfl
@[simp] theorem State.modQuad_links (s : State) (q : QuadRef) (f : Quad → Quad) : (s.modQuad q f).links = s.links := rfl
@[simp] theorem State.modQuad_mem (s : State) (q : QuadRef) (f : Quad → Quad) : (s.modQuad q f).mem = s.mem := rfl
@[simp] theorem State.modQuad_full (s : State) (q : QuadRef) (f : Quad → Quad) : (s.modQuad q f).full = s.full := rfl
@[simp] theorem State.modQuad_poison (s : State) (q : QuadRef) (f : Quad → Quad) : (s.modQuad q f).poison = s.poison := rfl
@[simp] theorem State.modQuad_drives (s : State) (q : QuadRef) (f : Quad → Quad) : (s.modQuad q f).drives = s.drives := rfl
@[simp] theorem State.modQuad_pkg (s : State) (q : QuadRef) (f : Quad → Quad) : (s.modQuad q f).pkg = s.pkg := rfl
@[simp] theorem State.modQuad_boot (s : State) (q : QuadRef) (f : Quad → Quad) : (s.modQuad q f).boot = s.boot := rfl
@[simp] theorem State.modQuad_rr (s : State) (q : QuadRef) (f : Quad → Quad) : (s.modQuad q f).rr = s.rr := rfl
@[simp] theorem State.modQuad_supf (s : State) (q : QuadRef) (f : Quad → Quad) : (s.modQuad q f).supf = s.supf := rfl
@[simp] theorem State.modQuad_thr (s : State) (q : QuadRef) (f : Quad → Quad) : (s.modQuad q f).thr = s.thr := rfl
@[simp] theorem State.modQuad_trip (s : State) (q : QuadRef) (f : Quad → Quad) : (s.modQuad q f).trip = s.trip := rfl
@[simp] theorem State.modQuad_bver (s : State) (q : QuadRef) (f : Quad → Quad) : (s.modQuad q f).bver = s.bver := rfl
@[simp] theorem State.modQuad_bstage (s : State) (q : QuadRef) (f : Quad → Quad) : (s.modQuad q f).bstage = s.bstage := rfl
@[simp] theorem State.modQuad_pwrcfg (s : State) (q : QuadRef) (f : Quad → Quad) : (s.modQuad q f).pwrcfg = s.pwrcfg := rfl
@[simp] theorem State.modQuad_pwrstat (s : State) (q : QuadRef) (f : Quad → Quad) : (s.modQuad q f).pwrstat = s.pwrstat := rfl
@[simp] theorem State.modQuad_cerrth (s : State) (q : QuadRef) (f : Quad → Quad) : (s.modQuad q f).cerrth = s.cerrth := rfl
@[simp] theorem State.modQuad_hwin (s : State) (q : QuadRef) (f : Quad → Quad) : (s.modQuad q f).hwin = s.hwin := rfl
@[simp] theorem State.modQuad_cooling (s : State) (q : QuadRef) (f : Quad → Quad) : (s.modQuad q f).cooling = s.cooling := rfl
@[simp] theorem State.modQuad_fwdig (s : State) (q : QuadRef) (f : Quad → Quad) : (s.modQuad q f).fwdig = s.fwdig := rfl
@[simp] theorem State.modQuad_attest (s : State) (q : QuadRef) (f : Quad → Quad) : (s.modQuad q f).attest = s.attest := rfl
@[simp] theorem State.modQuad_areq (s : State) (q : QuadRef) (f : Quad → Quad) : (s.modQuad q f).areq = s.areq := rfl
@[simp] theorem State.modQuad_adone (s : State) (q : QuadRef) (f : Quad → Quad) : (s.modQuad q f).adone = s.adone := rfl
@[simp] theorem State.modQuad_cxstat (s : State) (q : QuadRef) (f : Quad → Quad) : (s.modQuad q f).cxstat = s.cxstat := rfl
@[simp] theorem State.modQuad_regs (s : State) (q : QuadRef) (f : Quad → Quad) : (s.modQuad q f).regs = s.regs := rfl
@[simp] theorem State.modQuad_sels (s : State) (q : QuadRef) (f : Quad → Quad) : (s.modQuad q f).sels = s.sels := rfl
@[simp] theorem State.modQuad_ucie (s : State) (q : QuadRef) (f : Quad → Quad) : (s.modQuad q f).ucie = s.ucie := rfl
@[simp] theorem State.modQuad_pclock (s : State) (q : QuadRef) (f : Quad → Quad) : (s.modQuad q f).pclock = s.pclock := rfl
@[simp] theorem State.modQuad_cur (s : State) (q : QuadRef) (f : Quad → Quad) : (s.modQuad q f).cur = s.cur := rfl
@[simp] theorem State.modQuad_agenda (s : State) (q : QuadRef) (f : Quad → Quad) : (s.modQuad q f).agenda = s.agenda := rfl
@[simp] theorem State.modQuad_ids (s : State) (q : QuadRef) (f : Quad → Quad) : (s.modQuad q f).ids = s.ids := rfl
@[simp] theorem State.modQuad_fresh (s : State) (q : QuadRef) (f : Quad → Quad) : (s.modQuad q f).fresh = s.fresh := rfl
@[simp] theorem State.modQuad_far (s : State) (q : QuadRef) (f : Quad → Quad) : (s.modQuad q f).far = s.far := rfl

@[simp] theorem State.modDie_now (s : State) (cx d : Nat) (f : Die → Die) : (s.modDie cx d f).now = s.now := rfl
@[simp] theorem State.modDie_slots (s : State) (cx d : Nat) (f : Die → Die) : (s.modDie cx d f).slots = s.slots := rfl
@[simp] theorem State.modDie_boxes (s : State) (cx d : Nat) (f : Die → Die) : (s.modDie cx d f).boxes = s.boxes := rfl
@[simp] theorem State.modDie_cores (s : State) (cx d : Nat) (f : Die → Die) : (s.modDie cx d f).cores = s.cores := rfl
@[simp] theorem State.modDie_quads (s : State) (cx d : Nat) (f : Die → Die) : (s.modDie cx d f).quads = s.quads := rfl
@[simp] theorem State.modDie_pdies (s : State) (cx d : Nat) (f : Die → Die) : (s.modDie cx d f).pdies = s.pdies := rfl
@[simp] theorem State.modDie_ctxs (s : State) (cx d : Nat) (f : Die → Die) : (s.modDie cx d f).ctxs = s.ctxs := rfl
@[simp] theorem State.modDie_parts (s : State) (cx d : Nat) (f : Die → Die) : (s.modDie cx d f).parts = s.parts := rfl
@[simp] theorem State.modDie_hostqs (s : State) (cx d : Nat) (f : Die → Die) : (s.modDie cx d f).hostqs = s.hostqs := rfl
@[simp] theorem State.modDie_peers (s : State) (cx d : Nat) (f : Die → Die) : (s.modDie cx d f).peers = s.peers := rfl
@[simp] theorem State.modDie_links (s : State) (cx d : Nat) (f : Die → Die) : (s.modDie cx d f).links = s.links := rfl
@[simp] theorem State.modDie_mem (s : State) (cx d : Nat) (f : Die → Die) : (s.modDie cx d f).mem = s.mem := rfl
@[simp] theorem State.modDie_full (s : State) (cx d : Nat) (f : Die → Die) : (s.modDie cx d f).full = s.full := rfl
@[simp] theorem State.modDie_poison (s : State) (cx d : Nat) (f : Die → Die) : (s.modDie cx d f).poison = s.poison := rfl
@[simp] theorem State.modDie_drives (s : State) (cx d : Nat) (f : Die → Die) : (s.modDie cx d f).drives = s.drives := rfl
@[simp] theorem State.modDie_pkg (s : State) (cx d : Nat) (f : Die → Die) : (s.modDie cx d f).pkg = s.pkg := rfl
@[simp] theorem State.modDie_boot (s : State) (cx d : Nat) (f : Die → Die) : (s.modDie cx d f).boot = s.boot := rfl
@[simp] theorem State.modDie_rr (s : State) (cx d : Nat) (f : Die → Die) : (s.modDie cx d f).rr = s.rr := rfl
@[simp] theorem State.modDie_supf (s : State) (cx d : Nat) (f : Die → Die) : (s.modDie cx d f).supf = s.supf := rfl
@[simp] theorem State.modDie_thr (s : State) (cx d : Nat) (f : Die → Die) : (s.modDie cx d f).thr = s.thr := rfl
@[simp] theorem State.modDie_trip (s : State) (cx d : Nat) (f : Die → Die) : (s.modDie cx d f).trip = s.trip := rfl
@[simp] theorem State.modDie_bver (s : State) (cx d : Nat) (f : Die → Die) : (s.modDie cx d f).bver = s.bver := rfl
@[simp] theorem State.modDie_bstage (s : State) (cx d : Nat) (f : Die → Die) : (s.modDie cx d f).bstage = s.bstage := rfl
@[simp] theorem State.modDie_pwrcfg (s : State) (cx d : Nat) (f : Die → Die) : (s.modDie cx d f).pwrcfg = s.pwrcfg := rfl
@[simp] theorem State.modDie_pwrstat (s : State) (cx d : Nat) (f : Die → Die) : (s.modDie cx d f).pwrstat = s.pwrstat := rfl
@[simp] theorem State.modDie_cerrth (s : State) (cx d : Nat) (f : Die → Die) : (s.modDie cx d f).cerrth = s.cerrth := rfl
@[simp] theorem State.modDie_hwin (s : State) (cx d : Nat) (f : Die → Die) : (s.modDie cx d f).hwin = s.hwin := rfl
@[simp] theorem State.modDie_cooling (s : State) (cx d : Nat) (f : Die → Die) : (s.modDie cx d f).cooling = s.cooling := rfl
@[simp] theorem State.modDie_fwdig (s : State) (cx d : Nat) (f : Die → Die) : (s.modDie cx d f).fwdig = s.fwdig := rfl
@[simp] theorem State.modDie_attest (s : State) (cx d : Nat) (f : Die → Die) : (s.modDie cx d f).attest = s.attest := rfl
@[simp] theorem State.modDie_areq (s : State) (cx d : Nat) (f : Die → Die) : (s.modDie cx d f).areq = s.areq := rfl
@[simp] theorem State.modDie_adone (s : State) (cx d : Nat) (f : Die → Die) : (s.modDie cx d f).adone = s.adone := rfl
@[simp] theorem State.modDie_cxstat (s : State) (cx d : Nat) (f : Die → Die) : (s.modDie cx d f).cxstat = s.cxstat := rfl
@[simp] theorem State.modDie_regs (s : State) (cx d : Nat) (f : Die → Die) : (s.modDie cx d f).regs = s.regs := rfl
@[simp] theorem State.modDie_sels (s : State) (cx d : Nat) (f : Die → Die) : (s.modDie cx d f).sels = s.sels := rfl
@[simp] theorem State.modDie_ucie (s : State) (cx d : Nat) (f : Die → Die) : (s.modDie cx d f).ucie = s.ucie := rfl
@[simp] theorem State.modDie_pclock (s : State) (cx d : Nat) (f : Die → Die) : (s.modDie cx d f).pclock = s.pclock := rfl
@[simp] theorem State.modDie_cur (s : State) (cx d : Nat) (f : Die → Die) : (s.modDie cx d f).cur = s.cur := rfl
@[simp] theorem State.modDie_agenda (s : State) (cx d : Nat) (f : Die → Die) : (s.modDie cx d f).agenda = s.agenda := rfl
@[simp] theorem State.modDie_ids (s : State) (cx d : Nat) (f : Die → Die) : (s.modDie cx d f).ids = s.ids := rfl
@[simp] theorem State.modDie_fresh (s : State) (cx d : Nat) (f : Die → Die) : (s.modDie cx d f).fresh = s.fresh := rfl
@[simp] theorem State.modDie_far (s : State) (cx d : Nat) (f : Die → Die) : (s.modDie cx d f).far = s.far := rfl

@[simp] theorem State.modPdie_now (s : State) (d : Nat) (f : PDie → PDie) : (s.modPdie d f).now = s.now := rfl
@[simp] theorem State.modPdie_slots (s : State) (d : Nat) (f : PDie → PDie) : (s.modPdie d f).slots = s.slots := rfl
@[simp] theorem State.modPdie_boxes (s : State) (d : Nat) (f : PDie → PDie) : (s.modPdie d f).boxes = s.boxes := rfl
@[simp] theorem State.modPdie_cores (s : State) (d : Nat) (f : PDie → PDie) : (s.modPdie d f).cores = s.cores := rfl
@[simp] theorem State.modPdie_quads (s : State) (d : Nat) (f : PDie → PDie) : (s.modPdie d f).quads = s.quads := rfl
@[simp] theorem State.modPdie_dies (s : State) (d : Nat) (f : PDie → PDie) : (s.modPdie d f).dies = s.dies := rfl
@[simp] theorem State.modPdie_ctxs (s : State) (d : Nat) (f : PDie → PDie) : (s.modPdie d f).ctxs = s.ctxs := rfl
@[simp] theorem State.modPdie_parts (s : State) (d : Nat) (f : PDie → PDie) : (s.modPdie d f).parts = s.parts := rfl
@[simp] theorem State.modPdie_hostqs (s : State) (d : Nat) (f : PDie → PDie) : (s.modPdie d f).hostqs = s.hostqs := rfl
@[simp] theorem State.modPdie_peers (s : State) (d : Nat) (f : PDie → PDie) : (s.modPdie d f).peers = s.peers := rfl
@[simp] theorem State.modPdie_links (s : State) (d : Nat) (f : PDie → PDie) : (s.modPdie d f).links = s.links := rfl
@[simp] theorem State.modPdie_mem (s : State) (d : Nat) (f : PDie → PDie) : (s.modPdie d f).mem = s.mem := rfl
@[simp] theorem State.modPdie_full (s : State) (d : Nat) (f : PDie → PDie) : (s.modPdie d f).full = s.full := rfl
@[simp] theorem State.modPdie_poison (s : State) (d : Nat) (f : PDie → PDie) : (s.modPdie d f).poison = s.poison := rfl
@[simp] theorem State.modPdie_drives (s : State) (d : Nat) (f : PDie → PDie) : (s.modPdie d f).drives = s.drives := rfl
@[simp] theorem State.modPdie_pkg (s : State) (d : Nat) (f : PDie → PDie) : (s.modPdie d f).pkg = s.pkg := rfl
@[simp] theorem State.modPdie_boot (s : State) (d : Nat) (f : PDie → PDie) : (s.modPdie d f).boot = s.boot := rfl
@[simp] theorem State.modPdie_rr (s : State) (d : Nat) (f : PDie → PDie) : (s.modPdie d f).rr = s.rr := rfl
@[simp] theorem State.modPdie_supf (s : State) (d : Nat) (f : PDie → PDie) : (s.modPdie d f).supf = s.supf := rfl
@[simp] theorem State.modPdie_thr (s : State) (d : Nat) (f : PDie → PDie) : (s.modPdie d f).thr = s.thr := rfl
@[simp] theorem State.modPdie_trip (s : State) (d : Nat) (f : PDie → PDie) : (s.modPdie d f).trip = s.trip := rfl
@[simp] theorem State.modPdie_bver (s : State) (d : Nat) (f : PDie → PDie) : (s.modPdie d f).bver = s.bver := rfl
@[simp] theorem State.modPdie_bstage (s : State) (d : Nat) (f : PDie → PDie) : (s.modPdie d f).bstage = s.bstage := rfl
@[simp] theorem State.modPdie_pwrcfg (s : State) (d : Nat) (f : PDie → PDie) : (s.modPdie d f).pwrcfg = s.pwrcfg := rfl
@[simp] theorem State.modPdie_pwrstat (s : State) (d : Nat) (f : PDie → PDie) : (s.modPdie d f).pwrstat = s.pwrstat := rfl
@[simp] theorem State.modPdie_cerrth (s : State) (d : Nat) (f : PDie → PDie) : (s.modPdie d f).cerrth = s.cerrth := rfl
@[simp] theorem State.modPdie_hwin (s : State) (d : Nat) (f : PDie → PDie) : (s.modPdie d f).hwin = s.hwin := rfl
@[simp] theorem State.modPdie_cooling (s : State) (d : Nat) (f : PDie → PDie) : (s.modPdie d f).cooling = s.cooling := rfl
@[simp] theorem State.modPdie_fwdig (s : State) (d : Nat) (f : PDie → PDie) : (s.modPdie d f).fwdig = s.fwdig := rfl
@[simp] theorem State.modPdie_attest (s : State) (d : Nat) (f : PDie → PDie) : (s.modPdie d f).attest = s.attest := rfl
@[simp] theorem State.modPdie_areq (s : State) (d : Nat) (f : PDie → PDie) : (s.modPdie d f).areq = s.areq := rfl
@[simp] theorem State.modPdie_adone (s : State) (d : Nat) (f : PDie → PDie) : (s.modPdie d f).adone = s.adone := rfl
@[simp] theorem State.modPdie_cxstat (s : State) (d : Nat) (f : PDie → PDie) : (s.modPdie d f).cxstat = s.cxstat := rfl
@[simp] theorem State.modPdie_regs (s : State) (d : Nat) (f : PDie → PDie) : (s.modPdie d f).regs = s.regs := rfl
@[simp] theorem State.modPdie_sels (s : State) (d : Nat) (f : PDie → PDie) : (s.modPdie d f).sels = s.sels := rfl
@[simp] theorem State.modPdie_ucie (s : State) (d : Nat) (f : PDie → PDie) : (s.modPdie d f).ucie = s.ucie := rfl
@[simp] theorem State.modPdie_pclock (s : State) (d : Nat) (f : PDie → PDie) : (s.modPdie d f).pclock = s.pclock := rfl
@[simp] theorem State.modPdie_cur (s : State) (d : Nat) (f : PDie → PDie) : (s.modPdie d f).cur = s.cur := rfl
@[simp] theorem State.modPdie_agenda (s : State) (d : Nat) (f : PDie → PDie) : (s.modPdie d f).agenda = s.agenda := rfl
@[simp] theorem State.modPdie_ids (s : State) (d : Nat) (f : PDie → PDie) : (s.modPdie d f).ids = s.ids := rfl
@[simp] theorem State.modPdie_fresh (s : State) (d : Nat) (f : PDie → PDie) : (s.modPdie d f).fresh = s.fresh := rfl
@[simp] theorem State.modPdie_far (s : State) (d : Nat) (f : PDie → PDie) : (s.modPdie d f).far = s.far := rfl

@[simp] theorem State.modCtx_now (s : State) (cx : Nat) (f : Ctx → Ctx) : (s.modCtx cx f).now = s.now := rfl
@[simp] theorem State.modCtx_slots (s : State) (cx : Nat) (f : Ctx → Ctx) : (s.modCtx cx f).slots = s.slots := rfl
@[simp] theorem State.modCtx_boxes (s : State) (cx : Nat) (f : Ctx → Ctx) : (s.modCtx cx f).boxes = s.boxes := rfl
@[simp] theorem State.modCtx_cores (s : State) (cx : Nat) (f : Ctx → Ctx) : (s.modCtx cx f).cores = s.cores := rfl
@[simp] theorem State.modCtx_quads (s : State) (cx : Nat) (f : Ctx → Ctx) : (s.modCtx cx f).quads = s.quads := rfl
@[simp] theorem State.modCtx_dies (s : State) (cx : Nat) (f : Ctx → Ctx) : (s.modCtx cx f).dies = s.dies := rfl
@[simp] theorem State.modCtx_pdies (s : State) (cx : Nat) (f : Ctx → Ctx) : (s.modCtx cx f).pdies = s.pdies := rfl
@[simp] theorem State.modCtx_parts (s : State) (cx : Nat) (f : Ctx → Ctx) : (s.modCtx cx f).parts = s.parts := rfl
@[simp] theorem State.modCtx_hostqs (s : State) (cx : Nat) (f : Ctx → Ctx) : (s.modCtx cx f).hostqs = s.hostqs := rfl
@[simp] theorem State.modCtx_peers (s : State) (cx : Nat) (f : Ctx → Ctx) : (s.modCtx cx f).peers = s.peers := rfl
@[simp] theorem State.modCtx_links (s : State) (cx : Nat) (f : Ctx → Ctx) : (s.modCtx cx f).links = s.links := rfl
@[simp] theorem State.modCtx_mem (s : State) (cx : Nat) (f : Ctx → Ctx) : (s.modCtx cx f).mem = s.mem := rfl
@[simp] theorem State.modCtx_full (s : State) (cx : Nat) (f : Ctx → Ctx) : (s.modCtx cx f).full = s.full := rfl
@[simp] theorem State.modCtx_poison (s : State) (cx : Nat) (f : Ctx → Ctx) : (s.modCtx cx f).poison = s.poison := rfl
@[simp] theorem State.modCtx_drives (s : State) (cx : Nat) (f : Ctx → Ctx) : (s.modCtx cx f).drives = s.drives := rfl
@[simp] theorem State.modCtx_pkg (s : State) (cx : Nat) (f : Ctx → Ctx) : (s.modCtx cx f).pkg = s.pkg := rfl
@[simp] theorem State.modCtx_boot (s : State) (cx : Nat) (f : Ctx → Ctx) : (s.modCtx cx f).boot = s.boot := rfl
@[simp] theorem State.modCtx_rr (s : State) (cx : Nat) (f : Ctx → Ctx) : (s.modCtx cx f).rr = s.rr := rfl
@[simp] theorem State.modCtx_supf (s : State) (cx : Nat) (f : Ctx → Ctx) : (s.modCtx cx f).supf = s.supf := rfl
@[simp] theorem State.modCtx_thr (s : State) (cx : Nat) (f : Ctx → Ctx) : (s.modCtx cx f).thr = s.thr := rfl
@[simp] theorem State.modCtx_trip (s : State) (cx : Nat) (f : Ctx → Ctx) : (s.modCtx cx f).trip = s.trip := rfl
@[simp] theorem State.modCtx_bver (s : State) (cx : Nat) (f : Ctx → Ctx) : (s.modCtx cx f).bver = s.bver := rfl
@[simp] theorem State.modCtx_bstage (s : State) (cx : Nat) (f : Ctx → Ctx) : (s.modCtx cx f).bstage = s.bstage := rfl
@[simp] theorem State.modCtx_pwrcfg (s : State) (cx : Nat) (f : Ctx → Ctx) : (s.modCtx cx f).pwrcfg = s.pwrcfg := rfl
@[simp] theorem State.modCtx_pwrstat (s : State) (cx : Nat) (f : Ctx → Ctx) : (s.modCtx cx f).pwrstat = s.pwrstat := rfl
@[simp] theorem State.modCtx_cerrth (s : State) (cx : Nat) (f : Ctx → Ctx) : (s.modCtx cx f).cerrth = s.cerrth := rfl
@[simp] theorem State.modCtx_hwin (s : State) (cx : Nat) (f : Ctx → Ctx) : (s.modCtx cx f).hwin = s.hwin := rfl
@[simp] theorem State.modCtx_cooling (s : State) (cx : Nat) (f : Ctx → Ctx) : (s.modCtx cx f).cooling = s.cooling := rfl
@[simp] theorem State.modCtx_fwdig (s : State) (cx : Nat) (f : Ctx → Ctx) : (s.modCtx cx f).fwdig = s.fwdig := rfl
@[simp] theorem State.modCtx_attest (s : State) (cx : Nat) (f : Ctx → Ctx) : (s.modCtx cx f).attest = s.attest := rfl
@[simp] theorem State.modCtx_areq (s : State) (cx : Nat) (f : Ctx → Ctx) : (s.modCtx cx f).areq = s.areq := rfl
@[simp] theorem State.modCtx_adone (s : State) (cx : Nat) (f : Ctx → Ctx) : (s.modCtx cx f).adone = s.adone := rfl
@[simp] theorem State.modCtx_cxstat (s : State) (cx : Nat) (f : Ctx → Ctx) : (s.modCtx cx f).cxstat = s.cxstat := rfl
@[simp] theorem State.modCtx_regs (s : State) (cx : Nat) (f : Ctx → Ctx) : (s.modCtx cx f).regs = s.regs := rfl
@[simp] theorem State.modCtx_sels (s : State) (cx : Nat) (f : Ctx → Ctx) : (s.modCtx cx f).sels = s.sels := rfl
@[simp] theorem State.modCtx_ucie (s : State) (cx : Nat) (f : Ctx → Ctx) : (s.modCtx cx f).ucie = s.ucie := rfl
@[simp] theorem State.modCtx_pclock (s : State) (cx : Nat) (f : Ctx → Ctx) : (s.modCtx cx f).pclock = s.pclock := rfl
@[simp] theorem State.modCtx_cur (s : State) (cx : Nat) (f : Ctx → Ctx) : (s.modCtx cx f).cur = s.cur := rfl
@[simp] theorem State.modCtx_agenda (s : State) (cx : Nat) (f : Ctx → Ctx) : (s.modCtx cx f).agenda = s.agenda := rfl
@[simp] theorem State.modCtx_ids (s : State) (cx : Nat) (f : Ctx → Ctx) : (s.modCtx cx f).ids = s.ids := rfl
@[simp] theorem State.modCtx_fresh (s : State) (cx : Nat) (f : Ctx → Ctx) : (s.modCtx cx f).fresh = s.fresh := rfl
@[simp] theorem State.modCtx_far (s : State) (cx : Nat) (f : Ctx → Ctx) : (s.modCtx cx f).far = s.far := rfl

@[simp] theorem State.modPart_now (s : State) (p : Nat) (f : Part → Part) : (s.modPart p f).now = s.now := rfl
@[simp] theorem State.modPart_slots (s : State) (p : Nat) (f : Part → Part) : (s.modPart p f).slots = s.slots := rfl
@[simp] theorem State.modPart_boxes (s : State) (p : Nat) (f : Part → Part) : (s.modPart p f).boxes = s.boxes := rfl
@[simp] theorem State.modPart_cores (s : State) (p : Nat) (f : Part → Part) : (s.modPart p f).cores = s.cores := rfl
@[simp] theorem State.modPart_quads (s : State) (p : Nat) (f : Part → Part) : (s.modPart p f).quads = s.quads := rfl
@[simp] theorem State.modPart_dies (s : State) (p : Nat) (f : Part → Part) : (s.modPart p f).dies = s.dies := rfl
@[simp] theorem State.modPart_pdies (s : State) (p : Nat) (f : Part → Part) : (s.modPart p f).pdies = s.pdies := rfl
@[simp] theorem State.modPart_ctxs (s : State) (p : Nat) (f : Part → Part) : (s.modPart p f).ctxs = s.ctxs := rfl
@[simp] theorem State.modPart_hostqs (s : State) (p : Nat) (f : Part → Part) : (s.modPart p f).hostqs = s.hostqs := rfl
@[simp] theorem State.modPart_peers (s : State) (p : Nat) (f : Part → Part) : (s.modPart p f).peers = s.peers := rfl
@[simp] theorem State.modPart_links (s : State) (p : Nat) (f : Part → Part) : (s.modPart p f).links = s.links := rfl
@[simp] theorem State.modPart_mem (s : State) (p : Nat) (f : Part → Part) : (s.modPart p f).mem = s.mem := rfl
@[simp] theorem State.modPart_full (s : State) (p : Nat) (f : Part → Part) : (s.modPart p f).full = s.full := rfl
@[simp] theorem State.modPart_poison (s : State) (p : Nat) (f : Part → Part) : (s.modPart p f).poison = s.poison := rfl
@[simp] theorem State.modPart_drives (s : State) (p : Nat) (f : Part → Part) : (s.modPart p f).drives = s.drives := rfl
@[simp] theorem State.modPart_pkg (s : State) (p : Nat) (f : Part → Part) : (s.modPart p f).pkg = s.pkg := rfl
@[simp] theorem State.modPart_boot (s : State) (p : Nat) (f : Part → Part) : (s.modPart p f).boot = s.boot := rfl
@[simp] theorem State.modPart_rr (s : State) (p : Nat) (f : Part → Part) : (s.modPart p f).rr = s.rr := rfl
@[simp] theorem State.modPart_supf (s : State) (p : Nat) (f : Part → Part) : (s.modPart p f).supf = s.supf := rfl
@[simp] theorem State.modPart_thr (s : State) (p : Nat) (f : Part → Part) : (s.modPart p f).thr = s.thr := rfl
@[simp] theorem State.modPart_trip (s : State) (p : Nat) (f : Part → Part) : (s.modPart p f).trip = s.trip := rfl
@[simp] theorem State.modPart_bver (s : State) (p : Nat) (f : Part → Part) : (s.modPart p f).bver = s.bver := rfl
@[simp] theorem State.modPart_bstage (s : State) (p : Nat) (f : Part → Part) : (s.modPart p f).bstage = s.bstage := rfl
@[simp] theorem State.modPart_pwrcfg (s : State) (p : Nat) (f : Part → Part) : (s.modPart p f).pwrcfg = s.pwrcfg := rfl
@[simp] theorem State.modPart_pwrstat (s : State) (p : Nat) (f : Part → Part) : (s.modPart p f).pwrstat = s.pwrstat := rfl
@[simp] theorem State.modPart_cerrth (s : State) (p : Nat) (f : Part → Part) : (s.modPart p f).cerrth = s.cerrth := rfl
@[simp] theorem State.modPart_hwin (s : State) (p : Nat) (f : Part → Part) : (s.modPart p f).hwin = s.hwin := rfl
@[simp] theorem State.modPart_cooling (s : State) (p : Nat) (f : Part → Part) : (s.modPart p f).cooling = s.cooling := rfl
@[simp] theorem State.modPart_fwdig (s : State) (p : Nat) (f : Part → Part) : (s.modPart p f).fwdig = s.fwdig := rfl
@[simp] theorem State.modPart_attest (s : State) (p : Nat) (f : Part → Part) : (s.modPart p f).attest = s.attest := rfl
@[simp] theorem State.modPart_areq (s : State) (p : Nat) (f : Part → Part) : (s.modPart p f).areq = s.areq := rfl
@[simp] theorem State.modPart_adone (s : State) (p : Nat) (f : Part → Part) : (s.modPart p f).adone = s.adone := rfl
@[simp] theorem State.modPart_cxstat (s : State) (p : Nat) (f : Part → Part) : (s.modPart p f).cxstat = s.cxstat := rfl
@[simp] theorem State.modPart_regs (s : State) (p : Nat) (f : Part → Part) : (s.modPart p f).regs = s.regs := rfl
@[simp] theorem State.modPart_sels (s : State) (p : Nat) (f : Part → Part) : (s.modPart p f).sels = s.sels := rfl
@[simp] theorem State.modPart_ucie (s : State) (p : Nat) (f : Part → Part) : (s.modPart p f).ucie = s.ucie := rfl
@[simp] theorem State.modPart_pclock (s : State) (p : Nat) (f : Part → Part) : (s.modPart p f).pclock = s.pclock := rfl
@[simp] theorem State.modPart_cur (s : State) (p : Nat) (f : Part → Part) : (s.modPart p f).cur = s.cur := rfl
@[simp] theorem State.modPart_agenda (s : State) (p : Nat) (f : Part → Part) : (s.modPart p f).agenda = s.agenda := rfl
@[simp] theorem State.modPart_ids (s : State) (p : Nat) (f : Part → Part) : (s.modPart p f).ids = s.ids := rfl
@[simp] theorem State.modPart_fresh (s : State) (p : Nat) (f : Part → Part) : (s.modPart p f).fresh = s.fresh := rfl
@[simp] theorem State.modPart_far (s : State) (p : Nat) (f : Part → Part) : (s.modPart p f).far = s.far := rfl

@[simp] theorem State.modPeer_now (s : State) (p : Nat) (f : Peer → Peer) : (s.modPeer p f).now = s.now := rfl
@[simp] theorem State.modPeer_slots (s : State) (p : Nat) (f : Peer → Peer) : (s.modPeer p f).slots = s.slots := rfl
@[simp] theorem State.modPeer_boxes (s : State) (p : Nat) (f : Peer → Peer) : (s.modPeer p f).boxes = s.boxes := rfl
@[simp] theorem State.modPeer_cores (s : State) (p : Nat) (f : Peer → Peer) : (s.modPeer p f).cores = s.cores := rfl
@[simp] theorem State.modPeer_quads (s : State) (p : Nat) (f : Peer → Peer) : (s.modPeer p f).quads = s.quads := rfl
@[simp] theorem State.modPeer_dies (s : State) (p : Nat) (f : Peer → Peer) : (s.modPeer p f).dies = s.dies := rfl
@[simp] theorem State.modPeer_pdies (s : State) (p : Nat) (f : Peer → Peer) : (s.modPeer p f).pdies = s.pdies := rfl
@[simp] theorem State.modPeer_ctxs (s : State) (p : Nat) (f : Peer → Peer) : (s.modPeer p f).ctxs = s.ctxs := rfl
@[simp] theorem State.modPeer_parts (s : State) (p : Nat) (f : Peer → Peer) : (s.modPeer p f).parts = s.parts := rfl
@[simp] theorem State.modPeer_hostqs (s : State) (p : Nat) (f : Peer → Peer) : (s.modPeer p f).hostqs = s.hostqs := rfl
@[simp] theorem State.modPeer_links (s : State) (p : Nat) (f : Peer → Peer) : (s.modPeer p f).links = s.links := rfl
@[simp] theorem State.modPeer_mem (s : State) (p : Nat) (f : Peer → Peer) : (s.modPeer p f).mem = s.mem := rfl
@[simp] theorem State.modPeer_full (s : State) (p : Nat) (f : Peer → Peer) : (s.modPeer p f).full = s.full := rfl
@[simp] theorem State.modPeer_poison (s : State) (p : Nat) (f : Peer → Peer) : (s.modPeer p f).poison = s.poison := rfl
@[simp] theorem State.modPeer_drives (s : State) (p : Nat) (f : Peer → Peer) : (s.modPeer p f).drives = s.drives := rfl
@[simp] theorem State.modPeer_pkg (s : State) (p : Nat) (f : Peer → Peer) : (s.modPeer p f).pkg = s.pkg := rfl
@[simp] theorem State.modPeer_boot (s : State) (p : Nat) (f : Peer → Peer) : (s.modPeer p f).boot = s.boot := rfl
@[simp] theorem State.modPeer_rr (s : State) (p : Nat) (f : Peer → Peer) : (s.modPeer p f).rr = s.rr := rfl
@[simp] theorem State.modPeer_supf (s : State) (p : Nat) (f : Peer → Peer) : (s.modPeer p f).supf = s.supf := rfl
@[simp] theorem State.modPeer_thr (s : State) (p : Nat) (f : Peer → Peer) : (s.modPeer p f).thr = s.thr := rfl
@[simp] theorem State.modPeer_trip (s : State) (p : Nat) (f : Peer → Peer) : (s.modPeer p f).trip = s.trip := rfl
@[simp] theorem State.modPeer_bver (s : State) (p : Nat) (f : Peer → Peer) : (s.modPeer p f).bver = s.bver := rfl
@[simp] theorem State.modPeer_bstage (s : State) (p : Nat) (f : Peer → Peer) : (s.modPeer p f).bstage = s.bstage := rfl
@[simp] theorem State.modPeer_pwrcfg (s : State) (p : Nat) (f : Peer → Peer) : (s.modPeer p f).pwrcfg = s.pwrcfg := rfl
@[simp] theorem State.modPeer_pwrstat (s : State) (p : Nat) (f : Peer → Peer) : (s.modPeer p f).pwrstat = s.pwrstat := rfl
@[simp] theorem State.modPeer_cerrth (s : State) (p : Nat) (f : Peer → Peer) : (s.modPeer p f).cerrth = s.cerrth := rfl
@[simp] theorem State.modPeer_hwin (s : State) (p : Nat) (f : Peer → Peer) : (s.modPeer p f).hwin = s.hwin := rfl
@[simp] theorem State.modPeer_cooling (s : State) (p : Nat) (f : Peer → Peer) : (s.modPeer p f).cooling = s.cooling := rfl
@[simp] theorem State.modPeer_fwdig (s : State) (p : Nat) (f : Peer → Peer) : (s.modPeer p f).fwdig = s.fwdig := rfl
@[simp] theorem State.modPeer_attest (s : State) (p : Nat) (f : Peer → Peer) : (s.modPeer p f).attest = s.attest := rfl
@[simp] theorem State.modPeer_areq (s : State) (p : Nat) (f : Peer → Peer) : (s.modPeer p f).areq = s.areq := rfl
@[simp] theorem State.modPeer_adone (s : State) (p : Nat) (f : Peer → Peer) : (s.modPeer p f).adone = s.adone := rfl
@[simp] theorem State.modPeer_cxstat (s : State) (p : Nat) (f : Peer → Peer) : (s.modPeer p f).cxstat = s.cxstat := rfl
@[simp] theorem State.modPeer_regs (s : State) (p : Nat) (f : Peer → Peer) : (s.modPeer p f).regs = s.regs := rfl
@[simp] theorem State.modPeer_sels (s : State) (p : Nat) (f : Peer → Peer) : (s.modPeer p f).sels = s.sels := rfl
@[simp] theorem State.modPeer_ucie (s : State) (p : Nat) (f : Peer → Peer) : (s.modPeer p f).ucie = s.ucie := rfl
@[simp] theorem State.modPeer_pclock (s : State) (p : Nat) (f : Peer → Peer) : (s.modPeer p f).pclock = s.pclock := rfl
@[simp] theorem State.modPeer_cur (s : State) (p : Nat) (f : Peer → Peer) : (s.modPeer p f).cur = s.cur := rfl
@[simp] theorem State.modPeer_agenda (s : State) (p : Nat) (f : Peer → Peer) : (s.modPeer p f).agenda = s.agenda := rfl
@[simp] theorem State.modPeer_ids (s : State) (p : Nat) (f : Peer → Peer) : (s.modPeer p f).ids = s.ids := rfl
@[simp] theorem State.modPeer_fresh (s : State) (p : Nat) (f : Peer → Peer) : (s.modPeer p f).fresh = s.fresh := rfl
@[simp] theorem State.modPeer_far (s : State) (p : Nat) (f : Peer → Peer) : (s.modPeer p f).far = s.far := rfl

@[simp] theorem State.modBox_now (s : State) (k : CoreRef) (b : Nat) (f : Box → Box) : (s.modBox k b f).now = s.now := rfl
@[simp] theorem State.modBox_slots (s : State) (k : CoreRef) (b : Nat) (f : Box → Box) : (s.modBox k b f).slots = s.slots := rfl
@[simp] theorem State.modBox_cores (s : State) (k : CoreRef) (b : Nat) (f : Box → Box) : (s.modBox k b f).cores = s.cores := rfl
@[simp] theorem State.modBox_quads (s : State) (k : CoreRef) (b : Nat) (f : Box → Box) : (s.modBox k b f).quads = s.quads := rfl
@[simp] theorem State.modBox_dies (s : State) (k : CoreRef) (b : Nat) (f : Box → Box) : (s.modBox k b f).dies = s.dies := rfl
@[simp] theorem State.modBox_pdies (s : State) (k : CoreRef) (b : Nat) (f : Box → Box) : (s.modBox k b f).pdies = s.pdies := rfl
@[simp] theorem State.modBox_ctxs (s : State) (k : CoreRef) (b : Nat) (f : Box → Box) : (s.modBox k b f).ctxs = s.ctxs := rfl
@[simp] theorem State.modBox_parts (s : State) (k : CoreRef) (b : Nat) (f : Box → Box) : (s.modBox k b f).parts = s.parts := rfl
@[simp] theorem State.modBox_hostqs (s : State) (k : CoreRef) (b : Nat) (f : Box → Box) : (s.modBox k b f).hostqs = s.hostqs := rfl
@[simp] theorem State.modBox_peers (s : State) (k : CoreRef) (b : Nat) (f : Box → Box) : (s.modBox k b f).peers = s.peers := rfl
@[simp] theorem State.modBox_links (s : State) (k : CoreRef) (b : Nat) (f : Box → Box) : (s.modBox k b f).links = s.links := rfl
@[simp] theorem State.modBox_mem (s : State) (k : CoreRef) (b : Nat) (f : Box → Box) : (s.modBox k b f).mem = s.mem := rfl
@[simp] theorem State.modBox_full (s : State) (k : CoreRef) (b : Nat) (f : Box → Box) : (s.modBox k b f).full = s.full := rfl
@[simp] theorem State.modBox_poison (s : State) (k : CoreRef) (b : Nat) (f : Box → Box) : (s.modBox k b f).poison = s.poison := rfl
@[simp] theorem State.modBox_drives (s : State) (k : CoreRef) (b : Nat) (f : Box → Box) : (s.modBox k b f).drives = s.drives := rfl
@[simp] theorem State.modBox_pkg (s : State) (k : CoreRef) (b : Nat) (f : Box → Box) : (s.modBox k b f).pkg = s.pkg := rfl
@[simp] theorem State.modBox_boot (s : State) (k : CoreRef) (b : Nat) (f : Box → Box) : (s.modBox k b f).boot = s.boot := rfl
@[simp] theorem State.modBox_rr (s : State) (k : CoreRef) (b : Nat) (f : Box → Box) : (s.modBox k b f).rr = s.rr := rfl
@[simp] theorem State.modBox_supf (s : State) (k : CoreRef) (b : Nat) (f : Box → Box) : (s.modBox k b f).supf = s.supf := rfl
@[simp] theorem State.modBox_thr (s : State) (k : CoreRef) (b : Nat) (f : Box → Box) : (s.modBox k b f).thr = s.thr := rfl
@[simp] theorem State.modBox_trip (s : State) (k : CoreRef) (b : Nat) (f : Box → Box) : (s.modBox k b f).trip = s.trip := rfl
@[simp] theorem State.modBox_bver (s : State) (k : CoreRef) (b : Nat) (f : Box → Box) : (s.modBox k b f).bver = s.bver := rfl
@[simp] theorem State.modBox_bstage (s : State) (k : CoreRef) (b : Nat) (f : Box → Box) : (s.modBox k b f).bstage = s.bstage := rfl
@[simp] theorem State.modBox_pwrcfg (s : State) (k : CoreRef) (b : Nat) (f : Box → Box) : (s.modBox k b f).pwrcfg = s.pwrcfg := rfl
@[simp] theorem State.modBox_pwrstat (s : State) (k : CoreRef) (b : Nat) (f : Box → Box) : (s.modBox k b f).pwrstat = s.pwrstat := rfl
@[simp] theorem State.modBox_cerrth (s : State) (k : CoreRef) (b : Nat) (f : Box → Box) : (s.modBox k b f).cerrth = s.cerrth := rfl
@[simp] theorem State.modBox_hwin (s : State) (k : CoreRef) (b : Nat) (f : Box → Box) : (s.modBox k b f).hwin = s.hwin := rfl
@[simp] theorem State.modBox_cooling (s : State) (k : CoreRef) (b : Nat) (f : Box → Box) : (s.modBox k b f).cooling = s.cooling := rfl
@[simp] theorem State.modBox_fwdig (s : State) (k : CoreRef) (b : Nat) (f : Box → Box) : (s.modBox k b f).fwdig = s.fwdig := rfl
@[simp] theorem State.modBox_attest (s : State) (k : CoreRef) (b : Nat) (f : Box → Box) : (s.modBox k b f).attest = s.attest := rfl
@[simp] theorem State.modBox_areq (s : State) (k : CoreRef) (b : Nat) (f : Box → Box) : (s.modBox k b f).areq = s.areq := rfl
@[simp] theorem State.modBox_adone (s : State) (k : CoreRef) (b : Nat) (f : Box → Box) : (s.modBox k b f).adone = s.adone := rfl
@[simp] theorem State.modBox_cxstat (s : State) (k : CoreRef) (b : Nat) (f : Box → Box) : (s.modBox k b f).cxstat = s.cxstat := rfl
@[simp] theorem State.modBox_regs (s : State) (k : CoreRef) (b : Nat) (f : Box → Box) : (s.modBox k b f).regs = s.regs := rfl
@[simp] theorem State.modBox_sels (s : State) (k : CoreRef) (b : Nat) (f : Box → Box) : (s.modBox k b f).sels = s.sels := rfl
@[simp] theorem State.modBox_ucie (s : State) (k : CoreRef) (b : Nat) (f : Box → Box) : (s.modBox k b f).ucie = s.ucie := rfl
@[simp] theorem State.modBox_pclock (s : State) (k : CoreRef) (b : Nat) (f : Box → Box) : (s.modBox k b f).pclock = s.pclock := rfl
@[simp] theorem State.modBox_cur (s : State) (k : CoreRef) (b : Nat) (f : Box → Box) : (s.modBox k b f).cur = s.cur := rfl
@[simp] theorem State.modBox_agenda (s : State) (k : CoreRef) (b : Nat) (f : Box → Box) : (s.modBox k b f).agenda = s.agenda := rfl
@[simp] theorem State.modBox_ids (s : State) (k : CoreRef) (b : Nat) (f : Box → Box) : (s.modBox k b f).ids = s.ids := rfl
@[simp] theorem State.modBox_fresh (s : State) (k : CoreRef) (b : Nat) (f : Box → Box) : (s.modBox k b f).fresh = s.fresh := rfl
@[simp] theorem State.modBox_far (s : State) (k : CoreRef) (b : Nat) (f : Box → Box) : (s.modBox k b f).far = s.far := rfl

/-! ## The same through the accessors -/

@[simp] theorem core_setSlot (s : State) (r : SlotRef) (t : Slot) (j : CoreRef) : (s.setSlot r t).core j = s.core j := rfl
@[simp] theorem quad_setSlot (s : State) (r : SlotRef) (t : Slot) (j : QuadRef) : (s.setSlot r t).quad j = s.quad j := rfl
@[simp] theorem die_setSlot (s : State) (r : SlotRef) (t : Slot) (x e : Nat) : (s.setSlot r t).die x e = s.die x e := rfl
@[simp] theorem pdie_setSlot (s : State) (r : SlotRef) (t : Slot) (e : Nat) : (s.setSlot r t).pdie e = s.pdie e := rfl
@[simp] theorem ctx_setSlot (s : State) (r : SlotRef) (t : Slot) (x : Nat) : (s.setSlot r t).ctx x = s.ctx x := rfl
@[simp] theorem part_setSlot (s : State) (r : SlotRef) (t : Slot) (x : Nat) : (s.setSlot r t).part x = s.part x := rfl
@[simp] theorem peer_setSlot (s : State) (r : SlotRef) (t : Slot) (x : Nat) : (s.setSlot r t).peer x = s.peer x := rfl
@[simp] theorem box_setSlot (s : State) (r : SlotRef) (t : Slot) (j : CoreRef) (e : Nat) : (s.setSlot r t).box j e = s.box j e := rfl
@[simp] theorem core_modSlot (s : State) (r : SlotRef) (f : Slot → Slot) (j : CoreRef) : (s.modSlot r f).core j = s.core j := rfl
@[simp] theorem quad_modSlot (s : State) (r : SlotRef) (f : Slot → Slot) (j : QuadRef) : (s.modSlot r f).quad j = s.quad j := rfl
@[simp] theorem die_modSlot (s : State) (r : SlotRef) (f : Slot → Slot) (x e : Nat) : (s.modSlot r f).die x e = s.die x e := rfl
@[simp] theorem pdie_modSlot (s : State) (r : SlotRef) (f : Slot → Slot) (e : Nat) : (s.modSlot r f).pdie e = s.pdie e := rfl
@[simp] theorem ctx_modSlot (s : State) (r : SlotRef) (f : Slot → Slot) (x : Nat) : (s.modSlot r f).ctx x = s.ctx x := rfl
@[simp] theorem part_modSlot (s : State) (r : SlotRef) (f : Slot → Slot) (x : Nat) : (s.modSlot r f).part x = s.part x := rfl
@[simp] theorem peer_modSlot (s : State) (r : SlotRef) (f : Slot → Slot) (x : Nat) : (s.modSlot r f).peer x = s.peer x := rfl
@[simp] theorem box_modSlot (s : State) (r : SlotRef) (f : Slot → Slot) (j : CoreRef) (e : Nat) : (s.modSlot r f).box j e = s.box j e := rfl
@[simp] theorem slot_modCore (s : State) (k : CoreRef) (f : Core → Core) (z : SlotRef) : (s.modCore k f).slot z = s.slot z := rfl
@[simp] theorem quad_modCore (s : State) (k : CoreRef) (f : Core → Core) (j : QuadRef) : (s.modCore k f).quad j = s.quad j := rfl
@[simp] theorem die_modCore (s : State) (k : CoreRef) (f : Core → Core) (x e : Nat) : (s.modCore k f).die x e = s.die x e := rfl
@[simp] theorem pdie_modCore (s : State) (k : CoreRef) (f : Core → Core) (e : Nat) : (s.modCore k f).pdie e = s.pdie e := rfl
@[simp] theorem ctx_modCore (s : State) (k : CoreRef) (f : Core → Core) (x : Nat) : (s.modCore k f).ctx x = s.ctx x := rfl
@[simp] theorem part_modCore (s : State) (k : CoreRef) (f : Core → Core) (x : Nat) : (s.modCore k f).part x = s.part x := rfl
@[simp] theorem peer_modCore (s : State) (k : CoreRef) (f : Core → Core) (x : Nat) : (s.modCore k f).peer x = s.peer x := rfl
@[simp] theorem box_modCore (s : State) (k : CoreRef) (f : Core → Core) (j : CoreRef) (e : Nat) : (s.modCore k f).box j e = s.box j e := rfl
@[simp] theorem slot_modQuad (s : State) (q : QuadRef) (f : Quad → Quad) (z : SlotRef) : (s.modQuad q f).slot z = s.slot z := rfl
@[simp] theorem core_modQuad (s : State) (q : QuadRef) (f : Quad → Quad) (j : CoreRef) : (s.modQuad q f).core j = s.core j := rfl
@[simp] theorem die_modQuad (s : State) (q : QuadRef) (f : Quad → Quad) (x e : Nat) : (s.modQuad q f).die x e = s.die x e := rfl
@[simp] theorem pdie_modQuad (s : State) (q : QuadRef) (f : Quad → Quad) (e : Nat) : (s.modQuad q f).pdie e = s.pdie e := rfl
@[simp] theorem ctx_modQuad (s : State) (q : QuadRef) (f : Quad → Quad) (x : Nat) : (s.modQuad q f).ctx x = s.ctx x := rfl
@[simp] theorem part_modQuad (s : State) (q : QuadRef) (f : Quad → Quad) (x : Nat) : (s.modQuad q f).part x = s.part x := rfl
@[simp] theorem peer_modQuad (s : State) (q : QuadRef) (f : Quad → Quad) (x : Nat) : (s.modQuad q f).peer x = s.peer x := rfl
@[simp] theorem box_modQuad (s : State) (q : QuadRef) (f : Quad → Quad) (j : CoreRef) (e : Nat) : (s.modQuad q f).box j e = s.box j e := rfl
@[simp] theorem slot_modDie (s : State) (cx d : Nat) (f : Die → Die) (z : SlotRef) : (s.modDie cx d f).slot z = s.slot z := rfl
@[simp] theorem core_modDie (s : State) (cx d : Nat) (f : Die → Die) (j : CoreRef) : (s.modDie cx d f).core j = s.core j := rfl
@[simp] theorem quad_modDie (s : State) (cx d : Nat) (f : Die → Die) (j : QuadRef) : (s.modDie cx d f).quad j = s.quad j := rfl
@[simp] theorem pdie_modDie (s : State) (cx d : Nat) (f : Die → Die) (e : Nat) : (s.modDie cx d f).pdie e = s.pdie e := rfl
@[simp] theorem ctx_modDie (s : State) (cx d : Nat) (f : Die → Die) (x : Nat) : (s.modDie cx d f).ctx x = s.ctx x := rfl
@[simp] theorem part_modDie (s : State) (cx d : Nat) (f : Die → Die) (x : Nat) : (s.modDie cx d f).part x = s.part x := rfl
@[simp] theorem peer_modDie (s : State) (cx d : Nat) (f : Die → Die) (x : Nat) : (s.modDie cx d f).peer x = s.peer x := rfl
@[simp] theorem box_modDie (s : State) (cx d : Nat) (f : Die → Die) (j : CoreRef) (e : Nat) : (s.modDie cx d f).box j e = s.box j e := rfl
@[simp] theorem slot_modPdie (s : State) (d : Nat) (f : PDie → PDie) (z : SlotRef) : (s.modPdie d f).slot z = s.slot z := rfl
@[simp] theorem core_modPdie (s : State) (d : Nat) (f : PDie → PDie) (j : CoreRef) : (s.modPdie d f).core j = s.core j := rfl
@[simp] theorem quad_modPdie (s : State) (d : Nat) (f : PDie → PDie) (j : QuadRef) : (s.modPdie d f).quad j = s.quad j := rfl
@[simp] theorem die_modPdie (s : State) (d : Nat) (f : PDie → PDie) (x e : Nat) : (s.modPdie d f).die x e = s.die x e := rfl
@[simp] theorem ctx_modPdie (s : State) (d : Nat) (f : PDie → PDie) (x : Nat) : (s.modPdie d f).ctx x = s.ctx x := rfl
@[simp] theorem part_modPdie (s : State) (d : Nat) (f : PDie → PDie) (x : Nat) : (s.modPdie d f).part x = s.part x := rfl
@[simp] theorem peer_modPdie (s : State) (d : Nat) (f : PDie → PDie) (x : Nat) : (s.modPdie d f).peer x = s.peer x := rfl
@[simp] theorem box_modPdie (s : State) (d : Nat) (f : PDie → PDie) (j : CoreRef) (e : Nat) : (s.modPdie d f).box j e = s.box j e := rfl
@[simp] theorem slot_modCtx (s : State) (cx : Nat) (f : Ctx → Ctx) (z : SlotRef) : (s.modCtx cx f).slot z = s.slot z := rfl
@[simp] theorem core_modCtx (s : State) (cx : Nat) (f : Ctx → Ctx) (j : CoreRef) : (s.modCtx cx f).core j = s.core j := rfl
@[simp] theorem quad_modCtx (s : State) (cx : Nat) (f : Ctx → Ctx) (j : QuadRef) : (s.modCtx cx f).quad j = s.quad j := rfl
@[simp] theorem die_modCtx (s : State) (cx : Nat) (f : Ctx → Ctx) (x e : Nat) : (s.modCtx cx f).die x e = s.die x e := rfl
@[simp] theorem pdie_modCtx (s : State) (cx : Nat) (f : Ctx → Ctx) (e : Nat) : (s.modCtx cx f).pdie e = s.pdie e := rfl
@[simp] theorem part_modCtx (s : State) (cx : Nat) (f : Ctx → Ctx) (x : Nat) : (s.modCtx cx f).part x = s.part x := rfl
@[simp] theorem peer_modCtx (s : State) (cx : Nat) (f : Ctx → Ctx) (x : Nat) : (s.modCtx cx f).peer x = s.peer x := rfl
@[simp] theorem box_modCtx (s : State) (cx : Nat) (f : Ctx → Ctx) (j : CoreRef) (e : Nat) : (s.modCtx cx f).box j e = s.box j e := rfl
@[simp] theorem slot_modPart (s : State) (p : Nat) (f : Part → Part) (z : SlotRef) : (s.modPart p f).slot z = s.slot z := rfl
@[simp] theorem core_modPart (s : State) (p : Nat) (f : Part → Part) (j : CoreRef) : (s.modPart p f).core j = s.core j := rfl
@[simp] theorem quad_modPart (s : State) (p : Nat) (f : Part → Part) (j : QuadRef) : (s.modPart p f).quad j = s.quad j := rfl
@[simp] theorem die_modPart (s : State) (p : Nat) (f : Part → Part) (x e : Nat) : (s.modPart p f).die x e = s.die x e := rfl
@[simp] theorem pdie_modPart (s : State) (p : Nat) (f : Part → Part) (e : Nat) : (s.modPart p f).pdie e = s.pdie e := rfl
@[simp] theorem ctx_modPart (s : State) (p : Nat) (f : Part → Part) (x : Nat) : (s.modPart p f).ctx x = s.ctx x := rfl
@[simp] theorem peer_modPart (s : State) (p : Nat) (f : Part → Part) (x : Nat) : (s.modPart p f).peer x = s.peer x := rfl
@[simp] theorem box_modPart (s : State) (p : Nat) (f : Part → Part) (j : CoreRef) (e : Nat) : (s.modPart p f).box j e = s.box j e := rfl
@[simp] theorem slot_modPeer (s : State) (p : Nat) (f : Peer → Peer) (z : SlotRef) : (s.modPeer p f).slot z = s.slot z := rfl
@[simp] theorem core_modPeer (s : State) (p : Nat) (f : Peer → Peer) (j : CoreRef) : (s.modPeer p f).core j = s.core j := rfl
@[simp] theorem quad_modPeer (s : State) (p : Nat) (f : Peer → Peer) (j : QuadRef) : (s.modPeer p f).quad j = s.quad j := rfl
@[simp] theorem die_modPeer (s : State) (p : Nat) (f : Peer → Peer) (x e : Nat) : (s.modPeer p f).die x e = s.die x e := rfl
@[simp] theorem pdie_modPeer (s : State) (p : Nat) (f : Peer → Peer) (e : Nat) : (s.modPeer p f).pdie e = s.pdie e := rfl
@[simp] theorem ctx_modPeer (s : State) (p : Nat) (f : Peer → Peer) (x : Nat) : (s.modPeer p f).ctx x = s.ctx x := rfl
@[simp] theorem part_modPeer (s : State) (p : Nat) (f : Peer → Peer) (x : Nat) : (s.modPeer p f).part x = s.part x := rfl
@[simp] theorem box_modPeer (s : State) (p : Nat) (f : Peer → Peer) (j : CoreRef) (e : Nat) : (s.modPeer p f).box j e = s.box j e := rfl
@[simp] theorem slot_modBox (s : State) (k : CoreRef) (b : Nat) (f : Box → Box) (z : SlotRef) : (s.modBox k b f).slot z = s.slot z := rfl
@[simp] theorem core_modBox (s : State) (k : CoreRef) (b : Nat) (f : Box → Box) (j : CoreRef) : (s.modBox k b f).core j = s.core j := rfl
@[simp] theorem quad_modBox (s : State) (k : CoreRef) (b : Nat) (f : Box → Box) (j : QuadRef) : (s.modBox k b f).quad j = s.quad j := rfl
@[simp] theorem die_modBox (s : State) (k : CoreRef) (b : Nat) (f : Box → Box) (x e : Nat) : (s.modBox k b f).die x e = s.die x e := rfl
@[simp] theorem pdie_modBox (s : State) (k : CoreRef) (b : Nat) (f : Box → Box) (e : Nat) : (s.modBox k b f).pdie e = s.pdie e := rfl
@[simp] theorem ctx_modBox (s : State) (k : CoreRef) (b : Nat) (f : Box → Box) (x : Nat) : (s.modBox k b f).ctx x = s.ctx x := rfl
@[simp] theorem part_modBox (s : State) (k : CoreRef) (b : Nat) (f : Box → Box) (x : Nat) : (s.modBox k b f).part x = s.part x := rfl
@[simp] theorem peer_modBox (s : State) (k : CoreRef) (b : Nat) (f : Box → Box) (x : Nat) : (s.modBox k b f).peer x = s.peer x := rfl

end Sys2Proof.Machine
end

