-- ==== Sys2Proof/Laws/Memory.lean ====
section
/-! SUPPORT. Memory: what a byte reads as after a write, and that every memory operation keeps the canonical form. -/

namespace Sys2Proof.Machine

open Sys2Proof

/-- Every key of a memory above k is above a lower key. -/
theorem above_mono {i k : Nat} (h : i ≤ k) {m : List Host.Cell} (a : Memory.above k m) : Memory.above i m := by
  induction m with
  | nil => rfl
  | cons c m ih =>
    simp only [Memory.above, Bool.and_eq_true, decide_eq_true_eq] at a ⊢
    exact ⟨by omega, ih a.2⟩

/-- A byte whose key lies below every entry reads as unwritten. -/
theorem memGet_above {k : Nat} {m : List Host.Cell} (a : Memory.above k m) : memGet k m = unwritten := by
  cases m with
  | nil => rfl
  | cons c m =>
    simp only [Memory.above, Bool.and_eq_true, decide_eq_true_eq] at a
    have : ¬ k = c.1 := by omega
    simp [memGet, this, a.1]

/-- A write keeps lower bounds below its key. -/
theorem above_memSet {i k : Nat} (h : i < k) (b : Byte) {m : List Host.Cell} (a : Memory.above i m) :
    Memory.above i (memSet k b m) := by
  induction m with
  | nil => by_cases hb : b = unwritten <;> simp [memSet, hb, Memory.above, h]
  | cons c m ih =>
    obtain ⟨j, x⟩ := c
    simp only [Memory.above, Bool.and_eq_true, decide_eq_true_eq] at a
    simp only [memSet]
    split
    · split <;> simp_all [Memory.above]
    · split
      · split <;> simp_all [Memory.above]
      · simp [Memory.above, a.1, ih a.2]

/-- A write of one byte keeps the canonical form. -/
theorem memSet_wf (k : Nat) (b : Byte) {m : List Host.Cell} (w : Memory.wf m) : Memory.wf (memSet k b m) := by
  induction m with
  | nil => by_cases hb : b = unwritten <;> simp [memSet, hb, Memory.wf, Memory.above]
  | cons c m ih =>
    obtain ⟨j, x⟩ := c
    have w' := w
    simp only [Memory.wf, Bool.and_eq_true, decide_eq_true_eq] at w
    obtain ⟨⟨hx, ha⟩, hm⟩ := w
    simp only [memSet]
    split
    · next h =>
      subst h
      split
      · exact hm
      · next hb => simp [Memory.wf, hb, ha, hm]
    · next h =>
      split
      · next g =>
        split
        · exact w'
        · next hb =>
          have : Memory.above k ((j, x) :: m) := by simp [Memory.above, g, above_mono (Nat.le_of_lt g) ha]
          simp [Memory.wf, hb, hx, ha, hm, Memory.above, g, above_mono (Nat.le_of_lt g) ha]
      · next g =>
        have : j < k := by omega
        simp [Memory.wf, hx, above_memSet this b ha, ih hm]

/-- A byte read where it was written. -/
theorem memGet_memSet_same (k : Nat) (b : Byte) {m : List Host.Cell} (w : Memory.wf m) : memGet k (memSet k b m) = b := by
  induction m with
  | nil => by_cases hb : b = unwritten <;> simp [memSet, hb, memGet]
  | cons c m ih =>
    obtain ⟨j, x⟩ := c
    simp only [Memory.wf, Bool.and_eq_true, decide_eq_true_eq] at w
    obtain ⟨⟨-, ha⟩, hm⟩ := w
    simp only [memSet]
    split
    · next h =>
      subst h
      split
      · next hb => rw [memGet_above ha, hb]
      · simp [memGet]
    · next h =>
      split
      · next g =>
        split
        · next hb => simp [memGet, h, g, hb]
        · simp [memGet]
      · next g => simp [memGet, h, g, ih hm]

/-- A byte read elsewhere. -/
theorem memGet_memSet_ne {i k : Nat} (h : i ≠ k) (b : Byte) {m : List Host.Cell} (w : Memory.wf m) :
    memGet i (memSet k b m) = memGet i m := by
  induction m with
  | nil =>
    by_cases hb : b = unwritten
    · simp [memSet, hb]
    · by_cases g : i < k <;> simp [memSet, hb, memGet, h, g]
  | cons c m ih =>
    obtain ⟨j, x⟩ := c
    simp only [Memory.wf, Bool.and_eq_true, decide_eq_true_eq] at w
    obtain ⟨⟨-, ha⟩, hm⟩ := w
    simp only [memSet]
    split
    · next e =>
      subst e
      split
      · by_cases g : i < k
        · simp [memGet, h, g, memGet_above (above_mono (Nat.le_of_lt g) ha)]
        · simp [memGet, h, g]
      · simp [memGet, h]
    · next e =>
      split
      · next g =>
        split
        · rfl
        · by_cases g2 : i < k
          · have g3 : ¬ i = j := by omega
            have g4 : i < j := by omega
            simp [memGet, h, g2, g3, g4]
          · simp [memGet, h, g2]
      · by_cases g2 : i = j
        · simp [memGet, g2]
        · by_cases g3 : i < j <;> simp [memGet, g2, g3, ih hm]

/-- Writes of pairs keep the canonical form. -/
theorem memPairs_wf (ps : List (Nat × Byte)) : ∀ {m : List Host.Cell}, Memory.wf m → Memory.wf (memPairs m ps) := by
  induction ps with
  | nil => exact fun w => w
  | cons p ps ih => exact fun w => ih (memSet_wf p.1 p.2 w)

/-- Writes of pairs leave every other byte. -/
theorem memGet_memPairs_ne {i : Nat} (ps : List (Nat × Byte)) (h : ∀ p ∈ ps, p.1 ≠ i) :
    ∀ {m : List Host.Cell}, Memory.wf m → memGet i (memPairs m ps) = memGet i m := by
  induction ps with
  | nil => exact fun _ => rfl
  | cons p ps ih =>
    intro m w
    have h1 : i ≠ p.1 := fun e => h p (List.mem_cons_self ..) e.symm
    have := ih (fun q hq => h q (List.mem_cons_of_mem _ hq)) (memSet_wf p.1 p.2 w)
    simpa [memPairs, memGet_memSet_ne h1 p.2 w] using this

/-- Writes of a run of bytes keep the canonical form. -/
theorem memStore_wf (bs : List Byte) : ∀ (k : Nat) {m : List Host.Cell}, Memory.wf m → Memory.wf (memStore m k bs) := by
  induction bs with
  | nil => exact fun _ _ w => w
  | cons b bs ih => exact fun k _ w => ih (k + 1) (memSet_wf k b w)

/-- What is left of a memory keeps lower bounds. -/
theorem above_filter {k : Nat} (p : Host.Cell → Bool) {m : List Host.Cell} (a : Memory.above k m) :
    Memory.above k (m.filter p) := by
  induction m with
  | nil => rfl
  | cons c m ih =>
    simp only [Memory.above, Bool.and_eq_true, decide_eq_true_eq] at a
    by_cases h : p c <;> simp [List.filter, h, Memory.above, a.1, ih a.2]

/-- Entries taken out leave the canonical form. -/
theorem filter_wf (p : Host.Cell → Bool) {m : List Host.Cell} (w : Memory.wf m) : Memory.wf (m.filter p) := by
  induction m with
  | nil => rfl
  | cons c m ih =>
    simp only [Memory.wf, Bool.and_eq_true, decide_eq_true_eq] at w
    by_cases h : p c <;> simp [List.filter, h, Memory.wf, w.1.1, above_filter p w.1.2, ih w.2]

/-- A range cleared leaves the canonical form. -/
theorem memClear_wf (k n : Nat) {m : List Host.Cell} (w : Memory.wf m) : Memory.wf (memClear m k n) := filter_wf _ w

/-- A store keeps the canonical form. -/
theorem store_wf {s : State} (ps : List (Nat × Byte)) (w : Memory.wf s.mem) : Memory.wf (s.store ps).mem := memPairs_wf ps w

/-- A store of a number keeps the canonical form. -/
theorem storeLE_wf {s : State} (k n v : Nat) (w : Memory.wf s.mem) : Memory.wf (s.storeLE k n v).mem := store_wf _ w

/-- A range zeroed keeps the canonical form. -/
theorem wipe_wf {s : State} (k n : Nat) (w : Memory.wf s.mem) : Memory.wf (s.wipe k n).mem := memClear_wf k n w

/-- A range copied keeps the canonical form. -/
theorem copyRange_wf {s : State} (a b n : Nat) (w : Memory.wf s.mem) : Memory.wf (s.copyRange a b n).mem :=
  memPairs_wf _ (memClear_wf _ _ w)

/-- A context forgotten keeps the canonical form. -/
theorem forgetCtx_wf {s : State} (cx : Nat) (w : Memory.wf s.mem) : Memory.wf (s.forgetCtx cx).mem := filter_wf _ w

/-- A store leaves every byte outside it. -/
theorem store_ne {s : State} {i : Nat} (ps : List (Nat × Byte)) (h : ∀ p ∈ ps, p.1 ≠ i) (w : Memory.wf s.mem) :
    memGet i (s.store ps).mem = memGet i s.mem := memGet_memPairs_ne ps h w

end Sys2Proof.Machine
end

