-- ==== Sys2Proof/Laws/Ops.lean ====
section
/-! SUPPORT. What the shared operations can do: the frame of an instruction, taking a fault. -/

namespace Sys2Proof.Machine

open Sys2Proof

variable {i : Instr} {c : Ctl} {len : Nat} {fb : Bool} {reads writes : Slot → List Reg} {on : Slot → Bool} {body : Body}
  {s t : State}

/-- An instruction that touches nothing is not held back by a fence. -/
@[simp] theorem not_fenced (t : Slot) : t.fenced (false, false, false) = false := by simp [Slot.fenced]

/-- Nothing is held back by a fence that does not order the instruction (09 R189). -/
theorem meetFence_unfenced {r : SlotRef} {x : Bool × Bool × Bool} (h : (s.slot r).fenced x = false) : s.meetFence r x = s := by
  simp only [Slot.fenced, Bool.or_eq_false_iff, Bool.and_eq_false_iff] at h
  unfold State.meetFence
  rcases hf : (s.slot r).fence with _ | _ <;> rcases he : (s.slot r).fenceE with _ | _ <;> simp_all <;> intro h1 <;> simp_all

/-- What fences hold back is released once. -/
theorem meetFence_fenced {r : SlotRef} {x : Bool × Bool × Bool} (h : (s.slot r).fenced x = true) :
    ∃ sc, s.meetFence r x = s.release r sc := by
  simp only [Slot.fenced] at h
  unfold State.meetFence
  rcases hf : (s.slot r).fence with _ | sc <;> rcases he : (s.slot r).fenceE with _ | sc' <;> simp_all <;> exact ⟨_, rfl⟩

/-- An instruction that executes, with no fence before it to meet, answers what its body's end makes of the package. -/
theorem issue_runs (h : Executes s c fb reads writes on = true)
    (hf : (s.slot s.cur).fenced (touches i) = false := by simp [touches]) :
    issue i c len fb reads writes on body s =
      .next (finishRes s s.cur i len (body s.cur (s.slot s.cur) (s.issued c len (writes (s.slot s.cur))))) := by
  simp only [Executes, List.cons_append, Bool.and_eq_true, Bool.not_eq_true', Option.isNone_iff_eq_none] at h
  obtain ⟨⟨⟨⟨h1, h2⟩, h3⟩, h4⟩, h5⟩ := h
  simp [issue, h1, h2, h3, h5, runBody, hf, meetFence_unfenced hf, h4, State.issued]

/-- A body that cannot fail: the effect follows the issue. -/
theorem issue_ok {f : SlotRef → Slot → State → State} (h : Executes s c fb reads writes on = true)
    (hf : (s.slot s.cur).fenced (touches i) = false := by simp [touches]) :
    issue i c len fb reads writes on (okBody f) s =
      .next (f s.cur (s.slot s.cur) (s.issued c len (writes (s.slot s.cur)))) := issue_runs h hf

/-- Everything an instruction can come to with no fence before it to meet: not ready, a fault, a false guard, its body's end. -/
theorem issue_cases (h : issue i c len fb reads writes on body s = .next t)
    (hf : (s.slot s.cur).fenced (touches i) = false := by simp [touches]) :
    t = s ∨ (∃ tr, t = s.takeFault s.cur (s.slot s.cur).pc len tr) ∨
      (on (s.slot s.cur) = false ∧ t = s.setSlot s.cur (retire (s.slot s.cur) s.now c.w len)) ∨
      (Executes s c fb reads writes on = true ∧
        t = finishRes s s.cur i len (body s.cur (s.slot s.cur) (s.issued c len (writes (s.slot s.cur))))) := by
  unfold issue at h
  simp only at h
  split at h
  · cases h; exact .inl rfl
  · rename_i h1
    split at h
    · cases h; exact .inr (.inl ⟨_, rfl⟩)
    · rename_i h2
      split at h
      · cases h; exact .inr (.inl ⟨_, rfl⟩)
      · rename_i h3
        split at h
        · rename_i h5
          cases h
          unfold runBody
          simp only [hf, Bool.false_and, Bool.false_eq_true, if_false, meetFence_unfenced hf]
          split
          · exact .inr (.inl ⟨_, rfl⟩)
          · rename_i h4
            exact .inr (.inr (.inr ⟨by simp_all [Executes], rfl⟩))
        · rename_i h5
          cases h
          exact .inr (.inr (.inl ⟨by simpa using h5, rfl⟩))

/-- An instruction answers a next state, whatever the slot holds. -/
theorem issue_next : ∃ t, issue i c len fb reads writes on body s = .next t := by
  unfold issue
  simp only
  split
  · exact ⟨_, rfl⟩
  · split
    · exact ⟨_, rfl⟩
    · split
      · exact ⟨_, rfl⟩
      · split <;> exact ⟨_, rfl⟩

/-! ## Taking a fault -/

/-- Flushing a delta buffer touches no slot. -/
@[simp] theorem flush_slots (s : State) (k : CoreRef) (o : Option (SlotRef × Nat × Time)) : (s.flush k o).slots = s.slots := by
  unfold State.flush
  simp only
  split <;> rfl

/-- Two states with the same slots have the same slot. -/
theorem slot_of_slots {s t : State} (h : t.slots = s.slots) (r : SlotRef) : t.slot r = s.slot r := by
  unfold State.slot
  rw [h]

/-- The binding of a slot hangs on its key alone. -/
theorem st_of_key (s : State) {r q : SlotRef} (h : slotKey r = slotKey q) : (s.slot r).st = (s.slot q).st := by
  unfold State.slot mget
  rw [h]
  cases mfind (slotKey q) s.slots <;> rfl

/-- Putting back a slot with its binding unchanged changes no binding. -/
theorem setSlot_st {s : State} {q : SlotRef} {t : Slot} (h : t.st = (s.slot q).st) (r : SlotRef) :
    ((s.setSlot q t).slot r).st = (s.slot r).st := by
  by_cases g : slotKey r = slotKey q
  · rw [st_of_key _ g, slot_setSlot, h, st_of_key s g]
  · exact congrArg Slot.st (mget_mput_ne _ g _ _)

theorem modSlot_st {f : Slot → Slot} (h : ∀ t, (f t).st = t.st) (s : State) (q r : SlotRef) :
    ((s.modSlot q f).slot r).st = (s.slot r).st := setSlot_st (h _) r

/-- A fold of steps that keep a binding keeps it. -/
theorem foldl_st {α : Type} {f : State → α → State} {r : SlotRef} (h : ∀ s x, ((f s x).slot r).st = (s.slot r).st)
    (l : List α) (s : State) : ((l.foldl f s).slot r).st = (s.slot r).st := by
  induction l generalizing s with
  | nil => rfl
  | cons x l ih => rw [List.foldl_cons, ih, h]

/-- A write to a register changes no binding. -/
@[simp] theorem applyWrite_st (t : Slot) (w : RegWrite) : (applyWrite t w).st = t.st := by
  unfold applyWrite
  split <;> (try split) <;> rfl

@[simp] theorem applyWrites_st (t : Slot) (ws : List RegWrite) : (applyWrites t ws).st = t.st := by
  unfold applyWrites
  induction ws generalizing t with
  | nil => rfl
  | cons w ws ih => rw [List.foldl_cons, ih, applyWrite_st]

@[simp] theorem landAll_st (t : Slot) : (landAll t).st = t.st := applyWrites_st ..

@[simp] theorem landAp_st (t : Slot) (a : ApWrite) : (landAp t a).st = t.st := by
  unfold landAp
  exact applyWrite_st ..

@[simp] theorem landAps_st (l : List ApWrite) (t : Slot) : (l.foldl landAp t).st = t.st := by
  induction l generalizing t with
  | nil => rfl
  | cons a l ih => rw [List.foldl_cons, ih, landAp_st]

/-- Folding steps that touch no slot touches none. -/
theorem foldl_slots {α : Type} {f : State → α → State} (h : ∀ s x, (f s x).slots = s.slots) (l : List α) (s : State) :
    (l.foldl f s).slots = s.slots := by
  induction l generalizing s with
  | nil => rfl
  | cons x l ih => rw [List.foldl_cons, ih, h]

@[simp] theorem store_slots (s : State) (ps : List (Nat × Byte)) : (s.store ps).slots = s.slots := rfl

/-- What a die's bridges carry reaches its homes and touches no slot. -/
@[simp] theorem bridgeOut_slots (s : State) (cx d : Nat) (ls : List Nat) : (s.bridgeOut cx d ls).slots = s.slots := by
  unfold State.bridgeOut
  simp only
  refine foldl_slots (fun s x => ?_) _ s
  exact foldl_slots (fun s e => store_slots ..) _ s

@[simp] theorem arrived_slots (s : State) (r : SlotRef) (fs : List Flight) : (s.arrived r fs).slots = s.slots := bridgeOut_slots ..

/-- An acquire touches no slot. -/
@[simp] theorem acquire_slots (s : State) (r : SlotRef) (sc : Scope) : (s.acquire r sc).slots = s.slots := by
  unfold State.acquire
  simp only
  split <;> rfl

/-- Landing the results of a slot changes no binding. -/
theorem landSlot_st (s : State) (q r : SlotRef) : ((s.landSlot q).slot r).st = (s.slot r).st := by
  unfold State.landSlot
  simp only
  rw [foldl_st, setSlot_st]
  · exact congrArg Slot.st (slot_of_slots (arrived_slots ..) r)
  · simp
  · intro s f
    cases f <;> first | rfl | exact congrArg Slot.st (slot_of_slots (acquire_slots ..) r)

/-- Bringing a quad's stores to their homes touches no slot. -/
@[simp] theorem drainLines_slots (s : State) (q : QuadRef) (ls : List Nat) : (s.drainLines q ls).slots = s.slots := by
  unfold State.drainLines
  simp only [State.modQuad_slots]
  rw [foldl_slots fun s e => store_slots .., bridgeOut_slots]

/-- An atomic at its home touches no slot. -/
@[simp] theorem atomicStep_slots (s : State) (r : SlotRef) (ks : List Nat) (f : Aop) (b n : W32) :
    (s.atomicStep r ks f b n).2.slots = s.slots := by
  unfold State.atomicStep
  simp only [store_slots, drainLines_slots]

/-- Reading loads in flight changes no binding. -/
theorem samplePlaces_st (s : State) (q r : SlotRef) (l : List Bool) : ((s.samplePlaces q l).slot r).st = (s.slot r).st := by
  unfold State.samplePlaces
  simp only
  rw [modSlot_st (by intro; rfl)]
  exact congrArg Slot.st (slot_of_slots (arrived_slots ..) r)

theorem sampleLines_st (s : State) (q r : SlotRef) (ls : List Nat) : ((s.sampleLines q ls).slot r).st = (s.slot r).st :=
  samplePlaces_st ..

@[simp] theorem setFull_slots (s : State) (k : Nat) (b : Bool) : (s.setFull k b).slots = s.slots := rfl

/-- A value on its way changes no binding. -/
theorem fly_st (s : State) (q r : SlotRef) (f : Flight) : ((s.fly q f).slot r).st = (s.slot r).st := by
  unfold State.fly
  exact modSlot_st (f := fun t => { t with flights := t.flights ++ [f] }) (fun _ => rfl) ..

@[simp] theorem advance_st (t : Slot) (len : Nat) : (advance t len).st = t.st := by
  unfold advance
  split <;> (try split) <;> (try split) <;> rfl

@[simp] theorem retire_st (t : Slot) (now : Nat) (w : BitVec 2) (len : Nat) : (retire t now w len).st = t.st := by
  simp [retire, ageAperture]

/-- The step of an ldf changes no binding. -/
theorem ldfStep_st (s : State) (q r : SlotRef) (d : Reg) (k : Nat) (z : BitVec 1) (take : Bool) (a : Option Scope) :
    ((s.ldfStep q d k z take a).slot r).st = (s.slot r).st := by
  unfold State.ldfStep
  simp only
  rw [fly_st]
  split
  · rw [slot_of_slots (foldl_slots (fun s x => setFull_slots ..) _ _), slot_of_slots (drainLines_slots ..), sampleLines_st]
  · rw [slot_of_slots (drainLines_slots ..), sampleLines_st]

theorem serveLdf_st (s : State) (q r : SlotRef) : ((s.serveLdf q).slot r).st = (s.slot r).st := by
  unfold State.serveLdf
  split
  · split
    · dsimp only
      rw [apply_ite (fun u : State => (u.slot r).st), ite_eq_right_iff]
      intro
      rw [ldfStep_st, setSlot_st]
      rw [retire_st]; rfl
    · rfl
  · rfl

/-- A word that becomes full wakes who waits for it, and changes no binding (13 R281). -/
theorem fill_st (s : State) (k : Nat) (r : SlotRef) : ((s.fill k).slot r).st = (s.slot r).st := by
  unfold State.fill
  simp only
  rw [foldl_st fun s x => serveLdf_st .., slot_of_slots (setFull_slots ..)]

theorem feStep_st (s : State) (q r : SlotRef) (op : FeOp) (k : Nat) : ((s.feStep q op k).2.slot r).st = (s.slot r).st := by
  unfold State.feStep
  cases op <;> simp only
  · rw [fill_st, slot_of_slots (drainLines_slots ..)]
  · rw [slot_of_slots (setFull_slots ..), slot_of_slots (drainLines_slots ..)]
  · rw [fill_st]
    exact congrArg Slot.st (slot_of_slots (drainLines_slots ..) r)
  · rw [slot_of_slots (drainLines_slots ..)]

/-- An operation executed at its home changes no binding (13 R282, R283). -/
theorem homeOp_st {s : State} {q : SlotRef} {f : Flight} {x : Flight × State} (h : s.homeOp q f = some x) (r : SlotRef) :
    (x.2.slot r).st = (s.slot r).st := by
  unfold State.homeOp at h
  split at h <;> simp only [Option.some.injEq, reduceCtorEq] at h
  · subst h; exact congrArg Slot.st (slot_of_slots (atomicStep_slots ..) r)
  · subst h; exact feStep_st ..

theorem homeAt_st (s : State) (q r : SlotRef) (i : Nat) : ((s.homeAt q i).slot r).st = (s.slot r).st := by
  unfold State.homeAt
  split
  · rename_i x h
    rw [modSlot_st (by intro; rfl)]
    obtain ⟨f, -, hf⟩ := Option.bind_eq_some_iff.mp h
    exact homeOp_st hf r
  · rfl

theorem homeIf_st (s : State) (q r : SlotRef) (go : Nat → Bool) : ((s.homeIf q go).slot r).st = (s.slot r).st := by
  unfold State.homeIf
  simp only
  rw [foldl_st, sampleLines_st]
  intro s i
  split
  · exact homeAt_st ..
  · rfl

/-- Executing the operations of a slot at their homes changes no binding. -/
theorem atomicsHome_st (s : State) (q r : SlotRef) : ((s.atomicsHome q).slot r).st = (s.slot r).st := homeIf_st ..

/-- Landing what can land of a slot changes no binding. -/
theorem landBusy_st (s : State) (q r : SlotRef) : ((s.landBusy q).slot r).st = (s.slot r).st := by
  unfold State.landBusy
  split
  · rfl
  · rw [landSlot_st, atomicsHome_st]

/-- Stopping a halt group changes no binding. -/
theorem stopGroup_st (s : State) (pd g : Nat) (r : SlotRef) : ((s.stopGroup pd g).slot r).st = (s.slot r).st := by
  unfold State.stopGroup
  simp only
  rw [foldl_st]
  · rfl
  · intro s x
    split
    · split
      · rw [foldl_st, slot_of_slots (flush_slots ..)]
        intro s n
        exact landBusy_st ..
      · rfl
    · rfl

theorem haltStop_st (n : Nat) (l : List (Nat × Nat)) (s : State) (r : SlotRef) :
    ((s.haltStop n l).slot r).st = (s.slot r).st := by
  induction n generalizing l s with
  | zero => rfl
  | succ n ih =>
    cases l with
    | nil => rfl
    | cons x rest =>
      unfold State.haltStop
      simp only
      split
      · exact ih ..
      · rw [ih, stopGroup_st]

/-- Stopping halt groups changes no binding. -/
theorem haltGroups_st (s : State) (pd : Nat) (gs : List Nat) (r : SlotRef) : ((s.haltGroups pd gs).slot r).st = (s.slot r).st :=
  haltStop_st ..

/-- Waking the supervisor changes no binding. -/
theorem wakeSup_st (s : State) (pd : Nat) (r : SlotRef) : ((s.wakeSup pd).slot r).st = (s.slot r).st := by
  unfold State.wakeSup
  exact foldl_st (fun s n => modSlot_st (f := fun t => { t with wake := true }) (fun _ => rfl) s _ r) _ s

/-- Queueing a packet changes no binding. -/
theorem pushPacket_st (s : State) (pd : Nat) (p : Packet) (r : SlotRef) : ((s.pushPacket pd p).slot r).st = (s.slot r).st := by
  unfold State.pushPacket
  rw [wakeSup_st, slot_of_slots (s := s)]
  simp only [State.modPdie_slots, store_slots]

/-- Sending a packet changes no binding. -/
theorem sendPacket_st (s : State) (r : SlotRef) (p : Packet) : ((s.sendPacket r p).slot r).st = (s.slot r).st := by
  unfold State.sendPacket
  simp only
  split
  · rfl
  · split
    · exact pushPacket_st ..
    · rw [slot_modSlot]

/-- A slot that freezes is frozen (10 R211). -/
theorem freeze_frozen (s : State) (r : SlotRef) (pc : Word) (len : Nat) (tr : Trap) :
    ((s.freeze r pc len tr).slot r).st = .frozen := by
  unfold State.freeze
  simp only
  rw [haltGroups_st, sendPacket_st, slot_modSlot]
  rfl

/-- A slot that takes a fault with every result in that no event can land at once is frozen (10 R211). -/
theorem takeFault_frozen {r : SlotRef} (h : resting (s.slot r) = true) (pc : Word) (len : Nat) (tr : Trap) :
    ((s.takeFault r pc len tr).slot r).st = .frozen := by
  unfold State.takeFault
  rw [if_pos h]
  exact freeze_frozen ..

/-- While such a result has not come, the slot keeps the fault and nothing else changes (04 R97; 10 R211). -/
theorem takeFault_waits {r : SlotRef} (h : resting (s.slot r) = false) (pc : Word) (len : Nat) (tr : Trap) :
    s.takeFault r pc len tr =
      s.modSlot r fun t => { t with fault := some (pc, len, tr), wait := none, walk := none, fdrop := none } := by
  unfold State.takeFault
  simp [h]

/-- The frame of an encoded instruction of a form with some body. -/
def Form.run (f : Form) (i : Instr) (body : Body) : State → Host.Outcome State Fault Refusal :=
  if f.lanes then issueLanes i f.c f.len f.reads f.writes f.on body
  else issue i f.c f.len f.forbidden f.reads f.writes f.on body

theorem absurd_lt {p : Prop} {a b : Nat} (h : a < b) (g : Nat.ble b a = true) : p :=
  absurd h (Nat.not_lt.mpr (Nat.le_of_ble_eq_true g))

/-! Every encoded instruction is its form's frame around a body of its own, forty constructors at a time. -/

theorem exec_form_0 {f : Form} (hi : i.ctorIdx < 40) (h : formOf i = some f) :
    ∃ body, exec i = f.run i body := by
  cases i <;> first | exact absurd_lt hi rfl | (cases h; exact ⟨_, rfl⟩)

theorem exec_form_1 {f : Form} (lo : 40 ≤ i.ctorIdx) (hi : i.ctorIdx < 80) (h : formOf i = some f) :
    ∃ body, exec i = f.run i body := by
  cases i <;> first | exact absurd_lt hi rfl | exact absurd_lt (Nat.lt_succ_of_le lo) rfl | (cases h; exact ⟨_, rfl⟩)

theorem exec_form_2 {f : Form} (lo : 80 ≤ i.ctorIdx) (hi : i.ctorIdx < 120) (h : formOf i = some f) :
    ∃ body, exec i = f.run i body := by
  cases i <;> first | exact absurd_lt hi rfl | exact absurd_lt (Nat.lt_succ_of_le lo) rfl | (cases h; exact ⟨_, rfl⟩)

theorem exec_form_3 {f : Form} (lo : 120 ≤ i.ctorIdx) (hi : i.ctorIdx < 160) (h : formOf i = some f) :
    ∃ body, exec i = f.run i body := by
  cases i <;> first | exact absurd_lt hi rfl | exact absurd_lt (Nat.lt_succ_of_le lo) rfl | (cases h; exact ⟨_, rfl⟩)

theorem exec_form_4 {f : Form} (lo : 160 ≤ i.ctorIdx) (hi : i.ctorIdx < 200) (h : formOf i = some f) :
    ∃ body, exec i = f.run i body := by
  cases i <;> first | exact absurd_lt hi rfl | exact absurd_lt (Nat.lt_succ_of_le lo) rfl | (cases h; exact ⟨_, rfl⟩)

theorem exec_form_5 {f : Form} (lo : 200 ≤ i.ctorIdx) (h : formOf i = some f) :
    ∃ body, exec i = f.run i body := by
  cases i <;> first | exact absurd_lt (Nat.lt_succ_of_le lo) rfl | (cases h; exact ⟨_, rfl⟩) | cases h

/-- Every encoded instruction is its form's frame around a body of its own (04 R95, R96; 11 R232). -/
theorem exec_form {f : Form} (h : formOf i = some f) : ∃ body, exec i = f.run i body := by
  by_cases h0 : i.ctorIdx < 40
  · exact exec_form_0 h0 h
  by_cases h1 : i.ctorIdx < 80
  · exact exec_form_1 (Nat.le_of_not_lt h0) h1 h
  by_cases h2 : i.ctorIdx < 120
  · exact exec_form_2 (Nat.le_of_not_lt h1) h2 h
  by_cases h3 : i.ctorIdx < 160
  · exact exec_form_3 (Nat.le_of_not_lt h2) h3 h
  by_cases h4 : i.ctorIdx < 200
  · exact exec_form_4 (Nat.le_of_not_lt h3) h4 h
  exact exec_form_5 (Nat.le_of_not_lt h4) h

/-- Every encoded instruction has a form. -/
theorem formOf_encoded (h : i.encoded = true) : (formOf i).isSome = true := by
  cases i <;> first | rfl | cases h

end Sys2Proof.Machine
end

