-- ==== Sys2Proof/Laws/PerInstr.lean ====
section
/-! SUPPORT. What holds of every instruction as syntax: the first bit of its word tells its length (11 R233). -/

namespace Sys2Proof.Laws

open Sys2Proof

/-- A low bit of a concatenation is that of its right part. -/
theorem low_bit {m n : Nat} (x : BitVec m) (y : BitVec n) {i : Nat} (h : i < n) : (x ++ y).getLsbD i = y.getLsbD i := by
  simp only [BitVec.getLsbD_append, h, if_true]

/-- A high bit of a concatenation is that of its left part. -/
theorem high_bit {m n : Nat} (x : BitVec m) (y : BitVec n) (i : Nat) : (x ++ y).getLsbD (n + i) = x.getLsbD i := by
  simp [BitVec.getLsbD_append]

/-- Bit 0 of a word with control bits is set. -/
theorem long_of_ctl {n : Nat} (x : BitVec n) (c : Ctl) : (x ++ encCtl c).getLsbD 0 = true :=
  (low_bit x (encCtl c) (by decide)).trans (low_bit (c.w ++ BitVec.ofBool c.n ++ c.g) 1#1 (by decide))

theorem encR_long (d a b fn m c) : (encR d a b fn m c).getLsbD 0 = true := long_of_ctl ..
theorem encI_long (d a i m c) : (encI d a i m c).getLsbD 0 = true := long_of_ctl ..
theorem encU_long (d i m c) : (encU d i m c).getLsbD 0 = true := long_of_ctl ..
theorem encJ_long (o m c) : (encJ o m c).getLsbD 0 = true := long_of_ctl ..
theorem encM_long (d a o s z t m c) : (encM d a o s z t m c).getLsbD 0 = true := long_of_ctl ..
theorem encO_long (d a z f m c) : (encO d a z f m c).getLsbD 0 = true := long_of_ctl ..
theorem encA_long (d a f o s c) : (encA d a f o s c).getLsbD 0 = true := long_of_ctl ..
theorem encP_long (p e a b cc m c) : (encP p e a b cc m c).getLsbD 0 = true := long_of_ctl ..
theorem encPL_long (p q r a fn c) : (encPL p q r a fn c).getLsbD 0 = true := long_of_ctl ..
theorem encFence_long (o s k c) : (encFence o s k c).getLsbD 0 = true := long_of_ctl ..
theorem encBar_long (k s a b c) : (encBar k s a b c).getLsbD 0 = true := long_of_ctl ..
theorem encRep_long (a l s c) : (encRep a l s c).getLsbD 0 = true := long_of_ctl ..

/-- A short word has bit 0 and bit 15 clear. -/
theorem enc16_short (b d op) : (enc16 b d op).getLsbD 0 = false ∧ (enc16 b d op).getLsbD 15 = false :=
  ⟨low_bit (0#1 ++ b ++ d ++ op) 0#1 (by decide),
   (high_bit (0#1 ++ b ++ d ++ op) 0#1 14).trans <| (high_bit (0#1 ++ b ++ d) op 10).trans <| (high_bit (0#1 ++ b) d 5).trans <|
     high_bit 0#1 b 0⟩

namespace Length

/-- The first bit of an instruction's word tells its length: set for 32 bits, clear for 16; an event has no word (11 R233,
R235). -/
def Statement (i : Instr) : Prop :=
  match encode i with
  | .w32 w => w.getLsbD 0 = true
  | .w16 w => w.getLsbD 0 = false ∧ w.getLsbD 15 = false
  | .event => i.encoded = false

theorem add (c d a b) : Statement (.add c d a b) := encR_long ..
theorem sub (c d a b) : Statement (.sub c d a b) := encR_long ..
theorem and (c d a b) : Statement (.and c d a b) := encR_long ..
theorem or (c d a b) : Statement (.or c d a b) := encR_long ..
theorem xor (c d a b) : Statement (.xor c d a b) := encR_long ..
theorem andn (c d a b) : Statement (.andn c d a b) := encR_long ..
theorem shl (c d a b) : Statement (.shl c d a b) := encR_long ..
theorem shr (c d a b) : Statement (.shr c d a b) := encR_long ..
theorem sra (c d a b) : Statement (.sra c d a b) := encR_long ..
theorem mul (c d a b) : Statement (.mul c d a b) := encR_long ..
theorem mulh (c d a b) : Statement (.mulh c d a b) := encR_long ..
theorem mulhu (c d a b) : Statement (.mulhu c d a b) := encR_long ..
theorem min (c d a b) : Statement (.min c d a b) := encR_long ..
theorem max (c d a b) : Statement (.max c d a b) := encR_long ..
theorem minu (c d a b) : Statement (.minu c d a b) := encR_long ..
theorem maxu (c d a b) : Statement (.maxu c d a b) := encR_long ..
theorem div (c d a b) : Statement (.div c d a b) := encR_long ..
theorem divu (c d a b) : Statement (.divu c d a b) := encR_long ..
theorem rem (c d a b) : Statement (.rem c d a b) := encR_long ..
theorem remu (c d a b) : Statement (.remu c d a b) := encR_long ..
theorem clz (c d a) : Statement (.clz c d a) := encR_long ..
theorem ctz (c d a) : Statement (.ctz c d a) := encR_long ..
theorem popc (c d a) : Statement (.popc c d a) := encR_long ..
theorem brev (c d a) : Statement (.brev c d a) := encR_long ..
theorem sext8 (c d a) : Statement (.sext8 c d a) := encR_long ..
theorem sext16 (c d a) : Statement (.sext16 c d a) := encR_long ..
theorem sext32 (c d a) : Statement (.sext32 c d a) := encR_long ..
theorem zext32 (c d a) : Statement (.zext32 c d a) := encR_long ..
theorem bswap (c d a) : Statement (.bswap c d a) := encR_long ..
theorem rol (c d a b) : Statement (.rol c d a b) := encR_long ..
theorem addw (c d a b) : Statement (.addw c d a b) := encR_long ..
theorem addi (c d a im) : Statement (.addi c d a im) := encI_long ..
theorem andi (c d a im) : Statement (.andi c d a im) := encI_long ..
theorem ori (c d a im) : Statement (.ori c d a im) := encI_long ..
theorem xori (c d a im) : Statement (.xori c d a im) := encI_long ..
theorem shli (c d a sc) : Statement (.shli c d a sc) := encI_long ..
theorem shri (c d a sc) : Statement (.shri c d a sc) := encI_long ..
theorem srai (c d a sc) : Statement (.srai c d a sc) := encI_long ..
theorem li (c d im) : Statement (.li c d im) := encU_long ..
theorem lis (c d im) : Statement (.lis c d im) := encU_long ..
theorem adpc (c d im) : Statement (.adpc c d im) := encU_long ..
theorem pcmp (c p e a b f) : Statement (.pcmp c p e a b f) := encP_long ..
theorem pand (c p q r) : Statement (.pand c p q r) := encPL_long ..
theorem por (c p q r) : Statement (.por c p q r) := encPL_long ..
theorem pxor (c p q r) : Statement (.pxor c p q r) := encPL_long ..
theorem pandn (c p q r) : Statement (.pandn c p q r) := encPL_long ..
theorem pnot (c p q) : Statement (.pnot c p q) := encPL_long ..
theorem pset (c p a) : Statement (.pset c p a) := encPL_long ..
theorem pget (c q a) : Statement (.pget c q a) := encPL_long ..
theorem pcnt (c q r a) : Statement (.pcnt c q r a) := encPL_long ..
theorem pfirst (c q r a) : Statement (.pfirst c q r a) := encPL_long ..
theorem vcmpf (c p e a b f) : Statement (.vcmpf c p e a b f) := encP_long ..
theorem vcmpi (c p e a b f) : Statement (.vcmpi c p e a b f) := encP_long ..
theorem br (c o) : Statement (.br c o) := encJ_long ..
theorem call (c o) : Statement (.call c o) := encJ_long ..
theorem jr (c a) : Statement (.jr c a) := encR_long ..
theorem callr (c a) : Statement (.callr c a) := encR_long ..
theorem ret (c) : Statement (.ret c) := encR_long ..
theorem endTask (c) : Statement (.endTask c) := encR_long ..
theorem brk (c) : Statement (.brk c) := encR_long ..
theorem park (c a) : Statement (.park c a) := encR_long ..
theorem rsync (c) : Statement (.rsync c) := encR_long ..
theorem rep (c a l sc) : Statement (.rep c a l sc) := encRep_long ..
theorem ld (c d a o sc z t) : Statement (.ld c d a o sc z t) := encM_long ..
theorem st (c d a o sc z t) : Statement (.st c d a o sc z t) := encM_long ..
theorem ldo (c d a z f) : Statement (.ldo c d a z f) := encO_long ..
theorem sto (c d a z f) : Statement (.sto c d a z f) := encO_long ..
theorem vld (c d a o sc z t) : Statement (.vld c d a o sc z t) := encM_long ..
theorem vst (c d a o sc z t) : Statement (.vst c d a o sc z t) := encM_long ..
theorem vldx (c d a b e) : Statement (.vldx c d a b e) := encR_long ..
theorem vstx (c d a b e) : Statement (.vstx c d a b e) := encR_long ..
theorem ldf (c d a o sc z t) : Statement (.ldf c d a o sc z t) := encM_long ..
theorem fset (c a) : Statement (.fset c a) := encR_long ..
theorem fclr (c a) : Statement (.fclr c a) := encR_long ..
theorem stf (c a b) : Statement (.stf c a b) := encR_long ..
theorem fprobe (c d a) : Statement (.fprobe c d a) := encR_long ..
theorem amo (c d a f o sc) : Statement (.amo c d a f o sc) := encA_long ..
theorem fence (c o sc) : Statement (.fence c o sc) := encFence_long ..
theorem fenceE (c o sc) : Statement (.fenceE c o sc) := encFence_long ..
theorem fenceI (c sc) : Statement (.fenceI c sc) := encFence_long ..
theorem fenceT (c o sc) : Statement (.fenceT c o sc) := encFence_long ..
theorem vaddI32 (c d a b) : Statement (.vaddI32 c d a b) := encR_long ..
theorem vsubI32 (c d a b) : Statement (.vsubI32 c d a b) := encR_long ..
theorem vmulI32 (c d a b) : Statement (.vmulI32 c d a b) := encR_long ..
theorem vmulhI32 (c d a b) : Statement (.vmulhI32 c d a b) := encR_long ..
theorem vand (c d a b) : Statement (.vand c d a b) := encR_long ..
theorem vor (c d a b) : Statement (.vor c d a b) := encR_long ..
theorem vxor (c d a b) : Statement (.vxor c d a b) := encR_long ..
theorem vandn (c d a b) : Statement (.vandn c d a b) := encR_long ..
theorem vshl (c d a b) : Statement (.vshl c d a b) := encR_long ..
theorem vshr (c d a b) : Statement (.vshr c d a b) := encR_long ..
theorem vsra (c d a b) : Statement (.vsra c d a b) := encR_long ..
theorem vminI32 (c d a b) : Statement (.vminI32 c d a b) := encR_long ..
theorem vmaxI32 (c d a b) : Statement (.vmaxI32 c d a b) := encR_long ..
theorem vminN32 (c d a b) : Statement (.vminN32 c d a b) := encR_long ..
theorem vmaxN32 (c d a b) : Statement (.vmaxN32 c d a b) := encR_long ..
theorem vabsI32 (c d a) : Statement (.vabsI32 c d a) := encR_long ..
theorem vaddF32 (c d a b) : Statement (.vaddF32 c d a b) := encR_long ..
theorem vsubF32 (c d a b) : Statement (.vsubF32 c d a b) := encR_long ..
theorem vmulF32 (c d a b) : Statement (.vmulF32 c d a b) := encR_long ..
theorem vminF32 (c d a b) : Statement (.vminF32 c d a b) := encR_long ..
theorem vmaxF32 (c d a b) : Statement (.vmaxF32 c d a b) := encR_long ..
theorem vabsF32 (c d a) : Statement (.vabsF32 c d a) := encR_long ..
theorem vnegF32 (c d a) : Statement (.vnegF32 c d a) := encR_long ..
theorem vsqrtF32 (c d a) : Statement (.vsqrtF32 c d a) := encR_long ..
theorem vrcpF32 (c d a) : Statement (.vrcpF32 c d a) := encR_long ..
theorem vrsqF32 (c d a) : Statement (.vrsqF32 c d a) := encR_long ..
theorem vexp2F32 (c d a) : Statement (.vexp2F32 c d a) := encR_long ..
theorem vlog2F32 (c d a) : Statement (.vlog2F32 c d a) := encR_long ..
theorem vfloorF32 (c d a) : Statement (.vfloorF32 c d a) := encR_long ..
theorem vceilF32 (c d a) : Statement (.vceilF32 c d a) := encR_long ..
theorem vrintF32 (c d a) : Statement (.vrintF32 c d a) := encR_long ..
theorem vcopysignF32 (c d a b) : Statement (.vcopysignF32 c d a b) := encR_long ..
theorem vfmaF32 (c d a b) : Statement (.vfmaF32 c d a b) := encR_long ..
theorem vfmsF32 (c d a b) : Statement (.vfmsF32 c d a b) := encR_long ..
theorem vfnmaF32 (c d a b) : Statement (.vfnmaF32 c d a b) := encR_long ..
theorem vfmaF16x2 (c d a b) : Statement (.vfmaF16x2 c d a b) := encR_long ..
theorem vfmaBf16x2 (c d a b) : Statement (.vfmaBf16x2 c d a b) := encR_long ..
theorem vdot2F16 (c d a b) : Statement (.vdot2F16 c d a b) := encR_long ..
theorem vdot2Bf16 (c d a b) : Statement (.vdot2Bf16 c d a b) := encR_long ..
theorem vdot4I8 (c d a b) : Statement (.vdot4I8 c d a b) := encR_long ..
theorem vdot4N8 (c d a b) : Statement (.vdot4N8 c d a b) := encR_long ..
theorem vaddF16x2 (c d a b) : Statement (.vaddF16x2 c d a b) := encR_long ..
theorem vsubF16x2 (c d a b) : Statement (.vsubF16x2 c d a b) := encR_long ..
theorem vmulF16x2 (c d a b) : Statement (.vmulF16x2 c d a b) := encR_long ..
theorem vmaxF16x2 (c d a b) : Statement (.vmaxF16x2 c d a b) := encR_long ..
theorem vminF16x2 (c d a b) : Statement (.vminF16x2 c d a b) := encR_long ..
theorem vaddBf16x2 (c d a b) : Statement (.vaddBf16x2 c d a b) := encR_long ..
theorem vsubBf16x2 (c d a b) : Statement (.vsubBf16x2 c d a b) := encR_long ..
theorem vmulBf16x2 (c d a b) : Statement (.vmulBf16x2 c d a b) := encR_long ..
theorem vmaxBf16x2 (c d a b) : Statement (.vmaxBf16x2 c d a b) := encR_long ..
theorem vminBf16x2 (c d a b) : Statement (.vminBf16x2 c d a b) := encR_long ..
theorem vcvtF32I32 (c d a) : Statement (.vcvtF32I32 c d a) := encR_long ..
theorem vcvtI32F32 (c d a) : Statement (.vcvtI32F32 c d a) := encR_long ..
theorem vcvtF32N32 (c d a) : Statement (.vcvtF32N32 c d a) := encR_long ..
theorem vcvtN32F32 (c d a) : Statement (.vcvtN32F32 c d a) := encR_long ..
theorem vpackF16x2 (c d a b) : Statement (.vpackF16x2 c d a b) := encR_long ..
theorem vpackBf16x2 (c d a b) : Statement (.vpackBf16x2 c d a b) := encR_long ..
theorem vcvtF32F16 (c d a k) : Statement (.vcvtF32F16 c d a k) := encR_long ..
theorem vcvtF32Bf16 (c d a k) : Statement (.vcvtF32Bf16 c d a k) := encR_long ..
theorem vcvtB8F32 (c d a k) : Statement (.vcvtB8F32 c d a k) := encR_long ..
theorem vcvtF32B8 (c d a k) : Statement (.vcvtF32B8 c d a k) := encR_long ..
theorem vcvtE5m3F32 (c d a k) : Statement (.vcvtE5m3F32 c d a k) := encR_long ..
theorem vcvtF32E5m3 (c d a k) : Statement (.vcvtF32E5m3 c d a k) := encR_long ..
theorem vmov (c d b) : Statement (.vmov c d b) := encR_long ..
theorem vbcast (c d a) : Statement (.vbcast c d a) := encR_long ..
theorem vins (c d a b) : Statement (.vins c d a b) := encR_long ..
theorem vext (c d a b) : Statement (.vext c d a b) := encR_long ..
theorem vshuf (c d a b) : Statement (.vshuf c d a b) := encR_long ..
theorem vrot (c d a b) : Statement (.vrot c d a b) := encR_long ..
theorem vzlo (c d a b) : Statement (.vzlo c d a b) := encR_long ..
theorem vzhi (c d a b) : Statement (.vzhi c d a b) := encR_long ..
theorem viota (c d) : Statement (.viota c d) := encR_long ..
theorem vsumI32 (c d a) : Statement (.vsumI32 c d a) := encR_long ..
theorem vsumF32 (c d a) : Statement (.vsumF32 c d a) := encR_long ..
theorem vmaxrF32 (c d a) : Statement (.vmaxrF32 c d a) := encR_long ..
theorem vminrF32 (c d a) : Statement (.vminrF32 c d a) := encR_long ..
theorem vmaxrI32 (c d a) : Statement (.vmaxrI32 c d a) := encR_long ..
theorem vminrI32 (c d a) : Statement (.vminrI32 c d a) := encR_long ..
theorem vargmaxF32 (c d a) : Statement (.vargmaxF32 c d a) := encR_long ..
theorem vorr (c d a) : Statement (.vorr c d a) := encR_long ..
theorem mset (c a im) : Statement (.mset c a im) := encI_long ..
theorem wld (c a) : Statement (.wld c a) := encR_long ..
theorem wswap (c a) : Statement (.wswap c a) := encR_long ..
theorem xstr (c a) : Statement (.xstr c a) := encR_long ..
theorem mwait (c a) : Statement (.mwait c a) := encR_long ..
theorem tcfg (c d a b) : Statement (.tcfg c d a b) := encR_long ..
theorem tzero (c a b) : Statement (.tzero c a b) := encR_long ..
theorem tout (c a) : Statement (.tout c a) := encR_long ..
theorem msend (c d a b) : Statement (.msend c d a b) := encR_long ..
theorem mburst (c a) : Statement (.mburst c a) := encR_long ..
theorem mstat (c d) : Statement (.mstat c d) := encR_long ..
theorem send (c d a b) : Statement (.send c d a b) := encR_long ..
theorem mcast (c d a b) : Statement (.mcast c d a b) := encR_long ..
theorem recv (c d a b) : Statement (.recv c d a b) := encR_long ..
theorem mprobe (c d a b) : Statement (.mprobe c d a b) := encR_long ..
theorem hdlr (c a b) : Statement (.hdlr c a b) := encR_long ..
theorem fhold (c a b) : Statement (.fhold c a b) := encR_long ..
theorem fdrop (c a b) : Statement (.fdrop c a b) := encR_long ..
theorem fwait (c d a b) : Statement (.fwait c d a b) := encR_long ..
theorem fread (c d a) : Statement (.fread c d a) := encR_long ..
theorem bar (c sc a b) : Statement (.bar c sc a b) := encBar_long ..
theorem barn (c sc a b) : Statement (.barn c sc a b) := encBar_long ..
theorem barw (c sc a b) : Statement (.barw c sc a b) := encBar_long ..
theorem racq (c d a b) : Statement (.racq c d a b) := encR_long ..
theorem rpub (c cl a b) : Statement (.rpub c cl a b) := encR_long ..
theorem rtake (c d a b) : Statement (.rtake c d a b) := encR_long ..
theorem rrel (c a b) : Statement (.rrel c a b) := encR_long ..
theorem rstat (c d a k) : Statement (.rstat c d a k) := encR_long ..
theorem jpost (c a b) : Statement (.jpost c a b) := encR_long ..
theorem gfork (c d a b) : Statement (.gfork c d a b) := encR_long ..
theorem grwd (c a) : Statement (.grwd c a) := encR_long ..
theorem gjoin (c d a) : Statement (.gjoin c d a) := encR_long ..
theorem gcancel (c a) : Statement (.gcancel c a) := encR_long ..
theorem gstat (c d a) : Statement (.gstat c d a) := encR_long ..
theorem cadv (c a b) : Statement (.cadv c a b) := encR_long ..
theorem cwm (c d a) : Statement (.cwm c d a) := encR_long ..
theorem cwait (c a b) : Statement (.cwait c a b) := encR_long ..
theorem cstat (c d a) : Statement (.cstat c d a) := encR_long ..
theorem sread (c a b) : Statement (.sread c a b) := encR_long ..
theorem swrite (c a b) : Statement (.swrite c a b) := encR_long ..
theorem sflush (c a b) : Statement (.sflush c a b) := encR_long ..
theorem sstat (c d a) : Statement (.sstat c d a) := encR_long ..
theorem qdef (c a b) : Statement (.qdef c a b) := encR_long ..
theorem qslope (c a b) : Statement (.qslope c a b) := encR_long ..
theorem qread (c d a) : Statement (.qread c d a) := encR_long ..
theorem qquant (c a b) : Statement (.qquant c a b) := encR_long ..
theorem qsnap (c d a b) : Statement (.qsnap c d a b) := encR_long ..
theorem qstat (c d a) : Statement (.qstat c d a) := encR_long ..
theorem mfc (c d im) : Statement (.mfc c d im) := encI_long ..
theorem mtc (c d im) : Statement (.mtc c d im) := encI_long ..
theorem tlbinv (c a b) : Statement (.tlbinv c a b) := encR_long ..
theorem tlbsync (c a) : Statement (.tlbsync c a) := encR_long ..
theorem wdog (c a) : Statement (.wdog c a) := encR_long ..
theorem dstop (c a) : Statement (.dstop c a) := encR_long ..
theorem vaddF32_16 (b d) : Statement (.vaddF32_16 b d) := enc16_short ..
theorem vsubF32_16 (b d) : Statement (.vsubF32_16 b d) := enc16_short ..
theorem vmulF32_16 (b d) : Statement (.vmulF32_16 b d) := enc16_short ..
theorem vmaxF32_16 (b d) : Statement (.vmaxF32_16 b d) := enc16_short ..
theorem vminF32_16 (b d) : Statement (.vminF32_16 b d) := enc16_short ..
theorem vaddI32_16 (b d) : Statement (.vaddI32_16 b d) := enc16_short ..
theorem vsubI32_16 (b d) : Statement (.vsubI32_16 b d) := enc16_short ..
theorem vand16 (b d) : Statement (.vand16 b d) := enc16_short ..
theorem vor16 (b d) : Statement (.vor16 b d) := enc16_short ..
theorem vxor16 (b d) : Statement (.vxor16 b d) := enc16_short ..
theorem vmov16 (b d) : Statement (.vmov16 b d) := enc16_short ..
theorem vaddF16x2_16 (b d) : Statement (.vaddF16x2_16 b d) := enc16_short ..
theorem vmulF16x2_16 (b d) : Statement (.vmulF16x2_16 b d) := enc16_short ..
theorem vaddBf16x2_16 (b d) : Statement (.vaddBf16x2_16 b d) := enc16_short ..
theorem vmulBf16x2_16 (b d) : Statement (.vmulBf16x2_16 b d) := enc16_short ..
theorem vshl16 (b d) : Statement (.vshl16 b d) := enc16_short ..
theorem bindTask (r) : Statement (.bindTask r) := rfl
theorem taskLocalZeroing (r) : Statement (.taskLocalZeroing r) := rfl
theorem handlerBind (r) : Statement (.handlerBind r) := rfl
theorem stageBind (r) : Statement (.stageBind r) := rfl
theorem dealChunk (pd) : Statement (.dealChunk pd) := rfl
theorem requeueListEntry (q) : Statement (.requeueListEntry q) := rfl
theorem gforkSiblingsEnter (q) : Statement (.gforkSiblingsEnter q) := rfl
theorem neighbourLevelling (cx d) : Statement (.neighbourLevelling cx d) := rfl
theorem levellingShipment (cx im) : Statement (.levellingShipment cx im) := rfl
theorem shipmentAcknowledge (cx im) : Statement (.shipmentAcknowledge cx im) := rfl
theorem shipmentBounce (cx im) : Statement (.shipmentBounce cx im) := rfl
theorem stageGovernor (q) : Statement (.stageGovernor q) := rfl
theorem messageInjection (r im) : Statement (.messageInjection r im) := rfl
theorem messageDelivery (cx im) : Statement (.messageDelivery cx im) := rfl
theorem refusedMessageReoffer (r im) : Statement (.refusedMessageReoffer r im) := rfl
theorem routerGroupMessage (cx im) : Statement (.routerGroupMessage cx im) := rfl
theorem deltaFlushAge (k) : Statement (.deltaFlushAge k) := rfl
theorem tilthBatchAccept (cx d) : Statement (.tilthBatchAccept cx d) := rfl
theorem rootBatchApply (cx) : Statement (.rootBatchApply cx) := rfl
theorem frontierBroadcast (cx d) : Statement (.frontierBroadcast cx d) := rfl
theorem resultLanding (r im) : Statement (.resultLanding r im) := rfl
theorem waitSatisfied (r) : Statement (.waitSatisfied r) := rfl
theorem waitExpiry (r) : Statement (.waitExpiry r) := rfl
theorem watchdogExpiry (r) : Statement (.watchdogExpiry r) := rfl
theorem faultPacketReoffer (pd w) : Statement (.faultPacketReoffer pd w) := rfl
theorem pageWalk (r va x) : Statement (.pageWalk r va x) := rfl
theorem siltSubmission (pd e) : Statement (.siltSubmission pd e) := rfl
theorem nvmeCompletion (pd cid st) : Statement (.nvmeCompletion pd cid st) := rfl
theorem tlbinvAcknowledge (r) : Statement (.tlbinvAcknowledge r) := rfl
theorem copyEntryRelease (cx d ch) : Statement (.copyEntryRelease cx d ch) := rfl
theorem copyLineWritten (cx d ch) : Statement (.copyLineWritten cx d ch) := rfl
theorem copyEntryComplete (cx d ch) : Statement (.copyEntryComplete cx d ch) := rfl
theorem arrayCommandStart (q) : Statement (.arrayCommandStart q) := rfl
theorem arrayCommandComplete (q) : Statement (.arrayCommandComplete q) := rfl
theorem msendCommandArrival (cx im) : Statement (.msendCommandArrival cx im) := rfl
theorem msendReply (cx im) : Statement (.msendReply cx im) := rfl
theorem arrayRampDown (q) : Statement (.arrayRampDown q) := rfl
theorem tokenPass (pd) : Statement (.tokenPass pd) := rfl
theorem crossingFiring (k) : Statement (.crossingFiring k) := rfl
theorem qsnapSample (cx im) : Statement (.qsnapSample cx im) := rfl
theorem groupDeadline (cx d g) : Statement (.groupDeadline cx d g) := rfl
theorem cancelledSiblingEnd (r) : Statement (.cancelledSiblingEnd r) := rfl
theorem barrierCompletion (cx sc u id) : Statement (.barrierCompletion cx sc u id) := rfl
theorem scaleupAtomicRequest (p sq f key a b) : Statement (.scaleupAtomicRequest p sq f key a b) := rfl
theorem scaleupAtomicReply (p sq v) : Statement (.scaleupAtomicReply p sq v) := rfl
theorem scaleupRetransmit (p sq) : Statement (.scaleupRetransmit p sq) := rfl
theorem linkFailure (l) : Statement (.linkFailure l) := rfl
theorem gangSwitchRequest (p t v) : Statement (.gangSwitchRequest p t v) := rfl
theorem gangSwitchStart (p) : Statement (.gangSwitchStart p) := rfl
theorem gangSwitchSave (p) : Statement (.gangSwitchSave p) := rfl
theorem gangSwitchRestore (p) : Statement (.gangSwitchRestore p) := rfl
theorem haltStopCommand (pd g) : Statement (.haltStopCommand pd g) := rfl
theorem haltRelease (pd g) : Statement (.haltRelease pd g) := rfl
theorem dctlResume (pd k sl) : Statement (.dctlResume pd k sl) := rfl
theorem dctlRestart (pd k sl) : Statement (.dctlRestart pd k sl) := rfl
theorem dctlKill (pd k sl) : Statement (.dctlKill pd k sl) := rfl
theorem swcmdRequeue (pd a) : Statement (.swcmdRequeue pd a) := rfl
theorem swcmdKill (pd a) : Statement (.swcmdKill pd a) := rfl
theorem partitionForm (p) : Statement (.partitionForm p) := rfl
theorem partitionDissolve (p) : Statement (.partitionDissolve p) := rfl
theorem contextCreate (cx) : Statement (.contextCreate cx) := rfl
theorem contextDestroy (cx) : Statement (.contextDestroy cx) := rfl
theorem graphLoad (cx) : Statement (.graphLoad cx) := rfl
theorem routerEntryWrite (pd k g v) : Statement (.routerEntryWrite pd k g v) := rfl
theorem capabilityEntryWrite (pd q e lo hi) : Statement (.capabilityEntryWrite pd q e lo hi) := rfl
theorem ringEntryDiscard (cx a sq) : Statement (.ringEntryDiscard cx a sq) := rfl
theorem deadLetterHeadWrite (pd k v) : Statement (.deadLetterHeadWrite pd k v) := rfl
theorem hostQueueConfig (q v) : Statement (.hostQueueConfig q v) := rfl
theorem hostQueueDoorbell (q v) : Statement (.hostQueueDoorbell q v) := rfl
theorem hostQueueEntry (q) : Statement (.hostQueueEntry q) := rfl
theorem hostHbmAccess (wr off v) : Statement (.hostHbmAccess wr off v) := rfl
theorem firmwareLoad : Statement (.firmwareLoad) := rfl
theorem attestationRequest : Statement (.attestationRequest) := rfl
theorem attestationReady : Statement (.attestationReady) := rfl
theorem powerConfigWrite (v) : Statement (.powerConfigWrite v) := rfl
theorem registerWrite (ag off v) : Statement (.registerWrite ag off v) := rfl
theorem deviceReset : Statement (.deviceReset) := rfl
theorem uncorrectableError (key) : Statement (.uncorrectableError key) := rfl
theorem correctedError (pd q) : Statement (.correctedError pd q) := rfl
theorem quadFence (pd q) : Statement (.quadFence pd q) := rfl
theorem thermalThrottle (tj pw) : Statement (.thermalThrottle tj pw) := rfl
theorem thermalTrip : Statement (.thermalTrip) := rfl
theorem storeReachesHome (q im) : Statement (.storeReachesHome q im) := rfl
theorem copyChannelRestart (cx d ch ab) : Statement (.copyChannelRestart cx d ch ab) := rfl
theorem hostCompletionHeadWrite (q v) : Statement (.hostCompletionHeadWrite q v) := rfl
theorem supervisorQueueHeadWrite (pd v) : Statement (.supervisorQueueHeadWrite pd v) := rfl
theorem freeFrameTailWrite (pd k v) : Statement (.freeFrameTailWrite pd k v) := rfl
theorem jobQueueAssign (pd q v bs) : Statement (.jobQueueAssign pd q v bs) := rfl
theorem frameZeroingComplete (tier a len) : Statement (.frameZeroingComplete tier a len) := rfl
theorem burstHoldExpiry (q) : Statement (.burstHoldExpiry q) := rfl
theorem linkLevelReplay (l) : Statement (.linkLevelReplay l) := rfl
theorem thermalThrottleEnd (tj pw) : Statement (.thermalThrottleEnd tj pw) := rfl

end Length

end Sys2Proof.Laws
end

