-- ==== Sys2Proof/Tests/Slice0.lean ====
section
/-! SUPPORT. Tests: each check of WellFormed refuses an ill-formed term; words written from the encoding tables of 11 decode
to their instructions; one step on a small state, the results from the manual's examples or worked by hand; a witness for
the hypotheses of every statement. -/

namespace Sys2Proof.Tests

open Sys2Proof Sys2Proof.Machine

set_option Elab.async false

/-! ## Well-formed instructions -/

/-- No guard, no wait cycles. -/
def k0 : Ctl := ⟨0, false, 0⟩

theorem test_wf_load_ordering :
    (Instr.ld k0 10 12 .rel .die 3 false).wf = false ∧ (Instr.ld k0 10 12 .plain .die 3 false).wf = false ∧
    (Instr.vld k0 2 12 .acqrel .core 0 false).wf = false ∧ (Instr.ldf k0 10 12 .rel .core 0 false).wf = false ∧
    (Instr.ld k0 10 12 .acq .sys 3 false).wf = true ∧ (Instr.ld k0 10 12 .plain .core 3 true).wf = true := by decide

theorem test_wf_store_ordering :
    (Instr.st k0 10 12 .acq .die 3 false).wf = false ∧ (Instr.st k0 10 12 .plain .pkg 3 false).wf = false ∧
    (Instr.vst k0 2 12 .acqrel .core 0 false).wf = false ∧ (Instr.st k0 10 12 .rel .pod 3 false).wf = true := by decide

theorem test_wf_fence_ordering :
    (Instr.fence k0 .plain .die).wf = false ∧ (Instr.fenceE k0 .plain .die).wf = false ∧
    (Instr.fenceT k0 .plain .core).wf = false ∧ (Instr.fence k0 .acqrel .sys).wf = true := by decide

theorem test_wf_pairs :
    (Instr.amo k0 31 12 .cas .plain .core).wf = false ∧ (Instr.amo k0 31 12 .add .plain .core).wf = true ∧
    (Instr.amo k0 30 12 .cas .plain .core).wf = true ∧ (Instr.fhold k0 12 31).wf = false ∧ (Instr.fdrop k0 12 31).wf = false ∧
    (Instr.fwait k0 10 12 31).wf = false ∧ (Instr.fread k0 31 12).wf = false ∧ (Instr.racq k0 31 12 13).wf = false ∧
    (Instr.rtake k0 31 12 13).wf = false ∧ (Instr.qread k0 31 12).wf = false ∧ (Instr.qstat k0 31 12).wf = false ∧
    (Instr.msend k0 10 31 12).wf = false ∧ (Instr.msend k0 10 30 12).wf = true ∧ (Instr.rstat k0 31 12 0).wf = false ∧
    (Instr.rstat k0 30 12 2).wf = false ∧ (Instr.rstat k0 30 12 1).wf = true := by decide

theorem test_wf_selectors :
    (Instr.vcvtF32F16 k0 1 2 2).wf = false ∧ (Instr.vcvtF32Bf16 k0 1 2 2).wf = false ∧ (Instr.vcvtB8F32 k0 1 2 4).wf = false ∧
    (Instr.vcvtF32B8 k0 1 2 4).wf = false ∧ (Instr.vcvtE5m3F32 k0 1 2 4).wf = false ∧ (Instr.vcvtF32E5m3 k0 1 2 4).wf = false ∧
    (Instr.vcvtF32F16 k0 1 2 1).wf = true ∧ (Instr.vcvtB8F32 k0 1 2 3).wf = true ∧ (Instr.mset k0 12 32).wf = false ∧
    (Instr.mset k0 12 31).wf = true ∧ (Instr.bar k0 .sys 12 13).wf = false ∧ (Instr.barn k0 .sys 12 13).wf = false ∧
    (Instr.barw k0 .sys 12 13).wf = false ∧ (Instr.bar k0 .pod 12 13).wf = true := by decide

theorem test_wf_coordinates :
    (Instr.bindTask ⟨65536, 0, 0, 0⟩).wf = false ∧ (Instr.bindTask ⟨1, 4, 0, 0⟩).wf = false ∧
    (Instr.bindTask ⟨1, 0, 257, 0⟩).wf = false ∧ (Instr.bindTask ⟨1, 0, 0, 4⟩).wf = false ∧
    (Instr.bindTask ⟨1, 0, 255, 3⟩).wf = true ∧ (Instr.requeueListEntry ⟨1, 0, 64⟩).wf = false ∧
    (Instr.dealChunk 4).wf = false ∧ (Instr.crossingFiring ⟨1, 4, 0⟩).wf = false ∧ (Instr.gangSwitchStart 16).wf = false ∧
    (Instr.linkFailure 32).wf = false ∧ (Instr.groupDeadline 1 0 4096).wf = false ∧ (Instr.copyEntryRelease 1 0 128).wf = false ∧
    (Instr.scaleupRetransmit 512 0).wf = false ∧ (Instr.haltRelease 0 16).wf = false ∧ (Instr.dctlResume 0 256 0).wf = false ∧
    (Instr.routerEntryWrite 0 0 1024 0).wf = false ∧ (Instr.capabilityEntryWrite 0 0 64 0 0).wf = false ∧
    (Instr.hostQueueDoorbell 256 0).wf = false ∧ (Instr.hostHbmAccess true 33554432 0).wf = false ∧
    (Instr.freeFrameTailWrite 0 3 0).wf = false ∧ (Instr.quadFence 0 64).wf = false := by decide

/-! ## Decoding -/

/-- Are some bytes decoded to an instruction of some length? -/
def reads (bs : List Byte) (i : Instr) (n : Nat) : Bool :=
  match decode bs with
  | .ok (j, m) => decide (j = i) && decide (m = n)
  | .error _ => false

/-- What the decoder refuses some bytes with. -/
def refusal (bs : List Byte) : Option DecErr :=
  match decode bs with
  | .ok _ => none
  | .error e => some e

/-- Are the words decoded to the instructions they stand for? -/
def reads32 (l : List (W32 × Instr)) : Bool := l.all fun x => reads (Code.w32 x.1).bytes x.2 4

/-- The same of the 16-bit words. -/
def reads16 (l : List (BitVec 16 × Instr)) : Bool := l.all fun x => reads (Code.w16 x.1).bytes x.2 2

/-- The guard and wait fields of the words below: w = 2, n = 1, g = 5. -/
def k5 : Ctl := ⟨2, true, 5⟩

/-- Words of the majors 0x00 to 0x01, their fields set as 11 R233 to R238 place them. -/
theorem test_decode_1 : reads32 [
    (0xA312005B, .add k5 20 12 9),
    (0xA312205B, .sub k5 20 12 9),
    (0xA312405B, .and k5 20 12 9),
    (0xA312605B, .or k5 20 12 9),
    (0xA312805B, .xor k5 20 12 9),
    (0xA312A05B, .andn k5 20 12 9),
    (0xA312C05B, .shl k5 20 12 9),
    (0xA312E05B, .shr k5 20 12 9),
    (0xA313005B, .sra k5 20 12 9),
    (0xA313205B, .mul k5 20 12 9),
    (0xA313405B, .mulh k5 20 12 9),
    (0xA313605B, .mulhu k5 20 12 9),
    (0xA313805B, .min k5 20 12 9),
    (0xA313A05B, .max k5 20 12 9),
    (0xA313C05B, .minu k5 20 12 9),
    (0xA313E05B, .maxu k5 20 12 9),
    (0xA31200DB, .div k5 20 12 9),
    (0xA31220DB, .divu k5 20 12 9)] = true := by decide +kernel

/-- Words of the majors 0x01 to 0x06, their fields set as 11 R233 to R238 place them. -/
theorem test_decode_2 : reads32 [
    (0xA31240DB, .rem k5 20 12 9),
    (0xA31260DB, .remu k5 20 12 9),
    (0xA30080DB, .clz k5 20 12),
    (0xA300A0DB, .ctz k5 20 12),
    (0xA300C0DB, .popc k5 20 12),
    (0xA300E0DB, .brev k5 20 12),
    (0xA30100DB, .sext8 k5 20 12),
    (0xA30120DB, .sext16 k5 20 12),
    (0xA30140DB, .sext32 k5 20 12),
    (0xA30160DB, .zext32 k5 20 12),
    (0xA30180DB, .bswap k5 20 12),
    (0xA313A0DB, .rol k5 20 12 9),
    (0xA313C0DB, .addw k5 20 12 9),
    (0xA325815B, .addi k5 20 12 300),
    (0xA32581DB, .andi k5 20 12 300),
    (0xA325825B, .ori k5 20 12 300),
    (0xA32582DB, .xori k5 20 12 300),
    (0xA305A35B, .shli k5 20 12 45)] = true := by decide +kernel

/-- Words of the majors 0x07 to 0x10, their fields set as 11 R233 to R238 place them. -/
theorem test_decode_3 : reads32 [
    (0xA305A3DB, .shri k5 20 12 45),
    (0xA305A45B, .srai k5 20 12 45),
    (0xA02584DB, .li k5 20 300),
    (0xA025855B, .lis k5 20 300),
    (0xA02585DB, .adpc k5 20 300),
    (0x6989265B, .pcmp k5 3 2 12 9 .ne),
    (0x650006DB, .pand k5 3 1 2),
    (0x650026DB, .por k5 3 1 2),
    (0x650046DB, .pxor k5 3 1 2),
    (0x650066DB, .pandn k5 3 1 2),
    (0x640086DB, .pnot k5 3 1),
    (0x6030A6DB, .pset k5 3 12),
    (0x0430C6DB, .pget k5 1 12),
    (0x0530E6DB, .pcnt k5 1 2 12),
    (0x053106DB, .pfirst k5 1 2 12),
    (0x6989275B, .vcmpf k5 3 2 12 9 .ne),
    (0x698927DB, .vcmpi k5 3 2 12 9 .ne),
    (0xB4B4A85B, .br k5 370085)] = true := by decide +kernel

/-- Words of the majors 0x11 to 0x1C, their fields set as 11 R233 to R238 place them. -/
theorem test_decode_4 : reads32 [
    (0xB4B4A8DB, .call k5 370085),
    (0x0300095B, .jr k5 12),
    (0x0300295B, .callr k5 12),
    (0x0000495B, .ret k5),
    (0x0000695B, .endTask k5),
    (0x0000895B, .brk k5),
    (0x0300A95B, .park k5 12),
    (0x0000C95B, .rsync k5),
    (0x629809DB, .rep k5 12 5 3),
    (0xA3174A5B, .ld k5 20 12 .acq .pkg 2 true),
    (0xA3274ADB, .st k5 20 12 .rel .pkg 2 true),
    (0xA329AB5B, .ldo k5 20 12 2 77),
    (0xA329ABDB, .sto k5 20 12 2 77),
    (0xA3174C5B, .vld k5 20 12 .acq .pkg 2 true),
    (0xA3274CDB, .vst k5 20 12 .rel .pkg 2 true),
    (0xA3124D5B, .vldx k5 20 12 9 .w8),
    (0xA3124DDB, .vstx k5 20 12 9 .w8),
    (0xA317CE5B, .ldf k5 20 12 .acq .pkg 1 true)] = true := by decide +kernel

/-- Words of the majors 0x1D to 0x20, their fields set as 11 R233 to R238 place them. -/
theorem test_decode_5 : reads32 [
    (0x03000EDB, .fset k5 12),
    (0x03002EDB, .fclr k5 12),
    (0x03124EDB, .stf k5 12 9),
    (0xA3006EDB, .fprobe k5 20 12),
    (0xA3056F5B, .amo k5 20 12 .and .acq .pkg),
    (0xD8000FDB, .fence k5 .acqrel .pkg),
    (0xD9000FDB, .fenceE k5 .acqrel .pkg),
    (0x5A000FDB, .fenceI k5 .pkg),
    (0xDB000FDB, .fenceT k5 .acqrel .pkg),
    (0xA312105B, .vaddI32 k5 20 12 9),
    (0xA312305B, .vsubI32 k5 20 12 9),
    (0xA312505B, .vmulI32 k5 20 12 9),
    (0xA312705B, .vmulhI32 k5 20 12 9),
    (0xA312905B, .vand k5 20 12 9),
    (0xA312B05B, .vor k5 20 12 9),
    (0xA312D05B, .vxor k5 20 12 9),
    (0xA312F05B, .vandn k5 20 12 9),
    (0xA313105B, .vshl k5 20 12 9)] = true := by decide +kernel

/-- Words of the majors 0x20 to 0x21, their fields set as 11 R233 to R238 place them. -/
theorem test_decode_6 : reads32 [
    (0xA313305B, .vshr k5 20 12 9),
    (0xA313505B, .vsra k5 20 12 9),
    (0xA313705B, .vminI32 k5 20 12 9),
    (0xA313905B, .vmaxI32 k5 20 12 9),
    (0xA313B05B, .vminN32 k5 20 12 9),
    (0xA313D05B, .vmaxN32 k5 20 12 9),
    (0xA301F05B, .vabsI32 k5 20 12),
    (0xA31210DB, .vaddF32 k5 20 12 9),
    (0xA31230DB, .vsubF32 k5 20 12 9),
    (0xA31250DB, .vmulF32 k5 20 12 9),
    (0xA31270DB, .vminF32 k5 20 12 9),
    (0xA31290DB, .vmaxF32 k5 20 12 9),
    (0xA300B0DB, .vabsF32 k5 20 12),
    (0xA300D0DB, .vnegF32 k5 20 12),
    (0xA300F0DB, .vsqrtF32 k5 20 12),
    (0xA30110DB, .vrcpF32 k5 20 12),
    (0xA30130DB, .vrsqF32 k5 20 12),
    (0xA30150DB, .vexp2F32 k5 20 12)] = true := by decide +kernel

/-- Words of the majors 0x21 to 0x23, their fields set as 11 R233 to R238 place them. -/
theorem test_decode_7 : reads32 [
    (0xA30170DB, .vlog2F32 k5 20 12),
    (0xA30190DB, .vfloorF32 k5 20 12),
    (0xA301B0DB, .vceilF32 k5 20 12),
    (0xA301D0DB, .vrintF32 k5 20 12),
    (0xA313F0DB, .vcopysignF32 k5 20 12 9),
    (0xA312115B, .vfmaF32 k5 20 12 9),
    (0xA312315B, .vfmsF32 k5 20 12 9),
    (0xA312515B, .vfnmaF32 k5 20 12 9),
    (0xA312715B, .vfmaF16x2 k5 20 12 9),
    (0xA312915B, .vfmaBf16x2 k5 20 12 9),
    (0xA312B15B, .vdot2F16 k5 20 12 9),
    (0xA312D15B, .vdot2Bf16 k5 20 12 9),
    (0xA312F15B, .vdot4I8 k5 20 12 9),
    (0xA313115B, .vdot4N8 k5 20 12 9),
    (0xA31211DB, .vaddF16x2 k5 20 12 9),
    (0xA31231DB, .vsubF16x2 k5 20 12 9),
    (0xA31251DB, .vmulF16x2 k5 20 12 9),
    (0xA31271DB, .vmaxF16x2 k5 20 12 9)] = true := by decide +kernel

/-- Words of the majors 0x23 to 0x24, their fields set as 11 R233 to R238 place them. -/
theorem test_decode_8 : reads32 [
    (0xA31291DB, .vminF16x2 k5 20 12 9),
    (0xA312B1DB, .vaddBf16x2 k5 20 12 9),
    (0xA312D1DB, .vsubBf16x2 k5 20 12 9),
    (0xA312F1DB, .vmulBf16x2 k5 20 12 9),
    (0xA31311DB, .vmaxBf16x2 k5 20 12 9),
    (0xA31331DB, .vminBf16x2 k5 20 12 9),
    (0xA300125B, .vcvtF32I32 k5 20 12),
    (0xA300325B, .vcvtI32F32 k5 20 12),
    (0xA300525B, .vcvtF32N32 k5 20 12),
    (0xA300725B, .vcvtN32F32 k5 20 12),
    (0xA312925B, .vpackF16x2 k5 20 12 9),
    (0xA312B25B, .vpackBf16x2 k5 20 12 9),
    (0xA302D25B, .vcvtF32F16 k5 20 12 1),
    (0xA302F25B, .vcvtF32Bf16 k5 20 12 1),
    (0xA303125B, .vcvtB8F32 k5 20 12 1),
    (0xA303325B, .vcvtF32B8 k5 20 12 1),
    (0xA303525B, .vcvtE5m3F32 k5 20 12 1),
    (0xA303725B, .vcvtF32E5m3 k5 20 12 1)] = true := by decide +kernel

/-- Words of the majors 0x25 to 0x28, their fields set as 11 R233 to R238 place them. -/
theorem test_decode_9 : reads32 [
    (0xA01212DB, .vmov k5 20 9),
    (0xA30032DB, .vbcast k5 20 12),
    (0xA31252DB, .vins k5 20 12 9),
    (0xA31272DB, .vext k5 20 12 9),
    (0xA31292DB, .vshuf k5 20 12 9),
    (0xA312B2DB, .vrot k5 20 12 9),
    (0xA312D2DB, .vzlo k5 20 12 9),
    (0xA312F2DB, .vzhi k5 20 12 9),
    (0xA00112DB, .viota k5 20),
    (0xA300135B, .vsumI32 k5 20 12),
    (0xA300335B, .vsumF32 k5 20 12),
    (0xA300535B, .vmaxrF32 k5 20 12),
    (0xA300735B, .vminrF32 k5 20 12),
    (0xA300935B, .vmaxrI32 k5 20 12),
    (0xA300B35B, .vminrI32 k5 20 12),
    (0xA300D35B, .vargmaxF32 k5 20 12),
    (0xA300F35B, .vorr k5 20 12),
    (0x0302B45B, .mset k5 12 21)] = true := by decide +kernel

/-- Words of the majors 0x29 to 0x2B, their fields set as 11 R233 to R238 place them. -/
theorem test_decode_10 : reads32 [
    (0x030014DB, .wld k5 12),
    (0x030034DB, .wswap k5 12),
    (0x030054DB, .xstr k5 12),
    (0x030074DB, .mwait k5 12),
    (0xA31294DB, .tcfg k5 20 12 9),
    (0x0312B4DB, .tzero k5 12 9),
    (0x0300D4DB, .tout k5 12),
    (0xA312F4DB, .msend k5 20 12 9),
    (0x030114DB, .mburst k5 12),
    (0xA00134DB, .mstat k5 20),
    (0xA312155B, .send k5 20 12 9),
    (0xA312355B, .mcast k5 20 12 9),
    (0xA312555B, .recv k5 20 12 9),
    (0xA312755B, .mprobe k5 20 12 9),
    (0x0312955B, .hdlr k5 12 9),
    (0x031215DB, .fhold k5 12 9),
    (0x031235DB, .fdrop k5 12 9),
    (0xA31255DB, .fwait k5 20 12 9)] = true := by decide +kernel

/-- Words of the majors 0x2B to 0x2F, their fields set as 11 R233 to R238 place them. -/
theorem test_decode_11 : reads32 [
    (0xA30075DB, .fread k5 20 12),
    (0x1B12165B, .bar k5 .pkg 12 9),
    (0x5B12165B, .barn k5 .pkg 12 9),
    (0x9B12165B, .barw k5 .pkg 12 9),
    (0xA31216DB, .racq k5 20 12 9),
    (0x0B1236DB, .rpub k5 true 12 9),
    (0xA31256DB, .rtake k5 20 12 9),
    (0x031276DB, .rrel k5 12 9),
    (0xA30296DB, .rstat k5 20 12 1),
    (0x0312175B, .jpost k5 12 9),
    (0xA312375B, .gfork k5 20 12 9),
    (0x0300575B, .grwd k5 12),
    (0xA300775B, .gjoin k5 20 12),
    (0x0300975B, .gcancel k5 12),
    (0xA300B75B, .gstat k5 20 12),
    (0x031217DB, .cadv k5 12 9),
    (0xA30037DB, .cwm k5 20 12),
    (0x031257DB, .cwait k5 12 9)] = true := by decide +kernel

/-- Words of the majors 0x2F to 0x34, their fields set as 11 R233 to R238 place them. -/
theorem test_decode_12 : reads32 [
    (0xA30077DB, .cstat k5 20 12),
    (0x0312185B, .sread k5 12 9),
    (0x0312385B, .swrite k5 12 9),
    (0x0312585B, .sflush k5 12 9),
    (0xA300785B, .sstat k5 20 12),
    (0x031218DB, .qdef k5 12 9),
    (0x031238DB, .qslope k5 12 9),
    (0xA30058DB, .qread k5 20 12),
    (0x031278DB, .qquant k5 12 9),
    (0xA31298DB, .qsnap k5 20 12 9),
    (0xA300B8DB, .qstat k5 20 12),
    (0xA025995B, .mfc k5 20 300),
    (0xA02599DB, .mtc k5 20 300),
    (0x03121A5B, .tlbinv k5 12 9),
    (0x03003A5B, .tlbsync k5 12),
    (0x03005A5B, .wdog k5 12),
    (0x03007A5B, .dstop k5 12)] = true := by decide +kernel

/-- The sixteen short forms (11 R235). -/
theorem test_decode_short : reads16 [
    (0x2680, .vaddF32_16 9 20),
    (0x2682, .vsubF32_16 9 20),
    (0x2684, .vmulF32_16 9 20),
    (0x2686, .vmaxF32_16 9 20),
    (0x2688, .vminF32_16 9 20),
    (0x268A, .vaddI32_16 9 20),
    (0x268C, .vsubI32_16 9 20),
    (0x268E, .vand16 9 20),
    (0x2690, .vor16 9 20),
    (0x2692, .vxor16 9 20),
    (0x2694, .vmov16 9 20),
    (0x2696, .vaddF16x2_16 9 20),
    (0x2698, .vmulF16x2_16 9 20),
    (0x269A, .vaddBf16x2_16 9 20),
    (0x269C, .vmulBf16x2_16 9 20),
    (0x269E, .vshl16 9 20)] = true := by decide +kernel
/-- Words of the manual's example tables (11 to 15). -/
theorem test_decode_examples : reads32 [
    (0x52D92001, .mul k0 10 11 12),
    (0x6301C301, .shli k0 12 12 14),
    (0x60018481, .li k0 12 12),
    (0x60020581, .adpc k0 12 16),
    (0x00040881, .call k0 32),
    (0x03000901, .jr k0 12),
    (0x63558A01, .ld k0 12 13 .acq .die 3 false),
    (0x7B604B01, .ldo k0 15 13 2 2),
    (0x13400C01, .vld k0 2 13 .plain .core 0 false),
    (0x1B480D01, .vldx k0 3 13 4 .w32),
    (0x7B414E01, .ldf k0 15 13 .plain .core 0 true),
    (0x03584E81, .stf k0 13 12),
    (0x63432F01, .amo k0 12 13 .add .acqrel .quad),
    (0x1B145501, .recv k0 3 12 10),
    (0x12961601, .bar k0 .die 10 11)] = true := by decide +kernel

/-- More of them. -/
theorem test_decode_more_examples : reads32 [
    (0x18CE1083, .vaddF32 ⟨0, false, 1⟩ 3 3 7),
    (0x4254F101, .vdot4I8 k0 8 9 10),
    (0x08803201, .vcvtI32F32 k0 1 2),
    (0x31C51201, .vcvtB8F32 k0 6 7 2),
    (0x13003281, .vbcast k0 2 12),
    (0x60803301, .vsumF32 k0 12 2),
    (0x28644701, .vcmpf k0 1 2 3 4 .lt),
    (0x60A6E781, .vcmpi k0 3 0 5 6 .geu),
    (0x0300D401, .mset k0 12 6),
    (0x531CF481, .msend k0 10 12 14),
    (0x83143701, .gfork k0 16 12 10),
    (0x60021901, .mfc k0 12 0x010),
    (0x60011981, .mtc k0 12 0x008),
    (0x031A1A01, .tlbinv k0 12 13),
    (0x03007A01, .dstop k0 12)] = true := by decide +kernel

/-- Patterns that are no instruction (11 R250), and a word that ends too early. -/
theorem test_decode_refuses :
    refusal (Code.w32 0x00001381#32).bytes = some (.illegal 1) ∧ refusal (Code.w16 0x8000#16).bytes = some .rsvField ∧
    refusal [0x01#8, 0x00#8] = some .short := by decide +kernel

/-! ## A small state -/

/-- A slot that runs at the first address of the translated space. -/
def task : Slot := { st := .running, pc := 0x100000000000, time := 0x5#128 }

/-- Partition 0 is 8 × 8 quads of die 0, where context 1 is resident; its slot 0 of core 0 runs. -/
def base : State :=
  { State.reset with
    now := 100, boot := 2,
    parts := [(0, { place := some (.rect 0 0 8 8), ctx := 1, pstat := 1 })],
    ctxs := [(1, { exist := true, loaded := true, nloc := 2, resident := some 0, shape := some (.rect 8 8) })],
    slots := [(8192, task)],
    cur := ⟨1, 0, 0, 0⟩ }

/-- The task slot of a state. -/
def me (s : State) : Slot := s.slot base.cur

/-- The small state with scalar registers written. -/
def regs (l : List (Spec × Word)) : State :=
  base.modSlot base.cur fun t => l.foldl (fun t x => applyWrite t (writeX t x.1 x.2)) t

/-- The small state with vector registers holding one value in each lane. -/
def vecs (l : List (Spec × W32)) : State :=
  base.modSlot base.cur fun t => l.foldl (fun t x => applyWrite t (.v x.1 (ofLanes fun _ => x.2) (BitVec.allOnes 32))) t

/-- The next state of an instruction, the state itself where it has none. -/
def after (i : Instr) (s : State) : State :=
  match exec i s with
  | .next t => t
  | _ => s

/-- The slot cur after an instruction when its results have landed: its atomics executed at their homes, its divisions due. -/
def done (i : Instr) (s : State) : Slot := landTimed ((((after i s).atomicsHome s.cur).landSlot s.cur).slot s.cur) (s.now + 40)

/-- A scalar instruction on w4 and w5 that leaves a value in w2. -/
def scalar (i : Instr) (x y z : Word) : Bool := readX (done i (regs [(12, x), (13, y)])) 10 == z

/-- A lane instruction on v2 and v3 that leaves a value in lanes 0 and 31 of v1, with the flags of c.fflags; v1 holds c
before. -/
def lanes (i : Instr) (x y c z : W32) (f : Flags) : Bool :=
  let t := done i (vecs [(1, c), (2, x), (3, y)])
  lane (readV t 1) 0 == z && lane (readV t 1) 31 == z && t.fflags == f

/-! ## One step of an instruction -/

theorem test_scalar_arithmetic :
    scalar (.add k0 10 12 13) 0xFFFFFFFFFFFFFFFF 2 1 ∧ scalar (.sub k0 10 12 13) 1 2 0xFFFFFFFFFFFFFFFF ∧
    scalar (.and k0 10 12 13) 0xF0F0 0xFF00 0xF000 ∧ scalar (.or k0 10 12 13) 0xF0F0 0xFF00 0xFFF0 ∧
    scalar (.xor k0 10 12 13) 0xF0F0 0xFF00 0x0FF0 ∧ scalar (.andn k0 10 12 13) 0xF0F0 0xFF00 0x00F0 ∧
    scalar (.mul k0 10 12 13) 0xFFFFFFFF 0xFFFFFFFF 0xFFFFFFFE00000001 ∧
    scalar (.mulh k0 10 12 13) 0xFFFFFFFFFFFFFFFF 1 0xFFFFFFFFFFFFFFFF ∧
    scalar (.mulhu k0 10 12 13) 0xFFFFFFFFFFFFFFFF 0xFFFFFFFFFFFFFFFF 0xFFFFFFFFFFFFFFFE := by decide +kernel

theorem test_scalar_order :
    scalar (.min k0 10 12 13) 0xFFFFFFFFFFFFFFFF 1 0xFFFFFFFFFFFFFFFF ∧ scalar (.max k0 10 12 13) 0xFFFFFFFFFFFFFFFF 1 1 ∧
    scalar (.minu k0 10 12 13) 0xFFFFFFFFFFFFFFFF 1 1 ∧ scalar (.maxu k0 10 12 13) 0xFFFFFFFFFFFFFFFF 1 0xFFFFFFFFFFFFFFFF := by
  decide +kernel

theorem test_scalar_shifts :
    scalar (.shl k0 10 12 13) 1 65 2 ∧ scalar (.shr k0 10 12 13) 0x8000000000000000 63 1 ∧
    scalar (.sra k0 10 12 13) 0x8000000000000000 63 0xFFFFFFFFFFFFFFFF ∧ scalar (.rol k0 10 12 13) 0x8000000000000001 1 3 ∧
    scalar (.rol k0 10 12 13) 7 64 7 ∧ scalar (.addw k0 10 12 13) 0x7FFFFFFF 1 0xFFFFFFFF80000000 := by decide +kernel

theorem test_division :
    scalar (.div k0 10 12 13) 0xFFFFFFFFFFFFFFF9 2 0xFFFFFFFFFFFFFFFD ∧
    scalar (.div k0 10 12 13) 0x8000000000000000 0xFFFFFFFFFFFFFFFF 0x8000000000000000 ∧
    scalar (.divu k0 10 12 13) 7 0 0xFFFFFFFFFFFFFFFF ∧ scalar (.rem k0 10 12 13) 0xFFFFFFFFFFFFFFF9 2 0xFFFFFFFFFFFFFFFF ∧
    scalar (.remu k0 10 12 13) 7 0 7 := by decide +kernel

theorem test_bit_counts :
    scalar (.clz k0 10 12) 0x10000 0 47 ∧ scalar (.clz k0 10 12) 0 0 64 ∧ scalar (.ctz k0 10 12) 0x10000 0 16 ∧
    scalar (.popc k0 10 12) 0xFF00FF 0 16 ∧ scalar (.brev k0 10 12) 1 0 0x8000000000000000 ∧
    scalar (.bswap k0 10 12) 0x0102030405060708 0 0x0807060504030201 := by decide +kernel

theorem test_extensions :
    scalar (.sext8 k0 10 12) 0x180 0 0xFFFFFFFFFFFFFF80 ∧ scalar (.sext16 k0 10 12) 0x18000 0 0xFFFFFFFFFFFF8000 ∧
    scalar (.sext32 k0 10 12) 0x180000000 0 0xFFFFFFFF80000000 ∧ scalar (.zext32 k0 10 12) 0xFFFFFFFF00000001 0 1 := by
  decide +kernel

theorem test_immediates :
    scalar (.addi k0 10 12 0x1FF) 0 0 0xFFFFFFFFFFFFFFFF ∧ scalar (.andi k0 10 12 0x1F0) 0xFFFFFFFFFFFFFFFF 0 0xFFFFFFFFFFFFFFF0 ∧
    scalar (.ori k0 10 12 0x0F) 0x10 0 0x1F ∧ scalar (.xori k0 10 12 0x1FF) 5 0 0xFFFFFFFFFFFFFFFA ∧
    scalar (.shli k0 10 12 14) 3 0 0xC000 ∧ scalar (.shri k0 10 12 63) 0x8000000000000000 0 1 ∧
    scalar (.srai k0 10 12 63) 0x8000000000000000 0 0xFFFFFFFFFFFFFFFF ∧ scalar (.li k0 10 0x3FFF) 0 0 0xFFFFFFFFFFFFFFFF ∧
    scalar (.adpc k0 10 16) 0 0 0x100000000020 ∧ readX (done (.lis k0 12 576) (regs [(12, 12)])) 12 = 0x30240 := by decide +kernel

/-- A write of g0 is discarded; w7 of the caller's frame is not w7 of the callee's (04 R86, R87). -/
theorem test_register_file :
    readX (done (.li k0 0 5) base) 0 = 0 ∧ readX (done (.call k0 32) (regs [(24, 9)])) 8 = 9 ∧
    readX (done (.call k0 32) base) 23 = 0x100000000004 ∧ (done (.call k0 32) base).pc = 0x100000000040 ∧
    (done (.call k0 32) base).depth = 1 := by decide +kernel

theorem test_compares :
    readP (done (.pcmp k0 1 2 12 13 .lt) (regs [(12, 0xFFFFFFFFFFFFFFFF), (13, 0)])) 1 = 0xFFFFFFFF ∧
    readP (done (.pcmp k0 1 2 12 13 .ltu) (regs [(12, 0xFFFFFFFFFFFFFFFF), (13, 0)])) 2 = 0xFFFFFFFF ∧
    readP (done (.pcmp k0 3 3 12 13 .eq) (regs [(12, 4), (13, 4)])) 3 = 0 ∧
    readP (done (.pcmp k0 1 2 12 13 .tst) (regs [(12, 6), (13, 4)])) 1 = 0xFFFFFFFF := by decide +kernel

/-- The small state with predicates p1 and p2 written. -/
def preds (x y : W32) : State :=
  base.modSlot base.cur fun t => applyWrites t [.p 1 x (BitVec.allOnes 32), .p 2 y (BitVec.allOnes 32)]

theorem test_predicates :
    readP (done (.pand k0 3 1 2) (preds 0xFF00 0xF0F0)) 3 = 0xF000 ∧ readP (done (.por k0 3 1 2) (preds 0xFF00 0xF0F0)) 3 = 0xFFF0 ∧
    readP (done (.pxor k0 3 1 2) (preds 0xFF00 0xF0F0)) 3 = 0x0FF0 ∧ readP (done (.pandn k0 3 1 2) (preds 0xFF00 0xF0F0)) 3 = 0x0F00 ∧
    readP (done (.pnot k0 3 1) (preds 0xFF00 0)) 3 = 0xFFFF00FF ∧ readP (done (.pset k0 3 12) (regs [(12, 0x1FFFFFFFF)])) 3 = 0xFFFFFFFF ∧
    readX (done (.pget k0 1 10) (preds 0xFF00 0)) 10 = 0xFF00 ∧ readX (done (.pcnt k0 1 2 10) (preds 0xFF00 0xF0F0)) 10 = 4 ∧
    readX (done (.pfirst k0 1 2 10) (preds 0xFF00 0xF0F0)) 10 = 12 ∧ readX (done (.pfirst k0 1 2 10) (preds 0 0xF0F0)) 10 = 32 := by
  decide +kernel

/-- A predicate written under a guard keeps the other lanes (04 R92). -/
theorem test_guarded_predicate : readP (done (.pset ⟨0, false, 1⟩ 2 12) (preds 0xFF 0xF0F00000)) 2 = 0xF0F00000 := by
  decide +kernel

theorem test_control :
    (done (.br k0 0x7FFFC) base).pc = 0x0FFFFFFFFFF8 ∧ (done (.jr k0 12) (regs [(12, 0x100000000100)])).pc = 0x100000000100 ∧
    (done (.jr k0 12) (regs [(12, 0x100000000101)])).st = .frozen ∧ (done (.ret k0) base).st = .frozen ∧
    (done (.callr k0 12) (regs [(12, 0x100000000100)])).pc = 0x100000000100 ∧ (done (.brk k0) base).st = .frozen ∧
    (done (.rep k0 12 1 3) (regs [(12, 2)])).rep.isSome ∧ (done (.park k0 12) (regs [(12, 5)])).wait.isSome := by decide +kernel

theorem test_vector_integers :
    lanes (.vaddI32 k0 1 2 3) 0xFFFFFFFF 2 0 1 0 ∧ lanes (.vsubI32 k0 1 2 3) 1 2 0 0xFFFFFFFF 0 ∧
    lanes (.vmulI32 k0 1 2 3) 0x10001 0x10001 0 0x20001 0 ∧ lanes (.vmulhI32 k0 1 2 3) 0xFFFFFFFF 2 0 0xFFFFFFFF 0 ∧
    lanes (.vand k0 1 2 3) 0xF0F0 0xFF00 0 0xF000 0 ∧ lanes (.vor k0 1 2 3) 0xF0F0 0xFF00 0 0xFFF0 0 ∧
    lanes (.vxor k0 1 2 3) 0xF0F0 0xFF00 0 0x0FF0 0 ∧ lanes (.vandn k0 1 2 3) 0xF0F0 0xFF00 0 0x00F0 0 ∧
    lanes (.vshl k0 1 2 3) 1 33 0 2 0 ∧ lanes (.vshr k0 1 2 3) 0x80000000 31 0 1 0 ∧
    lanes (.vsra k0 1 2 3) 0x80000000 31 0 0xFFFFFFFF 0 ∧ lanes (.vminI32 k0 1 2 3) 0xFFFFFFFF 1 0 0xFFFFFFFF 0 ∧
    lanes (.vmaxI32 k0 1 2 3) 0xFFFFFFFF 1 0 1 0 ∧ lanes (.vminN32 k0 1 2 3) 0xFFFFFFFF 1 0 1 0 ∧
    lanes (.vmaxN32 k0 1 2 3) 0xFFFFFFFF 1 0 0xFFFFFFFF 0 ∧ lanes (.vabsI32 k0 1 2) 0x80000000 0 0 0x80000000 0 := by
  decide +kernel

theorem test_vector_fp32 :
    lanes (.vaddF32 k0 1 2 3) 0x3F800000 0x40000000 0 0x40400000 0 ∧ lanes (.vsubF32 k0 1 2 3) 0x7F800000 0x7F800000 0 0x7FC00000 fNV ∧
    lanes (.vmulF32 k0 1 2 3) 0x3FC00000 0x3FC00000 0 0x40100000 0 ∧ lanes (.vminF32 k0 1 2 3) 0x00000000 0x80000000 0 0x80000000 0 ∧
    lanes (.vmaxF32 k0 1 2 3) 0x00000000 0x80000000 0 0x00000000 0 ∧ lanes (.vmaxF32 k0 1 2 3) 0x7FC00000 0x3F800000 0 0x7FC00000 0 ∧
    lanes (.vabsF32 k0 1 2) 0xFF800001 0 0 0x7F800001 0 ∧ lanes (.vnegF32 k0 1 2) 0x7F800001 0 0 0xFF800001 0 ∧
    lanes (.vcopysignF32 k0 1 2 3) 0x3F800000 0x80000000 0 0xBF800000 0 := by decide +kernel

theorem test_vector_functions :
    lanes (.vsqrtF32 k0 1 2) 0x40800000 0 0 0x40000000 0 ∧ lanes (.vsqrtF32 k0 1 2) 0xBF800000 0 0 0x7FC00000 fNV ∧
    lanes (.vrcpF32 k0 1 2) 0x40000000 0 0 0x3F000000 0 ∧ lanes (.vrcpF32 k0 1 2) 0x80000000 0 0 0xFF800000 fDZ ∧
    lanes (.vrsqF32 k0 1 2) 0x40800000 0 0 0x3F000000 0 ∧ lanes (.vexp2F32 k0 1 2) 0x40400000 0 0 0x41000000 0 ∧
    lanes (.vlog2F32 k0 1 2) 0x41000000 0 0 0x40400000 0 ∧ lanes (.vlog2F32 k0 1 2) 0 0 0 0xFF800000 fDZ ∧
    lanes (.vfloorF32 k0 1 2) 0xBFC00000 0 0 0xC0000000 0 ∧ lanes (.vceilF32 k0 1 2) 0xBF000000 0 0 0x80000000 0 ∧
    lanes (.vrintF32 k0 1 2) 0x40200000 0 0 0x40000000 fNX := by decide +kernel

/-- The manual's fused example (14 R304) and its dot products (14 R306). -/
theorem test_vector_fused :
    lanes (.vfmaF32 k0 1 2 3) 0x3F800800 0x3F800800 0xBF801000 0x33800000 0 ∧
    lanes (.vmulF32 k0 1 2 3) 0x3F800800 0x3F800800 0 0x3F801000 fNX ∧
    lanes (.vfmsF32 k0 1 2 3) 0x40000000 0x40400000 0x3F800000 0x40A00000 0 ∧
    lanes (.vfnmaF32 k0 1 2 3) 0x40000000 0x40400000 0x3F800000 0xC0A00000 0 ∧
    lanes (.vfmaF16x2 k0 1 2 3) 0x40003C00 0x40003C00 0x3C003C00 0x45004000 0 ∧
    lanes (.vfmaBf16x2 k0 1 2 3) 0x40003F80 0x40003F80 0x3F803F80 0x40A04000 0 ∧
    lanes (.vdot2F16 k0 1 2 3) 0x40003C00 0x40003C00 0x3F800000 0x40C00000 0 ∧
    lanes (.vdot2Bf16 k0 1 2 3) 0x40003F80 0x40003F80 0x3F800000 0x40C00000 0 ∧
    lanes (.vdot4I8 k0 1 2 3) 0x0080FF02 0x7F010303 10 0xFFFFFF8D 0 ∧
    lanes (.vdot4N8 k0 1 2 3) 0x0080FF02 0x7F010303 10 909 0 := by decide +kernel

theorem test_packed_halves :
    lanes (.vaddF16x2 k0 1 2 3) 0x40003C00 0x3C003C00 0 0x42004000 0 ∧ lanes (.vsubF16x2 k0 1 2 3) 0x40003C00 0x3C003C00 0 0x3C000000 0 ∧
    lanes (.vmulF16x2 k0 1 2 3) 0x3E004000 0x3E004000 0 0x40804400 0 ∧ lanes (.vmaxF16x2 k0 1 2 3) 0x40003C00 0x3C004400 0 0x40004400 0 ∧
    lanes (.vminF16x2 k0 1 2 3) 0x40003C00 0x3C004400 0 0x3C003C00 0 ∧ lanes (.vaddF16x2 k0 1 2 3) 0x7BFF3C00 0x7BFF3C00 0 0x7C004000 5 ∧
    lanes (.vaddBf16x2 k0 1 2 3) 0x40003F80 0x3F803F80 0 0x40404000 0 ∧ lanes (.vsubBf16x2 k0 1 2 3) 0x40003F80 0x3F803F80 0 0x3F800000 0 ∧
    lanes (.vmulBf16x2 k0 1 2 3) 0x3FC04000 0x3FC04000 0 0x40104080 0 ∧ lanes (.vmaxBf16x2 k0 1 2 3) 0x40003F80 0x3F804080 0 0x40004080 0 ∧
    lanes (.vminBf16x2 k0 1 2 3) 0x40003F80 0x3F804080 0 0x3F803F80 0 := by decide +kernel

/-- Conversions, the worked rows of 14 R308 among them. -/
theorem test_conversions :
    lanes (.vcvtF32I32 k0 1 2) 0x80000000 0 0 0xCF000000 0 ∧ lanes (.vcvtF32N32 k0 1 2) 0xFFFFFFFF 0 0 0x4F800000 fNX ∧
    lanes (.vcvtI32F32 k0 1 2) 0xC0200000 0 0 0xFFFFFFFE fNX ∧ lanes (.vcvtN32F32 k0 1 2) 0xBF800000 0 0 0 fNV ∧
    lanes (.vpackF16x2 k0 1 2 3) 0x3F800000 0x40000000 0 0x40003C00 0 ∧
    lanes (.vpackBf16x2 k0 1 2 3) 0x3F800000 0x40000000 0 0x40003F80 0 ∧
    lanes (.vcvtF32F16 k0 1 2 1) 0x40003C00 0 0 0x40000000 0 ∧ lanes (.vcvtF32Bf16 k0 1 2 0) 0x40003F80 0 0 0x3F800000 0 ∧
    lanes (.vcvtB8F32 k0 1 2 0) 0x3F800000 0 0 0x40 0 ∧ lanes (.vcvtB8F32 k0 1 2 0) 0x3F4CCCCD 0 0 0x3D fNX ∧
    lanes (.vcvtB8F32 k0 1 2 0) 0x43960000 0 0 0x7F 5 ∧ lanes (.vcvtB8F32 k0 1 2 0) 0xBA83126F 0 0 0x81 3 ∧
    lanes (.vcvtB8F32 k0 1 2 2) 0x3F800000 0 0xAABBCCDD 0xAA40CCDD 0 ∧ lanes (.vcvtF32B8 k0 1 2 0) 0x81 0 0 0xBA800000 0 ∧
    lanes (.vcvtF32E5m3 k0 1 2 1) 0x7800 0 0 0x3F800000 0 ∧ lanes (.vcvtE5m3F32 k0 1 2 3) 0x3F800000 0 0 0x78000000 0 := by
  decide +kernel

/-- The small state with v2 holding 100 + i in lane i, v3 holding 31 − i. -/
def ramp (l : List (Spec × Word)) : State :=
  (regs l).modSlot base.cur fun t => applyWrites t [.v 2 (ofLanes fun i => BitVec.ofNat 32 (100 + i)) (BitVec.allOnes 32),
    .v 3 (ofLanes fun i => BitVec.ofNat 32 (31 - i)) (BitVec.allOnes 32)]

/-- Lanes 0, 1 and 31 of v1 after an instruction. -/
def three (i : Instr) (l : List (Spec × Word)) : List Nat :=
  [0, 1, 31].map fun n => (lane (readV (done i (ramp l)) 1) n).toNat

theorem test_permutes :
    three (.vmov k0 1 3) [] = [31, 30, 0] ∧ three (.vbcast k0 1 12) [(12, 0x1_0000_0007)] = [7, 7, 7] ∧
    three (.vins k0 1 12 13) [(12, 9), (13, 33)] = [0, 9, 0] ∧ readX (done (.vext k0 10 2 13) (ramp [(13, 34)])) 10 = 102 ∧
    three (.vshuf k0 1 2 3) [] = [131, 130, 100] ∧ three (.vrot k0 1 2 12) [(12, 1)] = [101, 102, 100] ∧
    three (.vzlo k0 1 2 3) [] = [100, 31, 16] ∧ three (.vzhi k0 1 2 3) [] = [116, 15, 0] ∧ three (.viota k0 1) [] = [0, 1, 31] := by
  decide +kernel

/-- A reduction into w2. -/
def reduced (i : Instr) (s : State) : Word := readX (done i s) 10

/-- v2 with −0 in lane 3 and +0 in lanes 7 and 9, as the guard p1 enables them (14 R311). -/
def zeros : State :=
  base.modSlot base.cur fun t => applyWrites t [.v 2 (ofLanes fun i => if i = 3 then 0x80000000 else 0) (BitVec.allOnes 32),
    .p 1 0x288 (BitVec.allOnes 32)]

theorem test_reductions :
    reduced (.vsumI32 k0 10 2) (ramp []) = 3696 ∧ reduced (.vmaxrI32 k0 10 2) (ramp []) = 131 ∧
    reduced (.vminrI32 k0 10 2) (ramp []) = 100 ∧ reduced (.vorr k0 10 2) (ramp []) = 0xFF ∧
    reduced (.vsumF32 k0 10 2) (vecs [(2, 0x3F800000)]) = 0x42000000 ∧
    reduced (.vmaxrF32 k0 10 2) zeros = 0 ∧ reduced (.vminrF32 k0 10 2) zeros = 0x80000000 ∧
    reduced (.vargmaxF32 ⟨0, false, 1⟩ 10 2) zeros = 7 ∧ reduced (.vargmaxF32 ⟨0, false, 2⟩ 10 2) zeros = 32 ∧
    reduced (.vminrI32 ⟨0, false, 2⟩ 10 2) zeros = 0x7FFFFFFF := by decide +kernel

theorem test_vector_compares :
    readP (done (.vcmpf k0 1 2 2 3 .lt) (vecs [(2, 0x3F800000), (3, 0x40000000)])) 1 = 0xFFFFFFFF ∧
    (done (.vcmpf k0 1 2 2 3 .lt) (vecs [(2, 0x7FC00000), (3, 0x40000000)])).fflags = fNV ∧
    readP (done (.vcmpi k0 1 2 2 3 .ltu) (vecs [(2, 0xFFFFFFFF), (3, 1)])) 2 = 0xFFFFFFFF := by decide +kernel

/-- A short form on v2 (destination) and v3. -/
def short (i : Instr) (x y z : W32) : Bool :=
  let t := done i (vecs [(2, x), (3, y)])
  lane (readV t 2) 0 == z && t.pc == 0x100000000002

theorem test_short_forms :
    short (.vaddF32_16 3 2) 0x3F800000 0x40000000 0x40400000 ∧ short (.vsubF32_16 3 2) 0x40400000 0x3F800000 0x40000000 ∧
    short (.vmulF32_16 3 2) 0x3FC00000 0x3FC00000 0x40100000 ∧ short (.vmaxF32_16 3 2) 0x3F800000 0x40000000 0x40000000 ∧
    short (.vminF32_16 3 2) 0x3F800000 0x40000000 0x3F800000 ∧ short (.vaddI32_16 3 2) 1 2 3 ∧ short (.vsubI32_16 3 2) 5 2 3 ∧
    short (.vand16 3 2) 6 3 2 ∧ short (.vor16 3 2) 6 3 7 ∧ short (.vxor16 3 2) 6 3 5 ∧ short (.vmov16 3 2) 6 3 3 ∧
    short (.vshl16 3 2) 1 4 16 ∧ short (.vaddF16x2_16 3 2) 0x40003C00 0x3C003C00 0x42004000 ∧
    short (.vmulF16x2_16 3 2) 0x3E004000 0x3E004000 0x40804400 ∧ short (.vaddBf16x2_16 3 2) 0x40003F80 0x3F803F80 0x40404000 ∧
    short (.vmulBf16x2_16 3 2) 0x3FC04000 0x3FC04000 0x40104080 := by decide +kernel

/-- w5 holds an address, w4 a value, w6 another, and a word of the vault holds 0x80000001 with its full bit set; block 0 of the vault is
marked full-empty. -/
def memory (a x : Word) : State :=
  let s := regs [(13, a), (12, x), (14, 7)]
  { s with mem := memWrite [] (vaultKey ⟨1, 0, 0⟩ 0x100) 8 0x1122334480000001, full := [vaultKey ⟨1, 0, 0⟩ 0x100],
           pdies := [(0, { femark := [(0, true)] })] }

/-- A word of memory after an instruction and its release. -/
def stored (i : Instr) (s : State) (k n : Nat) : Nat := (((after i s).atomicsHome s.cur).drain s.cur).loadLE k n

theorem test_loads :
    readX (done (.ld k0 10 13 .plain .core 2 false) (memory 0x1000100 0)) 10 = 0x80000001 ∧
    readX (done (.ld k0 10 13 .acq .die 3 true) (memory 0x1000100 0)) 13 = 0x1000108 ∧
    readX (done (.ldo k0 10 13 0 0x7F) (memory 0x1000101 0)) 10 = 1 ∧
    (done (.ld k0 10 13 .plain .core 2 false) (memory 0x1000102 0)).st = .frozen ∧
    lane (readV (done (.vld k0 1 13 .plain .core 0 false) (memory 0x1000100 0)) 1) 1 = 0x11223344 ∧
    lane (readV (done (.vld k0 1 13 .plain .core 3 false) (memory 0x1000100 0)) 1) 31 = 0x80000001 := by decide +kernel

theorem test_stores :
    stored (.st k0 12 13 .plain .core 1 false) (memory 0x1000104 0xABCDEF) (vaultKey ⟨1, 0, 0⟩ 0x100) 8 = 0x1122CDEF80000001 ∧
    stored (.sto k0 12 13 3 1) (memory 0x100 5) (localKey ⟨1, 0, 0, 0⟩ 0x108) 8 = 5 ∧
    stored (.st k0 12 13 .rel .die 0 true) (memory 0x10000 9) (sharedKey ⟨1, 0, 0⟩ 0) 1 = 9 := by decide +kernel

/-- The small state with v2 = 100 + i, v3 = 31 − i and w5 an address. -/
theorem test_vector_stores :
    stored (.vst k0 2 13 .plain .core 0 false) (ramp [(13, 0x1000080)]) (vaultKey ⟨1, 0, 0⟩ 0x84) 4 = 101 ∧
    stored (.vstx k0 2 13 3 .w8) (ramp [(13, 0x1000000)]) (vaultKey ⟨1, 0, 0⟩ 0) 4 = 0x80818283 ∧
    lane (readV (done (.vldx k0 1 13 3 .w32) (memory 0x1000100 0)) 1) 0 = 0x80000001 := by decide +kernel

/-- The package after a full-empty operation that its home has executed. -/
def homed (i : Instr) (s : State) : State := (after i s).atomicsHome s.cur

theorem test_full_empty :
    readX (done (.ldf k0 10 13 .plain .core 0 true) (memory 0x1000100 0)) 10 = 0x80000001 ∧
    (after (.ldf k0 10 13 .plain .core 0 true) (memory 0x1000100 0)).full = [] ∧
    ((after (.ldf k0 10 13 .plain .core 0 false) (memory 0x1000104 0)).slot base.cur).wait.isSome ∧
    readX (done (.fprobe k0 10 13) (memory 0x1000100 0)) 10 = 1 ∧ (homed (.fclr k0 13) (memory 0x1000100 0)).full = [] ∧
    (homed (.fset k0 13) (memory 0x1000104 0)).full.length = 2 ∧
    stored (.stf k0 13 14) (memory 0x1000104 0) (vaultKey ⟨1, 0, 0⟩ 0x104) 4 = 7 := by decide +kernel

/-- An atomic at the vault's word: the old value, and what it leaves. -/
def atomic (f : Aop) (x : Word) (z : Nat) : Bool :=
  let s := memory 0x1000100 x
  readX (done (.amo k0 12 13 f .acqrel .quad) s) 12 == 0x80000001 &&
    stored (.amo k0 12 13 f .acqrel .quad) s (vaultKey ⟨1, 0, 0⟩ 0x100) 4 == z

theorem test_atomics :
    atomic .add 0xFFFFFFFF 0x80000000 ∧ atomic .and 0xF 1 ∧ atomic .or 6 0x80000007 ∧ atomic .xor 3 0x80000002 ∧
    atomic .min 5 0x80000001 ∧ atomic .max 5 5 ∧ atomic .minu 5 5 ∧ atomic .maxu 5 0x80000001 ∧ atomic .swap 9 9 ∧
    atomic .cas 0x80000001 0x1000100 ∧ atomic .cas 2 0x80000001 := by decide +kernel

theorem test_control_registers :
    readX (done (.mfc k0 10 0x000) base) 10 = 0 ∧ (done (.mtc k0 12 0x008) (regs [(12, 3)])).round = 3 ∧
    (done (.mtc k0 12 0x008) (regs [(12, 5)])).st = .frozen ∧ (done (.mtc k0 12 0x00D) (regs [(12, 0xFF)])).fflags = 0x1F ∧
    (done (.wdog k0 12) (regs [(12, 50)])).wdog = 50 ∧ (done (.mset k0 12 6) (regs [(12, 77)])).mc = [(6, 77)] ∧
    (done (.rsync k0) base).pc = 0x100000000004 ∧ (done (.dstop k0 12) (regs [(12, 1)])).st = .frozen := by decide +kernel

/-- A false guard: the instruction goes by (11 R232). -/
theorem test_false_guard :
    readX (done (.li ⟨0, true, 0⟩ 10 5) base) 10 = 0 ∧ (done (.li ⟨0, true, 0⟩ 10 5) base).pc = 0x100000000004 ∧
    (done (.brk ⟨0, true, 0⟩) base).st = .running := by decide +kernel

/-- A step from the state after reset with a word placed: li w4, 12 of the supervisor core. -/
theorem test_step :
    (match step (State.reset.withFetchWord 32 0x60018481) with
      | .next t => readX ((t.landSlot t.cur).slot t.cur) 12 == 12
      | _ => false) = true := by decide +kernel

/-- Does the form of an instruction meet a test? -/
def formIs (i : Instr) (p : Form → Bool) : Bool :=
  match formOf i with
  | some f => p f
  | none => false

/-- Does every instruction of a list execute now in a state, no fence before it? -/
def allRun (s : State) (l : List Instr) : Bool := l.all fun i => Unfenced s i && formIs i fun f => f.runs s

/-! ## Witnesses: for each statement with hypotheses, concrete values that meet them together -/

theorem wit_EncodeThenDecode32 :
    encode (.amo k5 30 12 .cas .acqrel .sys) = .w32 0xF327AF5B ∧ (Instr.amo k5 30 12 .cas .acqrel .sys).encFault = none := by
  decide +kernel

theorem wit_EncodeThenDecode16 : encode (.vshl16 31 0) = .w16 0x7C1E := by decide +kernel

theorem wit_DecodeThenEncode :
    (0x52BFE101 : W32).getLsbD 0 = true ∧ decode32 0x52BFE101 = .ok (.addi k0 10 10 0x1FF) ∧ (0x7C1E : BitVec 16).getLsbD 0 = false ∧
      decode16 0x7C1E = .ok (.vshl16 31 0) := ⟨by decide, by rfl, by decide, by rfl⟩

theorem wit_ReservedWordsAreRefused :
    fMajor 0x00001381 = 0x27 ∧ 0x35 ≤ fMajor 0x00001A81 ∧ 0x35 ≤ fMajor 0xFFFFFFFF ∧ (0x8000 : BitVec 16).getLsbD 15 = true ∧
      (Ord.acq = .acq ∨ Ord.acq = .acqrel) ∧ (Ord.acqrel = .acq ∨ Ord.acqrel = .acqrel) := by decide +kernel

/-- Does an answer give a next state? -/
def isNext (o : Host.Outcome State Fault Refusal) : Bool :=
  match o with
  | .next _ => true
  | _ => false

/-- An answer that gives a next state gives after's. -/
theorem isNext_exec {i : Instr} {s : State} (h : isNext (exec i s) = true) : exec i s = .next (after i s) := by
  unfold after
  cases hx : exec i s <;> simp_all [isNext]

/-- Does an attempt issue? -/
def goes (a : Attempt) : Bool :=
  match a with
  | .go _ => true
  | _ => false

/-- The state after reset with li w4, 12 placed, and where its fetch leaves it. -/
def placed0 : State := State.reset.withFetchWord 32 0x60018481
def issuing0 : State :=
  ((List.range 4).foldl (fun s i => s.waitCount (placed0.cur.coreRef.slotRef i) false) placed0).modCore placed0.cur.coreRef fun c =>
    { c with last := 0, issuedAt := placed0.now + 1 }
def fetched0 : FetchRes × State := issuing0.fetchInstr placed0.cur (issuing0.slot placed0.cur).pc.toNat
def exec0 : State :=
  ({ fetched0.2 with cur := placed0.cur } : State).setSlot placed0.cur
    { fetched0.2.slot placed0.cur with
      iword := BitVec.ofNat 32 (leNat (passBytes (fetched0.2.slot placed0.cur) (Code.w32 0x60018481).bytes)) }

theorem wit_StepRunsTheDecodedInstruction :
    placed0.agenda = [] ∧ placed0.issuedNow placed0.cur.coreRef = false ∧
    (∀ m < 4, (placed0.slot (placed0.cur.coreRef.slotRef m)).cancelled = false ∧
      ((placed0.slot (placed0.cur.coreRef.slotRef m)).wait.isSome || (placed0.slot (placed0.cur.coreRef.slotRef m)).walk.isSome ||
      ((placed0.slot (placed0.cur.coreRef.slotRef m)).linkErr.isNone && !(placed0.slot (placed0.cur.coreRef.slotRef m)).wdogPend)) = true) ∧
    (∀ m < 4, m ≠ 0 → placed0.mayIssue (placed0.cur.coreRef.slotRef m) = false) ∧
    goes (placed0.attempt placed0.cur) = true ∧
    issuing0.mayIssue placed0.cur = true ∧
    fetched0.1 = .bytes (Code.w32 0x60018481).bytes ∧
    reads (passBytes (fetched0.2.slot placed0.cur) (Code.w32 0x60018481).bytes) (.li k0 12 12) 4 = true ∧
    isNext (exec (.li k0 12 12) exec0) = true ∧
    sameSlot placed0.cur fetched0.2 (.next (after (.li k0 12 12) exec0)) = false ∧
    (startsWalk placed0.cur fetched0.2 (.next (after (.li k0 12 12) exec0))).isNone = true := by decide +kernel

theorem wit_AgendaMovesRunTheirEvents :
    ({ base with agenda := [.event .deviceReset, .tick] } : State).agenda = .event .deviceReset :: [.tick] ∧
      Instr.deviceReset.encoded = false := by decide +kernel

theorem wit_NothingStopsARun : (Instr.add k0 10 12 13).encoded = true := by decide +kernel

theorem wit_StepKeepsMemoryCanonical :
    base.Inv ∧ (memory 0 0).Inv ∧ isNext (step base) = true ∧ isNext (step placed0) = true := by
  unfold State.Inv; decide +kernel

theorem wit_HardWiredRegisters :
    (7 : Spec).toNat < 8 ∧ (7 : Spec) ≠ 0 ∧ (8 : Spec) ≠ 7 ∧ 8 ≤ (8 : Spec).toNat ∧ 8 ≤ (31 : Spec).toNat := by decide

theorem wit_WindowView : (23 : Nat) < 24 ∧ (7 : Nat) < 8 := by decide

theorem wit_PredicateRegisters : (7 : PSpec) ≠ 0 ∧ (0 : PSpec) ≠ 7 := by decide

theorem wit_VectorLanesKeepTheirBits : (31 : Nat) < 32 ∧ (0 : Spec) ≠ 31 := by decide

/-- Three results for p1, w2 and v1 in order of landing. -/
def pends : List Pend := [⟨.p 1 5 1, 101⟩, ⟨.ring 2 7, 101⟩, ⟨.v 1 0 1, 104⟩]

theorem wit_LatencyOfResults :
    pends.Pairwise (fun a b => a.due ≤ b.due) ∧ ({ task with pend := [⟨.ring 2 7, 101⟩] } : Slot).pend = [⟨.ring 2 7, 101⟩] ∧
    ({ task with flights := [.timed [.ring 2 7] 134] } : Slot).flights = [.timed [.ring 2 7] 134] ∧
    ({ task with pend := pends } : Slot).pend = [⟨.p 1 5 1, 101⟩] ++ ⟨.ring 2 7, 101⟩ :: [⟨.v 1 0 1, 104⟩] ∧
    (∀ q ∈ ([⟨.v 1 0 1, 104⟩] : List Pend), q.due ≤ 101 → q.w.reg ≠ .ring 2) ∧
    (∀ p ∈ ({ task with pend := pends } : Slot).pend, p.due ≤ 101 → p.w.reg ≠ .v 1) ∧
    (101 : Nat) ≤ 101 ∧ ¬ (101 : Nat) ≤ 100 := by decide +kernel

/-- The small state with a value on its way to w2, p1, v1. -/
def waiting : State :=
  base.modSlot base.cur fun t => { t with flights := [.value [writeX t 10 7], .value [.p 1 5 1], .value [.v 1 0 1]] }

theorem wit_BusyRegistersHoldAnInstruction :
    (∀ x ∈ [xReg (waiting.slot waiting.cur) 10, .p 1, .v 1], x.fixed = false ∧ busy (waiting.slot waiting.cur) x = true) ∧
    formIs (.amo k0 12 10 .cas .plain .core) (fun f => (f.regs (me waiting)).contains (xReg (me waiting) 10)) = true := by
  decide +kernel

/-- The small state with a fixed-latency result on its way to w2, c.check as given. -/
def landing (check : Word) : State :=
  base.modSlot base.cur fun t => { t with check := check, pend := [⟨writeX t 10 7, 101⟩] }

theorem wit_EarlyReadsFaultUnderCheck :
    notReady ((landing 1).slot base.cur) (.p k0.g :: rXX 10 13 ((landing 1).slot base.cur) ++ rX 12 ((landing 1).slot base.cur)) = false ∧
    guardOn ((landing 1).slot base.cur) k0 = true ∧ ((landing 1).slot base.cur).check.getLsbD 0 = true ∧
    stallOf ((landing 1).slot base.cur) [.p k0.g] [] = none ∧
    (rXX 10 13 ((landing 1).slot base.cur)).find? (fun x => !x.fixed && early ((landing 1).slot base.cur) x) =
      some (xReg ((landing 1).slot base.cur) 10) ∧
    (rXX 12 13 ((landing 1).slot base.cur)).find? (fun x => !x.fixed && early ((landing 1).slot base.cur) x) = none ∧
    (xReg ((landing 1).slot base.cur) 10).fixed = false ∧ early ((landing 1).slot base.cur) (xReg ((landing 1).slot base.cur) 10) = true ∧
    ((landing 0).slot base.cur).check.getLsbD 0 = false ∧ guardOn ((landing 0).slot base.cur) k0 = true ∧
    notReady ((landing 0).slot base.cur) (.p k0.g :: rXX 10 13 ((landing 0).slot base.cur) ++ rX 12 ((landing 0).slot base.cur)) = false := by
  decide +kernel

/-- The first register of a list that the small state above reads early. -/
def lateOf (s : State) (l : List Reg) : Option Reg := l.find? fun x => !x.fixed && early (me s) x

/-- The small state with a predicate, a scalar and a vector result on their way, c.check on, p2 with no lane on. -/
def landingAll : State :=
  base.modSlot base.cur fun t => { t with check := 1, pend := [⟨.p 1 0 1, 101⟩, ⟨writeX t 10 7, 101⟩, ⟨.v 2 0 1, 101⟩] }

/-- The guard late; a source; a destination; a vector source with no lane on. -/
theorem wit_EarlyReadsFaultUnderCheck_forms :
    (∀ i ∈ [Instr.jpost ⟨0, false, 1⟩ 12 13, .amo k0 12 10 .add .plain .core, .ld k0 10 12 .plain .core 2 false, .vaddI32 ⟨0, false, 2⟩ 1 2 3],
      formIs i (fun f => !notReady (me landingAll) (f.regs (me landingAll)) && !inRep (me landingAll) f.forbidden) = true) ∧
    (me landingAll).check.getLsbD 0 = true ∧
    formIs (.jpost ⟨0, false, 1⟩ 12 13) (fun f => early (me landingAll) (.p f.c.g)) = true ∧
    formIs (.amo k0 12 10 .add .plain .core) (fun f => (lateOf landingAll [.p f.c.g]).isNone && f.on (me landingAll) &&
      Unfenced landingAll (.amo k0 12 10 .add .plain .core) && lateOf landingAll (f.reads (me landingAll)) == some (xReg (me landingAll) 10)) = true ∧
    formIs (.ld k0 10 12 .plain .core 2 false) (fun f => f.on (me landingAll) && (lateOf landingAll (f.reads (me landingAll))).isNone &&
      lateOf landingAll (f.writes (me landingAll)) == some (xReg (me landingAll) 10)) = true ∧
    formIs (.vaddI32 ⟨0, false, 2⟩ 1 2 3) (fun f => !f.on (me landingAll) && f.lanes && !neverForm f.c &&
      lateOf landingAll (f.reads (me landingAll)) == some (.v 2)) = true := by decide +kernel

theorem wit_FalseGuardSpendsTheIssue :
    guardOn (base.slot base.cur) ⟨0, true, 0⟩ = false ∧ (base.slot base.cur).flights = [] ∧ (base.slot base.cur).rep = none ∧
      stallOf (base.slot base.cur) [.p 0] [] = none ∧
    ∀ i ∈ [Instr.gjoin ⟨0, true, 0⟩ 10 12, .vaddI32 ⟨0, false, 1⟩ 1 2 3, .vsumF32 ⟨0, true, 0⟩ 10 2],
      formIs i (fun f => !f.on (me base) && !notReady (me base) (f.regs (me base)) && !inRep (me base) f.forbidden &&
        (stallOf (me base) [.p f.c.g] []).isNone && (stallOf (me base) (f.reads (me base)) []).isNone) = true := by decide +kernel

theorem wit_TwoSourceScalarResults : Executes base k0 false (rXX 12 13) (rX 10) (guardOn · k0) = true := by decide +kernel

theorem wit_DivisionResults :
    Executes (regs [(12, 0x8000000000000000), (13, 0xFFFFFFFFFFFFFFFF)]) k0 false (rXX 12 13) (rX 10) (guardOn · k0) = true ∧
    readX ((regs [(12, 0x8000000000000000), (13, 0xFFFFFFFFFFFFFFFF)]).slot base.cur) 12 = BitVec.ofInt 64 (-2 ^ 63) ∧
    readX ((regs [(12, 0x8000000000000000), (13, 0xFFFFFFFFFFFFFFFF)]).slot base.cur) 13 = BitVec.allOnes 64 := by decide +kernel

theorem wit_BitCountsAndExtensions :
    Executes base k0 false (rX 12) (rX 10) (guardOn · k0) = true ∧ Executes base k0 false (rXX 12 13) (rX 10) (guardOn · k0) = true := by
  decide +kernel

theorem wit_ImmediateResults :
    Executes base k0 false (rX 12) (rX 10) (guardOn · k0) = true ∧ Executes base k0 false noRegs (rX 10) (guardOn · k0) = true ∧
      Executes base k0 false (rX 10) (rX 10) (guardOn · k0) = true := by decide +kernel

theorem wit_CompareAndPredicateResults :
    Executes base k0 false (rXX 12 13) (fun _ => [.p 1, .p 2]) (guardOn · k0) = true ∧
    Executes base k0 false (fun _ => [.p 2, .p 3]) (fun _ => [.p 1]) (fun t => laneMask t k0 != 0) = true ∧
    Executes base k0 false (fun _ => [.p 2]) (fun _ => [.p 1]) (fun t => laneMask t k0 != 0) = true ∧
    Executes base k0 false (rX 12) (fun _ => [.p 1]) (fun t => laneMask t k0 != 0) = true ∧
    Executes base k0 false (fun _ => [.p 2]) (rX 12) (guardOn · k0) = true ∧
    Executes base k0 false (fun _ => [.p 2, .p 3]) (rX 12) (guardOn · k0) = true := by decide +kernel

theorem wit_BranchesAndJumps :
    Executes base k0 true noRegs noRegs (guardOn · k0) = true ∧ Executes base k0 true (rX 12) noRegs (guardOn · k0) = true ∧
    (readX (base.slot base.cur) 12).getLsbD 0 = false ∧
    Executes (regs [(12, 1)]) k0 true (rX 12) noRegs (guardOn · k0) = true ∧
    (readX ((regs [(12, 1)]).slot base.cur) 12).getLsbD 0 = true := by decide +kernel

/-- The small state at a call depth: some registers spilled, the stack pointer of slot 0 that many groups up. -/
def deep (d lo groups : Nat) : State :=
  base.modSlot base.cur fun t => { t with depth := d, lo := lo, rsp := toW (stackBase 0 + 64 * groups) }

/-- Depth 0 needs no spill, depth 2 one (16 registers), depth 66 with a full stack has no room. -/
theorem wit_CallsMoveTheWindow :
    Unfenced (deep 2 0 0) (.call k0 32) = true ∧ Unfenced (deep 66 1024 128) (.callr k0 12) = true ∧
    moveWaits (me (deep 2 0 0)) (spillKeys base.cur (me (deep 2 0 0)) 1) = false ∧
    Executes (deep 0 0 0) k0 true noRegs calleeW15 (guardOn · k0) = true ∧ Executes (deep 2 0 0) k0 true (rX 12) calleeW15 (guardOn · k0) = true ∧
    spillGroups 0 (16 * (0 + 1) + 24 - 64) = 0 ∧ spillGroups 0 (16 * (2 + 1) + 24 - 64) = 1 ∧
    (∀ g < 1, ∀ x ∈ groupRegs (0 + 8 * g), busy ((deep 2 0 0).slot base.cur) x = false) ∧
    (readX ((deep 2 0 0).slot base.cur) 12).getLsbD 0 = false ∧
    Executes (deep 66 1024 128) k0 true noRegs calleeW15 (guardOn · k0) = true ∧ spillGroups 1024 (16 * (66 + 1) + 24 - 64) > 0 ∧
    ((deep 66 1024 128).slot base.cur).rsp.toNat + 8 * (16 * (66 + 1) + 24 - 64 - 1024) > stackBase 0 + 0x2000 ∧
    ¬ ((deep 2 0 0).slot base.cur).rsp.toNat + 8 * (16 * (2 + 1) + 24 - 64 - 0) > stackBase 0 + 0x2000 ∧
    0x10000 ≤ (me (deep 2 0 0)).rsp.toNat ∧ 7 < 8 * 1 ∧
    Executes (regs [(12, 1)]) k0 true (rX 12) calleeW15 (guardOn · k0) = true := by decide +kernel

theorem wit_CallsMoveTheWindow_inv : (deep 2 0 0).Inv := by unfold State.Inv; decide +kernel

/-- Depth 0; depth 1 with an even and an odd target; depth 3 that fills a group. -/
theorem wit_ReturnsMoveTheWindow :
    Executes (deep 0 0 0) k0 true (rX 23) noRegs (guardOn · k0) = true ∧ ((deep 0 0 0).slot base.cur).depth = 0 ∧
    Executes (deep 3 40 5) k0 true (rX 23) noRegs (guardOn · k0) = true ∧ 0 < ((deep 3 40 5).slot base.cur).depth ∧
    (readX ((deep 3 40 5).slot base.cur) 23).getLsbD 0 = false ∧ cdiv (40 - 16 * 2) 8 = 1 ∧
    (∀ g < 1, ∀ x ∈ groupRegs (40 - 8 * (g + 1)), busy ((deep 3 40 5).slot base.cur) x = false) ∧
    (let keys := (List.range 1).flatMap fun g => fillKeys base.cur { me (deep 3 40 5) with rsp := (me (deep 3 40 5)).rsp - BitVec.ofNat 64 (64 * g) };
      moveWaits (me (deep 3 40 5)) keys = false ∧
      ∀ k ∈ keys, smem (granuleOf k) (deep 3 40 5).poison = true → (deep 3 40 5).hot base.cur (granuleOf k) = false) ∧
    Unfenced (deep 3 40 5) (.ret k0) = true ∧ 0 + 1 = 1 ∧
    Executes ((deep 1 0 0).modSlot base.cur fun t => applyWrite t (writeX t 23 1)) k0 true (rX 23) noRegs (guardOn · k0) = true ∧
    (readX (((deep 1 0 0).modSlot base.cur fun t => applyWrite t (writeX t 23 1)).slot base.cur) 23).getLsbD 0 = true := by
  decide +kernel

theorem wit_ParkBrkRsync :
    Executes base k0 true (rX 12) noRegs (guardOn · k0) = true ∧ (base.slot base.cur).wake = false ∧
    Executes (base.modSlot base.cur fun t => { t with wake := true }) k0 true (rX 12) noRegs (guardOn · k0) = true ∧
    ((base.modSlot base.cur fun t => { t with wake := true }).slot base.cur).wake = true ∧
    Executes base k0 false noRegs noRegs (guardOn · k0) = true := by decide +kernel

/-- The small state in the second pass of a repetition of two instructions. -/
def repeating : Rep := ⟨1, 3, 1, 2, 4, 0x100000000004⟩

/-- No pass at all: the body of one instruction is passed over (12 R272). -/
theorem wit_RepetitionRunsItsBody_none :
    Executes (base.place (Code.w32 0x60018481).bytes) k0 true (rX 12) noRegs (guardOn · k0) = true ∧
    readX (me (base.place (Code.w32 0x60018481).bytes)) 12 = 0 ∧
    (match (((base.place (Code.w32 0x60018481).bytes).issued k0 4 []).passOver base.cur 1
        (((base.place (Code.w32 0x60018481).bytes).issued k0 4 []).slot base.cur).pc).1 with
      | (none, pc) => pc == 0x100000000006
      | _ => false) = true := by decide +kernel

theorem wit_RepetitionRunsItsBody :
    Executes (regs [(12, 3)]) k0 true (rX 12) noRegs (guardOn · k0) = true ∧ readX (me (regs [(12, 3)])) 12 ≠ 0 ∧ ({ task with rep := some repeating } : Slot).rep = some repeating ∧
    task.rep = none ∧ refusal [0x01#8, 0x00#8] = some .short ∧
    reads (encode (.vaddI32 k0 1 2 3)).bytes (.vaddI32 k0 1 2 3) 4 = true ∧ reads (encode (.vaddF32_16 3 2)).bytes (.vaddF32_16 3 2) 2 = true ∧
    27 ≤ 27 ∧ 0xFFFFFFFF < 2 ^ 32 ∧ (26 < 27 ∨ 27 + 5 ≤ 26) ∧ (9 < 5 ∨ 5 + 5 ≤ 10) ∧
    ((base.modSlot base.cur fun t => { t with rep := some repeating }).slot base.cur).rep.isSome = true ∧
    ((base.modSlot base.cur fun t => { t with rep := some repeating }).slot base.cur).flights = [] := by decide +kernel

theorem wit_ControlRegisterAccess_map :
    (me base).idw = none ∧ (me base).ctxw = none ∧ base.cur.slot < 4 ∧ base.cur.die < 4 ∧ base.pkg < 512 ∧ base.cur.core < supCore ∧ supCore ≤ supCore ∧
    (me base).grp = none ∧ (me base).grpw = 0 ∧ (me (base.modSlot base.cur fun t => { t with grp := some (4095, 63) })).grp = some (4095, 63) ∧
    base.shapeOf 1 = .rect 8 8 ∧ 8 - 1 < 16 ∧
    ({ base with ctxs := [(1, { exist := true, shape := some (.dies 4) })] } : State).shapeOf 1 = .dies 4 ∧ (31 : Nat) < 32 ∧ (63 : Nat) < 64 ∧
    ((0x1B : Nat) ≤ 0x1B ∧ (0x1B : Nat) < 0x40) ∧ 0x80 ≤ 0x80 := by decide +kernel

theorem wit_ControlRegisterAccess :
    Executes base k0 false noRegs (rX 10) (guardOn · k0) = true ∧ Executes base k0 false (rX 10) noRegs (guardOn · k0) = true ∧
    (0x008 : BitVec 9) = 0x008 ∧ (5 : Word).toNat % 8 ≥ 5 ∧ (4 : Word).toNat % 8 < 5 ∧ (8 : Word).toNat % 8 = 0 ∧ (9 : Word).toNat % 8 ≠ 0 ∧
    ((0x010 : BitVec 9) = 0x010 ∨ (0x010 : BitVec 9) = 0x011) := by decide +kernel

/-- Core 0 of the context in halt group 3. -/
def inGroup3 : State :=
  { regs [(12, 8)] with pdies := [(0, { halts := [(3, { mem := [1, 0, 0, 0] })] })] }

theorem wit_ControlRegisterAccess_dstop :
    Executes inGroup3 k0 false (rX 12) noRegs (guardOn · k0) = true ∧
    ((List.range 16).filter fun g => (readX (inGroup3.slot base.cur) 12).getLsbD g) ≠ [] ∧
    (∀ g ∈ (List.range 16).filter fun g => (readX (inGroup3.slot base.cur) 12).getLsbD g,
      g ∈ (inGroup3.issued k0 4 []).haltsOf base.cur.coreRef) ∧ (readX (inGroup3.slot base.cur) 12).toNat < 2 ^ 16 ∧
    (∃ g ∈ (List.range 16).filter fun g => (readX ((regs [(12, 8)]).slot base.cur) 12).getLsbD g,
      g ∉ ((regs [(12, 8)]).issued k0 4 []).haltsOf base.cur.coreRef) ∧
    ((List.range 16).filter fun g => (readX (base.slot base.cur) 12).getLsbD g) = [] := by decide +kernel

/-- Slot 0's view: an entry of the quad's TLB maps the first 64 KiB of the translated space to HBM 0x200000, readable,
writable, executable, dirty, with full-empty bits; another maps the next page for reading only. -/
def mapped (l : List (Spec × Word)) : State :=
  { regs l with quads := [(quadKey ⟨1, 0, 0⟩, { tlb := [⟨2 ^ 28, 16, 0x2000FA, 0⟩, ⟨2 ^ 28 + 1, 16, 0x21000A, 0⟩] })] }

/-- Keys of n bytes of HBM from an offset of that page. -/
def page (off n : Nat) : List Nat := keysFrom (pkey .hbm 0 (0x200000 + off)) n

/-- Where an access of the aperture goes: the register and the byte in it. -/
def apAt (s : State) (off n : Nat) : Option (Reg × Nat) := (apTarget (me s) off n).bind id

/-- The aperture of w5, reached by a load or a store of eight bytes at its own address. -/
def apert : State := regs [(13, 0x30028), (12, 5)]

/-- Does an access of n bytes name something in the aperture that is not busy? -/
def apOpen (s : State) (off n : Nat) : Bool :=
  match apTarget (me s) off n with
  | some tg => !apBusy (me s) tg
  | none => false

/-- The aperture's vector registers, reached at w5. -/
def apertV : State := ramp [(13, 0x31000)]

theorem wit_LoadsAndStoresOfTheAperture :
    allRun apert [.ld k0 10 13 .acq .die 3 false, .ldo k0 10 13 3 0, .st k0 12 13 .rel .die 3 false, .sto k0 12 13 3 0] = true ∧
    acquiring (me apert) = false ∧ (apert.issued k0 4 []).mayRelease base.cur .die = true ∧
    (apert.issued k0 4 [xReg (me apert) 10]).access base.cur 0x30028 8 8 .read = .aperture 0x28 ∧
    (apert.issued k0 4 []).access base.cur 0x30028 8 8 .write = .aperture 0x28 ∧
    (apAt apert 0x28 8).map (fun x => (decide (busy (me apert) x.1 = false), x.2)) = some (true, 0) ∧ apOpen apert 0x28 8 = true ∧
    apOpen apert 0x120 8 = true ∧ apTarget (me apert) 0x120 8 = some none ∧
    (0xF8 % 8 = 0 ∧ 0xF8 < 0x100) ∧ (0x11C % 4 = 0 ∧ 0x11C < 0x120) ∧ (0xFF8 % 8 = 0 ∧ 0xFF8 < 0x1000) ∧ (0x1000 % 128 = 0) ∧
    (∀ m ∈ (me apert).recent, m.2.reg = .v 1 → m.1 + 3 < (me apert).issued) ∧
    ((({ task with recent := [(0, .v 1 0 1)] } : Slot).recent.find? fun m => m.2.reg == .v 1 && decide (task.issued ≤ m.1 + 3)).isSome) = true := by
  decide +kernel

theorem wit_VectorAccessesOfTheAperture :
    allRun apertV [.vld k0 1 13 .acq .die 0 false, .vst k0 2 13 .rel .die 0 true] = true ∧ acquiring (me apertV) = false ∧
    (apertV.issued k0 4 [.v 1]).access base.cur 0x31000 128 128 .read = .aperture 0x1000 ∧
    (apertV.issued k0 4 [xReg (me apertV) 13]).access base.cur 0x31000 128 128 .write = .aperture 0x1000 ∧ apOpen apertV 0x1000 128 = true ∧
    (apertV.issued k0 4 []).mayRelease base.cur .die = true ∧
    allRun (ramp [(13, 0x30000)]) [.vldx k0 1 13 3 .w16, .vstx k0 2 13 3 .w16] = true ∧
    ((List.range 32).filter (laneOn (me apertV) k0)).head? = some 0 ∧
    0x30000 ≤ (readX (me (ramp [(13, 0x30000)])) 13 + BitVec.ofNat 64 ((lane (readV (me (ramp [(13, 0x30000)])) 3) 0).toNat * 2)).toNat ∧
    (readX (me (ramp [(13, 0x30000)])) 13 + BitVec.ofNat 64 ((lane (readV (me (ramp [(13, 0x30000)])) 3) 0).toNat * 2)).toNat < 0x32000 := by
  decide +kernel

theorem wit_LoadsReadTheirBytes :
    allRun (mapped [(13, 0x100000000100)]) [.ld k0 10 13 .acq .die 3 true, .ldo k0 10 13 3 0] = true ∧
    Executes (mapped [(13, 0x100000000100)]) k0 false (rX 13) (rX 10) (guardOn · k0) = true ∧
    Resolves ((mapped [(13, 0x100000000100)]).issued k0 4 [xReg (me base) 10]) base.cur (me (mapped [(13, 0x100000000100)]))
      0x100000000100 8 8 .read (page 0x100 8) = true ∧
    Readable ((mapped [(13, 0x100000000100)]).issued k0 4 [xReg (me base) 10]) base.cur 0x100000000100 (page 0x100 8) = true ∧
    (readX (me (mapped [(13, 0x100000000101)])) 13 + BitVec.ofInt 64 ((0x7F : BitVec 7).toInt * 1)).toNat = 0x100000000100 := by
  decide +kernel

/-- The address of a lane's access: w5 plus the lane's offset in v3, n bytes a unit. -/
def laneEa (s : State) (n i : Nat) : Nat := (readX (me s) 13 + BitVec.ofNat 64 ((lane (readV (me s) 3) i).toNat * n)).toNat

theorem wit_StoresWriteTheirBytes :
    (mapped [(13, 0x100000000100), (12, 5)]).mayRelease base.cur .sys = true ∧
    allRun (mapped [(13, 0x100000000100), (12, 5)]) [.st k0 12 13 .rel .die 3 true, .sto k0 12 13 3 0, .vst k0 2 13 .rel .die 0 false] = true ∧
    Unfenced (ramp [(13, 0x1000000)]) (.vstx k0 2 13 3 .w8) = true ∧
    (let s := mapped [(13, 0x100000000100), (12, 5)];
      let s1 := s.issued k0 4 [];
      Executes s k0 false (rXX 12 13) (fun t => if true then [xReg t 13] else []) (guardOn · k0) = true ∧
      Executes s k0 false (rXX 12 13) noRegs (guardOn · k0) = true ∧
      Resolves s1 base.cur (me s) 0x100000000100 8 8 .write (page 0x100 8) = true ∧
      Writable s1 base.cur 0x100000000100 (addrsFrom 0x100000000100 8) ((page 0x100 8).zip (leBytes 8 5)) = true ∧
      Executes s k0 false (fun t => [.v 2, xReg t 13]) (fun t => if false then [xReg t 13] else []) (anyMoved k0 32) = true ∧
      Resolves s1 base.cur (me s) 0x100000000100 128 128 .write (page 0x100 128) = true ∧
      Writable s1 base.cur 0x100000000100 ((List.range 32).flatMap fun i => addrsFrom (0x100000000100 + 4 * i) 4)
        ((List.range 32).flatMap fun i => ((page 0x100 128).drop (4 * i)).zip (leBytes 4 0)) = true) ∧
    (let s := (ramp [(13, 0x1000000)]).modSlot base.cur fun t => applyWrite t (.p 1 3 (BitVec.allOnes 32));
      let c : Ctl := ⟨0, false, 1⟩;
      let s1 := s.issued c 4 [];
      let l := [(0, [vaultKey ⟨1, 0, 0⟩ 31]), (1, [vaultKey ⟨1, 0, 0⟩ 30])];
      let ps := l.flatMap fun p => p.2.zip (leBytes 1 (lane (readV (me s) 2) p.1).toNat);
      Executes s c false (fun t => [xReg t 13, .v 3, .v 2]) noRegs (anyMoved c 32) = true ∧ acquiring (me s) = false ∧
      l.map Prod.fst = (List.range 32).filter (laneOn (me s) c) ∧
      (∀ p ∈ l, s1.access base.cur (laneEa s 1 p.1) 1 1 .write = .keys p.2) ∧
      barred (me s) base.cur (l.flatMap Prod.snd) = false ∧ (∀ p ∈ l, s1.farWaits (me s) (p.2.getD 0 0) = false) ∧
      lanesPoison s1 (laneEa s 1) l (fun g => s1.hot base.cur g && !coversGranule (ps.map Prod.fst) g) = none ∧
      s1.markWait base.cur (l.flatMap fun p => addrsFrom (laneEa s 1 p.1) 1) = none ∧ s1.sbRoom base.cur ps = true) := by
  decide +kernel

theorem wit_VectorLoadsReadTheirLanes :
    (let s := mapped [(13, 0x100000000100)];
      let s1 := s.issued k0 4 [.v 1];
      Executes s k0 false (rX 13) (fun _ => [.v 1]) (anyMoved k0 32) = true ∧
      Resolves s1 base.cur (me s) 0x100000000100 4 4 .read (page 0x100 4) = true ∧
      Resolves s1 base.cur (me s) 0x100000000100 128 128 .read (page 0x100 128) = true ∧
      poisonTrap s1 0x100000000100 (page 0x100 128) (fun g => s1.hot base.cur g && (page 0x100 128).any fun k => granuleOf k == g) = none ∧
      allRun s [.vld k0 1 13 .acq .die 0 false, .vldx k0 1 13 3 .w32] = true ∧ s1.markWait base.cur (addrsFrom 0x100000000100 128) = none) ∧
    (let s := (ramp [(13, 0x1000000)]).modSlot base.cur fun t => applyWrite t (.p 1 3 (BitVec.allOnes 32));
      let c : Ctl := ⟨0, false, 1⟩;
      let s1 := s.issued c 4 [.v 1];
      let l := [(0, keysFrom (vaultKey ⟨1, 0, 0⟩ 124) 4), (1, keysFrom (vaultKey ⟨1, 0, 0⟩ 120) 4)];
      Executes s c false (fun t => [xReg t 13, .v 3]) (fun _ => [.v 1]) (anyMoved c 32) = true ∧ acquiring (me s) = false ∧
      l.map Prod.fst = (List.range 32).filter (laneOn (me s) c) ∧
      (∀ p ∈ l, s1.access base.cur (laneEa s 4 p.1) 4 4 .read = .keys p.2) ∧
      barred (me s) base.cur (l.flatMap Prod.snd) = false ∧ (∀ p ∈ l, s1.farWaits (me s) (p.2.getD 0 0) = false) ∧ lanesPoison s1 (laneEa s 4) l (s1.hot base.cur) = none ∧
      s1.markWait base.cur (l.flatMap fun p => addrsFrom (laneEa s 4 p.1) 4) = none) ∧
    (31 : Nat) < 32 ∧ ([⟨0, [1], 1⟩, ⟨31, [2], 2⟩] : List LoadPart).Pairwise (fun p q => p.lane ≠ q.lane) ∧
    base.loadWrites base.cur.quadRef (.v 1) [⟨0, [1], 1⟩, ⟨31, [2], 2⟩] (maskOf [0, 31]) false ≠ [] ∧
    base.loadWrites base.cur.quadRef (.v 1) [⟨0, [1, 2, 3, 4], 1⟩] (maskOf [0, 31]) true ≠ [] ∧ 31 ∈ [0, 31] ∧ 1 ∉ [0, 31] := by
  decide +kernel

theorem wit_AlignmentAndTheMap :
    base.cur.core ≠ supCore ∧ 0x7FFF < 0x8000 ∧ (0x8000 ≤ 0xFFFF ∧ 0xFFFF < 0x10000) ∧ (0x10000 ≤ 0x2FFFF ∧ 0x2FFFF < 0x30000) ∧
    (0x30000 ≤ 0x31FFF ∧ 0x31FFF < 0x32000) ∧ (0x32000 ≤ 0xFFFFFF ∧ 0xFFFFFF < 0x1000000) ∧ (0x1000000 ≤ 0x1FFFFFF ∧ 0x1FFFFFF < 0x2000000) ∧
    (0x2000000 ≤ 0x207FFFF ∧ 0x207FFFF < 0x2080000) ∧ (0x2080000 ≤ 0xFFFFFFFF ∧ 0xFFFFFFFF < 2 ^ 32) ∧
    (2 ^ 32 ≤ 0x1FFFFFFFF ∧ 0x1FFFFFFFF < 2 ^ 33) ∧ (2 ^ 33 ≤ 0x207FFFFFF ∧ 0x207FFFFFF < 2 ^ 33 + 2 ^ 27) ∧
    (2 ^ 33 + 2 ^ 27 ≤ 0xFFFFFFFFFFF ∧ 0xFFFFFFFFFFF < 2 ^ 44) ∧ 2 ^ 52 ≤ 2 ^ 52 ∧
    2 ^ 44 ≤ 0x100000010000 ∧ 0x100000010000 < 2 ^ 52 ∧ 0x100000010000 % 8 = 0 ∧ 0x100000010001 % 8 ≠ 0 ∧
    base.tlbOf base.cur.quadRef 0x100000010000 = none ∧
    (mapped []).tlbOf base.cur.quadRef 0x100000010000 = some ⟨2 ^ 28 + 1, 16, 0x21000A, 0⟩ ∧ permits 0x21000A .write = false ∧
    base.access base.cur 0x2000014 4 4 .read = .keys (keysFrom (sharedKey ⟨1, 0, 1⟩ 4) 4) ∧
    (base.shapeOf 1).hasQuad 0 63 = true ∧ (base.shapeOf 1).hasQuad 1 0 = false ∧ (base.shapeOf 1).hasCore 0 255 = true ∧
    (base.shapeOf 1).hasCore 1 0 = false := by decide +kernel

/-- A full word of the mapped page, and w5 its address. -/
def fullWord (full : List Nat) : State := { mapped [(13, 0x100000000100)] with full := full }

theorem wit_FullEmptyOperations :
    (let s := fullWord [pkey .hbm 0 0x200100];
      Executes s k0 false (rX 13) noRegs (guardOn · k0) = true ∧ Executes s k0 false (rXX 13 12) noRegs (guardOn · k0) = true ∧
      poisonTrap (s.issued k0 4 []) 0x100000000100 (page 0x100 4) ((s.issued k0 4 []).hot base.cur) = none ∧
      Executes s k0 false (rX 13) (rX 10) (guardOn · k0) = true ∧ Executes s k0 false (rXX 10 13) (rX 10) (guardOn · k0) = true ∧
      (∀ x ∈ [Access.atomic, .read], Resolves (s.issued k0 4 []) base.cur (me s) 0x100000000100 4 4 x (page 0x100 4) = true) ∧
      (s.issued k0 4 []).carriesFull base.cur 0x100000000100 (pkey .hbm 0 0x200100) = true ∧
      (s.issued k0 4 []).isFull (pkey .hbm 0 0x200100) = true ∧
      (s.issued k0 4 []).noFull base.cur 0x100000000100 = false ∧ (s.issued k0 4 []).noFull base.cur 0x100000000104 = false ∧
      allRun s [.fset k0 13, .fclr k0 13, .stf k0 13 12, .fprobe k0 10 13, .ldf k0 10 13 .acq .die 0 true, .ldf k0 10 13 .plain .core 1 false] = true) ∧
    (let s := fullWord [pkey .hbm 0 0x200100];
      Resolves (s.issued k0 4 []) base.cur (me s) 0x100000000100 8 8 .read (page 0x100 8) = true ∧
      (s.issued k0 4 []).isFull (pkey .hbm 0 0x200104) = false ∧ s.far = false ∧ (s.far = true ∨ (me s).wait = none)) ∧
    (let s : State := { fullWord [pkey .hbm 0 0x200100] with far := true }; s.far = true ∧ (me s).wait = none) ∧
    (let w : Wait := ⟨4, .ldf k0 10 13 .acq .die 0 true, 4, 0, 0, ⟨7, 0x100000000100, 0, 1, 0, pkey .hbm 0 0x200100⟩, []⟩;
      let u := (fullWord [pkey .hbm 0 0x200100]).modSlot base.cur fun t => { t with wait := some w };
      (me u).wait = some w ∧ u.mayGoOn base.cur = true ∧ (∀ i ∈ [w.info.key], u.isFull i = true) ∧ poisoned u (keysFrom w.info.key 4) = none) := by
  decide +kernel

theorem wit_AtomicsExecuteAtTheHome :
    (let s := mapped [(13, 0x100000000100)];
      let s1 := s.issued k0 4 [xReg (me s) 12];
      Executes s k0 false (rXXX 13 12 13) (rX 12) (guardOn · k0) = true ∧ Executes s k0 false (rXX 13 12) (rX 12) (guardOn · k0) = true ∧
      Resolves s1 base.cur (me s) 0x100000000100 4 4 .atomic (page 0x100 4) = true ∧
      poisonTrap s1 0x100000000100 (page 0x100 4) (s1.hot base.cur) = none ∧ keyKind ((page 0x100 4).getD 0 0) ≠ 6 ∧
      allRun s [.amo k0 12 13 .add .acqrel .sys, .amo k0 12 13 .cas .plain .core] = true ∧ s1.mayRelease base.cur .sys = true) := by decide +kernel

/-- The first page of the translated space is a word of package 5; w5 its address. -/
def far : State :=
  { regs [(13, 0x100000000100)] with quads := [(quadKey ⟨1, 0, 0⟩, { tlb := [⟨2 ^ 28, 16, 0x1700000002000FA, 0⟩] })] }

theorem wit_AtomicsExecuteAtTheHome_far :
    (match (far.issued k0 4 [xReg (me far) 12]).access base.cur 0x100000000100 4 4 .atomic with
      | .keys ks => keyKind (ks.getD 0 0) == 6 &&
          Resolves (far.issued k0 4 [xReg (me far) 12]) base.cur (me far) 0x100000000100 4 4 .atomic ks &&
          (poisonTrap (far.issued k0 4 [xReg (me far) 12]) 0x100000000100 ks ((far.issued k0 4 [xReg (me far) 12]).hot base.cur)).isNone &&
          (far.issued k0 4 [xReg (me far) 12]).linkUp && allRun far [.amo k0 12 13 .add .acqrel .sys]
      | _ => false) = true := by decide +kernel

/-- Every link failed, and a store to package 5 is in the store buffer. -/
def noLinks : State :=
  { base with
    links := (List.range 32).map fun l => (l, { works := false }),
    quads := [(512, { sb := [⟨base.cur, pkey .remote 5 64 / 64, [(pkey .remote 5 64, 1)], false, none, []⟩] })] }

/-- A store of the slot to HBM in the buffer. -/
def sbOnly : State := { base with quads := [(512, { sb := [⟨base.cur, pkey .hbm 0 64 / 64, [(pkey .hbm 0 64, 1)], false, none, []⟩] })] }

theorem wit_FencesOrderMemory :
    Executes base k0 false noRegs noRegs (guardOn · k0) = true ∧ linkTrap (base.issued k0 4 []) base.cur .sys = none ∧
    (base.issued k0 4 []).linksHold base.cur .sys = false ∧ quiet (me base) = true ∧ acquiring (me base) = false ∧
    quiet (me (base.modSlot base.cur fun t => { t with flights := [.remote (.ring 2) 5 2 none] })) = false ∧
    acquiring (me (base.modSlot base.cur fun t => { t with flights := [.acquired [] .die] })) = true ∧
    Executes (base.modSlot base.cur fun t => { t with flights := [.acquired [] .die] }) k0 false noRegs noRegs (guardOn · k0) = true ∧
    (∀ e ∈ (sbOnly.quad ⟨1, 0, 0⟩).sb, sbOnly.canLeave e = true) ∧ (sbOnly.quad ⟨1, 0, 0⟩).sb ≠ [] ∧
    Executes (base.modSlot base.cur fun t => { t with flights := [.remote (.ring 2) 5 2 none] }) k0 false noRegs noRegs (guardOn · k0) = true ∧
    quiet (me noLinks) = true ∧ acquiring (me noLinks) = false ∧ Scope.atLeast .pkg 3 = true ∧
    Executes noLinks k0 false noRegs noRegs (guardOn · k0) = true ∧ (linkTrap (noLinks.issued k0 4 []) base.cur .pod).isSome = true := by
  decide +kernel

/-- A fence of all kinds is still to come, with a store of the slot in the buffer. -/
def fenced : State :=
  ({ base with quads := [(512, { sb := [⟨base.cur, pkey .hbm 0 64 / 64, [(pkey .hbm 0 64, 1)], false, none, []⟩] })] } : State).modSlot base.cur
    fun t => { t with fence := some .die, fenceAll := true }

/-- The same with a fence.e still to come instead. -/
def fencedE : State := fenced.modSlot base.cur fun t => { t with fence := none, fenceAll := false, fenceE := some .pkg }

/-- Is an instruction held back by a fence of a state, and does it execute before and after the fence has been performed? -/
def heldBack (s : State) (i : Instr) : Bool :=
  (me s).fenced (touches i) && quiet (me s) && formIs i fun f => f.runs s && f.runs (s.met i)

theorem wit_FencesOrderMemory_pending :
    ([Instr.ld k0 10 13 .plain .core 3 false, .st k0 12 13 .plain .core 3 true, .ldo k0 10 13 3 0, .sto k0 12 13 3 0,
      .vld k0 1 13 .plain .core 0 false, .vst k0 2 13 .plain .core 0 false, .vldx k0 1 13 2 .w32, .vstx k0 1 13 2 .w32,
      .ldf k0 10 13 .plain .core 0 true, .stf k0 13 12, .fset k0 13, .amo k0 12 13 .cas .plain .core, .call k0 32, .ret k0, .racq k0 10 13 12,
      .rtake k0 10 13 12, .rrel k0 13 12, .jpost k0 13 12, .gfork k0 10 13 12, .qdef k0 13 12, .sread k0 13 12, .fdrop k0 12 14].all
        (heldBack fenced)) = true ∧
    ([Instr.jpost k0 13 12, .sread k0 13 12, .swrite k0 13 12, .sflush k0 13 12, .cadv k0 12 13].all (heldBack fencedE)) = true ∧
    (let s := fenced.modSlot base.cur fun t => { t with flights := [.remote (.ring 2) 5 2 none] };
      quiet (me s) = false ∧ (me s).fenced (touches (.st k0 12 13 .plain .core 3 true)) = true ∧
      formIs (.st k0 12 13 .plain .core 3 true) (fun f => f.runs s) = true) := by decide +kernel

/-- w5 the address, v3 the lanes' offsets. -/
theorem wit_StoreFrame :
    base.cur.core ≠ supCore ∧
    (∀ x ∈ (ramp [(13, 0x1000100)]).quads, x.1 / 128 = dieKey 1 0 → ∀ y ∈ x.2.sb, y.out = false) ∧
    (∀ i ∈ [Instr.st k0 12 13 .rel .die 3 true, .sto k0 12 13 3 1, .vst k0 2 13 .plain .core 1 false, .vstx k0 2 13 3 .w16],
      Unfenced (ramp [(13, 0x1000100)]) i = true ∧ isNext (exec i (ramp [(13, 0x1000100)])) = true ∧
        frozenAt base.cur (after i (ramp [(13, 0x1000100)])) = false) := by
  decide +kernel

theorem wit_StoreFrame_inv : (ramp [(13, 0x1000100)]).Inv := by unfold State.Inv; decide +kernel

theorem wit_LoadFrame :
    ∀ i ∈ [Instr.ld k0 12 13 .acq .die 3 true, .ldo k0 12 13 3 1, .vld k0 2 13 .plain .core 1 false, .vldx k0 2 13 3 .w16],
      Unfenced (ramp [(13, 0x1000100)]) i = true ∧ isNext (exec i (ramp [(13, 0x1000100)])) = true ∧
        frozenAt base.cur (after i (ramp [(13, 0x1000100)])) = false := by
  decide +kernel

/-- All forms of lanes: no register busy, a guard with a lane on. -/
theorem wit_VectorIntegerResults :
    Executes base k0 false (fun _ => [.v 2, .v 3]) (fun _ => [.v 1]) (fun t => laneMask t k0 != 0) = true ∧
      Executes base k0 false (fun _ => [.v 2]) (fun _ => [.v 1]) (fun t => laneMask t k0 != 0) = true := by decide +kernel

theorem wit_VectorFloatResults :
    Executes base k0 false (fun _ => [.v 2, .v 3]) (fun _ => [.v 1]) (fun t => laneMask t k0 != 0) = true ∧
      Executes base k0 false (fun _ => [.v 2]) (fun _ => [.v 1]) (fun t => laneMask t k0 != 0) = true ∧
      Executes base k0 false (fun _ => [.v 2, .v 3, .v 1]) (fun _ => [.v 1]) (fun t => laneMask t k0 != 0) = true := by decide +kernel

theorem wit_FloatResultsAreRoundedOnce :
    fp32.isFinite 0x3F800000 = true ∧ fp32.isFinite 0x80000000 = true ∧ fp32.valueAt fp32.places 0x3F800000 + fp32.valueAt fp32.places 1 ≠ 0 ∧
    fp16.valueAt fp16.places 0x3C00 - fp16.valueAt fp16.places 0x3C00 = 0 ∧ bf16.isCode 0x7F80 = true ∧ (bf16.decode 0x7FC0).isNan = true ∧
    0x7F800000 < 2 ^ 32 ∧ (fp32.decode 0x7F800000).isNan = false ∧ 1 < 2 ^ 16 ∧ (fp16.decode 1).isNan = false ∧
      0x8000 < 2 ^ 16 ∧ (bf16.decode 0x8000).isNan = false := by decide +kernel

theorem wit_VectorConversionsComplete :
    Executes base k0 false (fun _ => [.v 2]) (fun _ => [.v 1]) (fun t => laneMask t k0 != 0) = true ∧
      Executes base k0 false (fun _ => [.v 2, .v 3]) (fun _ => [.v 1]) (fun t => laneMask t k0 != 0) = true ∧
      Executes base k0 false (fun _ => [.v 2, .v 1]) (fun _ => [.v 1]) (fun t => laneMask t k0 != 0) = true := by decide +kernel

theorem wit_VectorPermutesAndReductions :
    Executes base k0 false (fun _ => [.v 3]) (fun _ => [.v 1]) (fun t => laneMask t k0 != 0) = true ∧
    Executes base k0 false (rX 12) (fun _ => [.v 1]) (fun t => laneMask t k0 != 0) = true ∧
    Executes base k0 false (fun _ => [.v 2, .v 3]) (fun _ => [.v 1]) (fun t => laneMask t k0 != 0) = true ∧
    Executes base k0 false (fun t => [.v 2, xReg t 12]) (fun _ => [.v 1]) (fun t => laneMask t k0 != 0) = true ∧
    Executes base k0 false noRegs (fun _ => [.v 1]) (fun t => laneMask t k0 != 0) = true ∧
    Executes (regs [(13, 31)]) k0 false (rXX 12 13) (fun _ => [.v 1]) (fun t => laneOn t k0 (bits (readX (me (regs [(13, 31)])) 13) 0 5)) = true ∧
    Executes base k0 false (fun t => [.v 2, xReg t 12]) (rX 10) (guardOn · k0) = true ∧
    Executes base k0 false (fun _ => [.v 2]) (rX 10) (fun _ => !(k0.g == 0 && k0.n)) = true ∧
    Executes (preds 0 0) ⟨0, false, 1⟩ false (fun _ => [.v 2]) (rX 10) (fun _ => true) = true ∧
    ((List.range 32).filter fun j => laneOn (me (preds 0 0)) ⟨0, false, 1⟩ j) = [] ∧
    ((List.range 32).filter fun j => laneOn (me base) k0 j) ≠ [] ∧
    Executes base k0 false (fun _ => [.v 2, .v 3]) (fun _ => [.p 1, .p 2]) (fun t => laneMask t k0 != 0) = true := by decide +kernel

theorem wit_ShortFormsAreTheirCounterparts :
    Executes base ⟨0, false, 0⟩ false (fun _ => [.v 2, .v 3]) (fun _ => [.v 2]) (fun t => laneMask t ⟨0, false, 0⟩ != 0) = true ∧
    Executes base ⟨0, false, 0⟩ false (fun _ => [.v 3]) (fun _ => [.v 2]) (fun t => laneMask t ⟨0, false, 0⟩ != 0) = true ∧
    (0xFFFE : BitVec 16).getLsbD 15 = true := by decide +kernel

theorem wit_ComputeFrame :
    (effectOf (.vcvtB8F32 k0 1 2 0)).isSome = true ∧ isNext (exec (.vcvtB8F32 k0 1 2 0) base) = true ∧
      frozenAt base.cur (after (.vcvtB8F32 k0 1 2 0) base) = false := by decide +kernel

theorem wit_TakingAFault :
    base.cur.ok = true ∧ base.cur.core ≠ supCore ∧ base.sqRoom (base.physDie 1 0) = true ∧ resting (me base) = true ∧
    resting (me (base.modSlot base.cur fun t => { t with flights := [.timed [.ring 2 7] 134] })) = false ∧
    (let s := base.modSlot base.cur fun t => { t with fault := some (0x100000000000, 4, { cls := 1, cause := 1 }) };
      (me s).fault = some (0x100000000000, 4, { cls := 1, cause := 1 }) ∧ resting ((s.atomicsHome base.cur).slot base.cur) = true) ∧
    base.haltsOf base.cur.coreRef = [] ∧
    (⟨0, 3, 256, 3⟩ : SlotRef).ok = true ∧ (⟨0, 3, 256, 3⟩ : SlotRef).core = supCore ∧
    ({ base with pdies := [(0, { sqTail := 4096 })] } : State).sqRoom (base.physDie 1 0) = false := by decide +kernel

theorem wit_TakingAFault_inv : base.Inv := by unfold State.Inv; decide +kernel

theorem wit_PacketsAndTheDebugWindow_packet : 255 < 256 ∧ 3 < 4 ∧ 7 < 8 ∧ 65535 < 65536 := by decide

/-- The small state with a location graph: edge 0 goes from location 0 to 1 and keeps the time; the frontier of location 1
as given. -/
def located (f : Time) (l : List (Spec × Word)) : State :=
  { regs l with
    ctxs := [(1, { exist := true, loaded := true, nloc := 2, resident := some 0, shape := some (.rect 8 8), edges := [⟨0, 1, 0, 0, 0⟩] })],
    dies := [(dieKey 1 0, { f := [(1, f)] })] }

/-- A core mailbox of class 0 with one message in entry 0. -/
def mailed (dev : Bool) : State :=
  { located 0 [(12, 4)] with
    boxes := [(boxKey ⟨1, 0, 0⟩ 16, { tags := [(0, { st := 1, time := 7, src := if dev then 0x40000000000 else 0x10, loc := 1, counted := true })] })] }

theorem wit_MessageInstructions :
    (let s := located 0 [(12, 0x40000000 + 2 * 8 + 4)];
      let s1 := s.issued k0 4 [];
      Executes s k0 false (fun t => [.v 2, xReg t 12, xReg t 13]) noRegs (guardOn · k0) = true ∧
      s1.edge 1 (bits (readX (me s) 12) 32 10) = some ⟨0, 1, 0, 0, 0⟩ ∧ (⟨0, 1, 0, 0, 0⟩ : Edge).src = (me s).loc ∧
      bits (readX (me s) 12) 42 22 = 0 ∧ (me s).send.length < 4 ∧
      s1.countBlocked ⟨1, 0, 0⟩ 1 ((⟨0, 1, 0, 0, 0⟩ : Edge).apply (me s).time) = false ∧
      s1.mayRelease base.cur .pkg = true ∧ s1.mayRelease base.cur (s1.mcastScope base.cur (bits (readX (me s) 12) 0 10)) = true ∧
      (s1.shapeOf 1).hasCore (bits (readX (me s) 12) 11 2) (bits (readX (me s) 12) 3 8) = true ∧ s1.inPod (bits (readX (me s) 12) 13 9) = true) ∧
    bits (readX (me (located 0 [(12, 5)])) 12) 10 20 = 0 ∧
    (let s := mailed false;
      let s1 := s.issued k0 4 [.v 2];
      Executes s k0 false (rXX 12 13) (fun _ => [.v 2]) (guardOn · k0) = true ∧ bits (readX (me s) 12) 3 61 = 0 ∧
      (s1.box ⟨1, 0, 0⟩ 16).mode = 0 ∧
      (s1.box ⟨1, 0, 0⟩ 16).oldest = some (0, { st := 1, time := 7, src := 0x10, loc := 1, counted := true }) ∧
      (entryTrap s1 ⟨1, 0, 0⟩ 16 0).isNone = true ∧ (true && s1.countBlocked ⟨1, 0, 0⟩ 1 7) = false) ∧
    isDev 0x40000000000 = true ∧ isDev 0x10 = false ∧
    (let s := located 0 [(12, 12)];
      let s1 := s.issued k0 4 [xReg (me s) 10];
      Executes s k0 false (rXX 12 13) (rX 10) (guardOn · k0) = true ∧ bits (readX (me s) 12) 4 60 = 0 ∧
      (s1.box ⟨1, 0, 0⟩ 16).oldest = none ∧ (readX (me s) 12).getLsbD 3 = true) ∧
    (let s := located 0 [(12, 4 + 8), (13, 0x100000000100)];
      Executes s k0 false (rXX 12 13) noRegs (guardOn · k0) = true ∧ (readX (me s) 12).getLsbD 2 = true ∧ bits (readX (me s) 12) 3 2 = 1 ∧
      bits (readX (me s) 12) 5 59 = 0 ∧ readX (me s) 13 ≠ 0 ∧ (readX (me s) 13).getLsbD 0 = false) := by decide +kernel

/-- w4 a location, w6 and w7 a time. -/
theorem wit_HoldsAndFrontierReads :
    (let s := located 0 [(12, 1), (14, 1)];
      let s1 := s.issued k0 4 [];
      Executes s k0 false (rLocTime 12 14) noRegs (guardOn · k0) = true ∧
      Executes s k0 false (fun t => xReg t 10 :: rLocTime 12 14 t) noRegs (guardOn · k0) = true ∧
      Executes s k0 false (rX 12) (rPair 10) (guardOn · k0) = true ∧
      bits (readX (me s) 12) 0 8 < (s.ctx 1).nloc ∧ bits (readX (me s) 12) 8 56 = 0 ∧ Unfenced s (.fdrop k0 12 14) = true ∧
      settled (me s) = true ∧ s1.reaches 1 (me s).loc (me s).time 1 (readTime (me s) 14) = true ∧ s1.countBlocked ⟨1, 0, 0⟩ 1 (readTime (me s) 14) = false ∧
      ¬ readTime (me s) 14 < s.frontierAt 1 0 1) ∧
    (let s := located Time.never [(12, 1)];
      (s.issued k0 4 []).reaches 1 (me s).loc (me s).time 1 (readTime (me s) 14) = false ∧ readTime (me s) 14 < s.frontierAt 1 0 1) ∧
    (let s := located 0 [(12, 2)]; (s.ctx 1).nloc ≤ bits (readX (me s) 12) 0 8) := by decide +kernel

/-- The slot has arrived at quad barrier 0 of the phase before. -/
def arrivedBefore : State :=
  (located 0 [(13, 0x10)]).modSlot base.cur fun t => { t with bars := [(Scope.quad.bits.toNat * 4 + 0, true)] }

theorem wit_BarriersAndInvalidations :
    (let s := located 0 [(13, 0x10), (12, 9)];
      Executes s k0 false (rXX 12 13) noRegs (guardOn · k0) = true ∧ (readX (me s) 13).getLsbD (4 + 0) = true ∧ bits (readX (me s) 13) 2 2 = 0 ∧
      bits (readX (me s) 13) 8 56 = 0 ∧ mfind (Scope.quad.bits.toNat * 4 + 0) (me s).bars = none ∧
      (s.issued k0 4 []).mayRelease base.cur .quad = true ∧ Executes s k0 false (rX 13) noRegs (guardOn · k0) = true ∧
      maskClash base.cur (mget {} (barKey .quad (barUnit base.cur .quad) 0) ((s.issued k0 4 []).ctx 1).bars) (readX (me s) 13) = false) ∧
    (mfind (Scope.quad.bits.toNat * 4 + 0) (me arrivedBefore).bars = some true ∧
      true ≠ (mget ({} : BarInst) (barKey .quad (barUnit base.cur .quad) 0) ((arrivedBefore.issued k0 4 []).ctx 1).bars).parity ∧
      Executes arrivedBefore k0 false (rXX 12 13) noRegs (guardOn · k0) = true) ∧
    (readX (me base) 13).getLsbD (4 + 0) = false ∧
    (let s := located 0 [(12, 0x100000000000), (13, 0x10001)];
      Executes s k0 false (rXX 12 13) noRegs (guardOn · k0) = true ∧ (readX (me s) 12).toNat % 65536 = 0 ∧
      bits (readX (me s) 13) 16 48 * 65536 ≠ 0 ∧ (readX (me s) 12).toNat + bits (readX (me s) 13) 16 48 * 65536 ≤ 2 ^ 52 ∧
      bits (readX (me s) 13) 0 16 = bits (s.ctlReg base.cur 1) 0 16 ∧ base.cur.core ≠ supCore ∧ bits (0x10002 : Word) 0 16 ≠ bits (s.ctlReg base.cur 1) 0 16) ∧
    Executes base k0 false (rX 12) noRegs (guardOn · k0) = true ∧ (me base).inv = 0 ∧
    (me (base.modSlot base.cur fun t => { t with inv := 2 })).inv ≠ 0 := by decide +kernel

/-- A ring of two entries of 128 bytes in the vault: anext, tnext, fnext, the state of entry 0, closed. w5 holds its
address, w6 an entry number. -/
def ringed (anext tnext fnext st : Nat) (closed : Bool) (n : Word) : State :=
  let k := vaultKey ⟨1, 0, 0⟩ 0x1000
  let m := memWrite (memWrite (memWrite [] k 8 anext) (k + 8) 8 tnext) (k + 16) 8 fnext
  { regs [(13, 0x1001000), (14, n)] with
    mem := memWrite (memWrite (memWrite (memWrite m (k + 24) 4 2) (k + 28) 4 128) (k + 32) 1 (if closed then 1 else 0)) (k + 64) 1 st }

/-- The lines that a ring operation orders. -/
def ringLines : List Nat := (List.range 66).map fun i => lineOf (vaultKey ⟨1, 0, 0⟩ 0x1000) + i

/-- Is the operation on the ring, with its view as given? -/
def onRingOf (s : State) (ws : List Reg) (anext tnext fnext : Nat) (closed : Bool) : Bool :=
  let s1 := s.issued k0 4 ws
  let u := (s1.sampleLines base.cur ringLines).drainLines base.cur.quadRef ringLines
  let k := vaultKey ⟨1, 0, 0⟩ 0x1000
  !acquiring (me s) && decide (s1.access base.cur 0x1001000 128 128 .atomic = .keys (keysFrom k 128)) && ringPlace k &&
    decide (region false 0x1001000 ≠ .trans) && (match region false 0x1001000 with
      | .inter _ => false
      | _ => true) && (poisonTrap u 0x1001000 (keysFrom k 64) fun _ => true).isNone &&
    (poisonTrap u 0x1001040 (keysFrom (k + 64) 2) fun _ => true).isNone &&
    ([Instr.racq k0 10 13 14, .rtake k0 10 13 14, .rpub k0 true 13 14, .rrel k0 13 14, .rstat k0 10 13 0].all (Unfenced s)) &&
    u.mayRelease base.cur (ringScope base.cur k) &&
    match u.ringAt k with
    | some g => g.k == k && g.anext == anext && g.tnext == tnext && g.fnext == fnext && g.slots == 2 && g.bytes == 128 && g.closed == closed
    | none => false

theorem wit_StageRingOperations :
    Executes (ringed 0 0 0 0 false 0) k0 false (rXX 13 14) (rPair 10) (guardOn · k0) = true ∧
    onRingOf (ringed 0 0 0 0 false 0) [xReg (me base) 10, xReg (me base) 11] 0 0 0 false = true ∧ 0 - 0 ≠ 2 ∧
    onRingOf (ringed 1 0 0 2 false 0) [xReg (me base) 10, xReg (me base) 11] 1 0 0 false = true ∧ 0 ≠ 1 ∧
    memGet (vaultKey ⟨1, 0, 0⟩ 0x1000 + 64) (ringed 1 0 0 2 false 0).mem = 2 ∧
    onRingOf (ringed 1 1 0 3 true 0) [xReg (me base) 10, xReg (me base) 11] 1 1 0 true = true ∧
    Executes (ringed 1 0 0 1 false 0) k0 false (rXX 13 14) noRegs (guardOn · k0) = true ∧
    onRingOf (ringed 1 0 0 1 false 0) [] 1 0 0 false = true ∧ (readX (me (ringed 1 0 0 1 false 0)) 14).toNat = 0 ∧ 0 < 1 ∧
    onRingOf (ringed 1 1 0 3 false 0) [] 1 1 0 false = true ∧
    Executes (ringed 0 0 0 0 false 0) k0 false (rX 13) (rPair 10) (guardOn · k0) = true := by decide +kernel

/-- What the ring operations then do (06 R138). -/
theorem test_stage_ring :
    readX (done (.racq k0 10 13 14) (ringed 0 0 0 0 false 0)) 11 = 0x1001080 ∧
    (after (.racq k0 10 13 14) (ringed 0 0 0 0 false 0)).loadLE (vaultKey ⟨1, 0, 0⟩ 0x1000) 8 = 1 ∧
    readX (done (.rtake k0 10 13 14) (ringed 1 1 0 3 true 0)) 10 = 0xFFFFFFFFFFFFFFFF ∧
    memGet (vaultKey ⟨1, 0, 0⟩ 0x1000 + 64) (after (.rpub k0 true 13 14) (ringed 1 0 0 1 false 0)).mem = 2 ∧
    (after (.rrel k0 13 14) (ringed 1 1 0 3 false 0)).loadLE (vaultKey ⟨1, 0, 0⟩ 0x1010) 8 = 1 := by decide +kernel

/-- Bytes of a record at a key: offset, length and value of each field. -/
def record (k : Nat) (l : List (Nat × Nat × Nat)) : List Host.Cell := l.foldl (fun m x => memWrite m (k + x.1) x.2.1 x.2.2) []

/-- A shadow set for a dense FP16 tile of 32 × 1 from the vault: every command kind is in range. -/
def shadow : Map Word :=
  [(0, 0x1000000), (1, 0x2000010001), (2, 0x111111), (3, 1), (4, 0x20), (6, 0x1000000), (7, 0x20), (8, 0x10020), (10, 0x1000000)]

/-- The small state with that shadow set and n commands of another slot in the array's queue. -/
def matrix (n : Nat) (l : List (Spec × Word)) : State :=
  ({ regs l with quads := [(512, { arr := { queue := List.replicate n ⟨9, ⟨1, 0, 0, 3⟩, 0, false, 1, false, 0, 0, [], 0, 0, 0, 0, 0⟩ } })] } : State).modSlot
    base.cur fun t => { t with mc := shadow }

theorem wit_MatrixCommands :
    (let s := matrix 0 [];
      Executes s k0 false (rX 12) noRegs (guardOn · k0) = true ∧ readX (me s) 12 = 0 ∧ (5 : BitVec 9).toNat < 11 ∧
      (∀ k ∈ [0, 1, 2, 4, 5, 6], mcTrap (handOver base.cur) (copyMc base.cur (me s)) k = none) ∧
      ((s.issued k0 4 []).arr ⟨1, 0, 0⟩).occ < 8 ∧ ((s.issued k0 4 []).arr ⟨1, 0, 0⟩).mine base.cur (me s).gen false = 0 ∧
      (s.issued k0 4 []).mayRelease base.cur .die = true ∧
      nextFail (me s) ⟨1, 0, 0⟩ false = none ∧ bits (readX (me s) 12) 16 48 = 0 ∧ (s.issued k0 4 []).tokenMode ⟨1, 0, 0⟩ = false ∧
      ((({ s with pwrcfg := 0xC8081 } : State).issued k0 4 []).tokenMode ⟨1, 0, 0⟩) = true) ∧
    8 ≤ (((matrix 8 []).issued k0 4 []).arr ⟨1, 0, 0⟩).occ ∧
    (((matrix 8 []).issued k0 4 []).arr ⟨1, 0, 0⟩).mine ⟨1, 0, 0, 3⟩ 0 false ≠ 0 ∧
    Executes ({ matrix 8 [] with cur := ⟨1, 0, 0, 3⟩ } : State) k0 false (rX 12) noRegs (guardOn · k0) = true ∧
    (let s := matrix 0 [(12, 0x103), (13, 0x801)];
      Executes s k0 false (rXX 12 13) noRegs (guardOn · k0) = true ∧ Executes s k0 false (rXXX 10 12 13) noRegs (guardOn · k0) = true ∧
      shapeOk ((readX (me s) 13).setWidth 32) = true ∧ bits (readX (me s) 12) 9 55 = 0 ∧ bits (readX (me s) 13) 32 32 = 0) ∧
    (let s := matrix 0 [(12, 1), (14, 3)];
      Executes s k0 false (fun t => [xReg t 10, xReg t 12, xReg t 13, xReg t 14]) noRegs (guardOn · k0) = true ∧ (me s).reply = none ∧
      mcTrap (handOver base.cur) (copyMc base.cur (me s)) (bits (readX (me s) 12) 8 4) = none ∧
      (s.issued k0 4 []).mayRelease base.cur .die = true ∧ bits (readX (me s) 12) 8 4 ≤ 6 ∧ bits (readX (me s) 12) 8 4 ≠ 4 ∧ bits (readX (me s) 12) 8 4 ≠ 3 ∧
      ((s.issued k0 4 []).shapeOf 1).hasQuad (bits (readX (me s) 12) 6 2) (bits (readX (me s) 12) 0 6) = true ∧
      bits (readX (me s) 12) 21 43 = 0 ∧
      (me (s.modSlot base.cur fun t => { t with reply := some (4, 0) })).reply = some (4, 0) ∧
      Executes s k0 false noRegs (rX 10) (guardOn · k0) = true) := by decide +kernel

/-- Queue 4 of die 0 belongs to the context; w5 points at a card of three records of 32 bytes, for location 1 at time 9. -/
def posting : State :=
  { located 0 [(13, 0x1002000)] with
    mem := record (vaultKey ⟨1, 0, 0⟩ 0x2000)
      [(0, 8, 0x100000000000), (8, 8, 0x100000001000), (16, 4, 32), (20, 4, 3), (24, 2, 1), (26, 2, 4), (28, 4, 8), (32, 16, 9),
       (48, 2, 1), (50, 1, 1), (52, 2, 256)],
    pdies := [(0, { jobs := [(4, { ctx := 1, tickets := 1024, depth := 4 })] })] }

/-- Is the card that w5 points at posted as it stands? -/
def cardReads (s : State) : Bool :=
  let s1 := s.issued k0 4 []
  match s1.readCard 1 (taskPoster base.cur (me s) s1 13) (addrM (me s) 13) with
  | .ok p => p.rsv.isNone && s1.reaches 1 (me s).loc (me s).time p.card.loc p.card.time &&
      !(mget {} p.card.queue (s1.pdie (s1.physDie 1 0)).jobs).full && !s1.countBlocked ⟨1, 0, 0⟩ p.card.loc p.card.time && p.card.count == 3
  | .error _ => false

/-- w5 points at the descriptor of a group of two. -/
def forking : State :=
  { regs [(13, 0x1002000)] with
    mem := record (vaultKey ⟨1, 0, 0⟩ 0x2000) [(0, 8, 0x1003000), (8, 8, 1000), (16, 4, 0x3F800000), (20, 1, 2), (21, 1, 2)] }

/-- What a record reads as, none where the read ends the instruction. -/
def recVal (x : Rec) : Option Nat :=
  match x with
  | .val n => some n
  | .stop _ => none

/-- An open record of a group of two of die 0. -/
def group2 : GroupRec :=
  ⟨0, 0, 0, 0, 2, 2, 0, 0, 0, 0, 0, [], [], 0, 0, 0, 0, 0, 0, 0, base.cur, false⟩

/-- The slot is sibling 1 of group 7. -/
def sibling (y : GroupRec) (l : List (Spec × Word)) : State :=
  ({ regs l with dies := [(dieKey 1 0, { groups := [(7, y)] })] } : State).modSlot base.cur fun t => { t with grp := some (7, 1) }

theorem wit_TasksCardsAndGroups :
    Executes base k0 true noRegs noRegs (guardOn · k0) = true ∧ (me base).flights = [] ∧
    ((base.issued k0 4 []).endCount base.cur (me base)).isSome = true ∧
    (((base.issued k0 4 []).endCount base.cur (me base)).any fun x => (base.issued k0 4 []).countBlocked ⟨1, 0, 0⟩ x.1 x.2) = false ∧
    (base.issued k0 4 []).mayRelease base.cur .pkg = true ∧ Unfenced posting (.jpost k0 13 12) = true ∧ Unfenced forking (.gfork k0 10 13 12) = true ∧
    Executes posting k0 false (rXX 13 12) noRegs (guardOn · k0) = true ∧ cardReads posting = true ∧
    (let sd := forking.issued k0 4 [xReg (me forking) 10];
      Executes forking k0 false (fun t => rXX 13 12 t ++ (List.range 8).map fun i => xReg t (BitVec.ofNat 5 (8 + i))) (rX 10) (guardOn · k0) = true ∧
      (me forking).grp = none ∧
      (match recVal (taskRec base.cur (me forking) sd 13 (addrM (me forking) 13) 64 64) with
        | some v => !groupBad base.cur v && fld v 20 1 == 2
        | none => false) = true ∧
      sd.freeRecord 1 0 = some 0 ∧ 2 - 1 ≤ (sd.quad ⟨1, 0, 0⟩).ringFree ∧
      sd.countBlocked ⟨1, 0, 0⟩ (me forking).loc (me forking).time = false) ∧
    (let s := sibling group2 [(12, 1)];
      (me s).grp = some (7, 1) ∧ Executes s k0 false (rX 12) noRegs (guardOn · k0) = true ∧
      mfind 7 ((s.issued k0 4 []).die 1 0).groups = some group2 ∧ group2.posted.getLsbD 1 = false ∧
      bits (readX (me s) 12) 0 6 < group2.gsize ∧ group2.isOpen = true ∧ group2.settled = false ∧
      (s.issued k0 4 []).mayRelease base.cur .die = true ∧ Executes s k0 false (rX 12) (rX 10) (guardOn · k0) = true ∧
      mfind 7 ((s.issued k0 4 [xReg (me s) 10]).die 1 0).groups = some group2) ∧
    ({ group2 with posted := 2 } : GroupRec).posted.getLsbD 1 = true ∧ ({ group2 with posted := 2 } : GroupRec).isOpen = true ∧
    (let s := sibling { group2 with posted := 2 } [(12, 2)];
      mfind 7 ((s.issued k0 4 []).die 1 0).groups = some { group2 with posted := 2 } ∧ Executes s k0 false (rX 12) noRegs (guardOn · k0) = true ∧
      group2.gsize ≤ bits (readX (me s) 12) 0 6) ∧
    ({ group2 with posted := 2, status := 1 } : GroupRec).isOpen = false ∧ ({ group2 with settled := true } : GroupRec).settled = true ∧
    ((sibling { group2 with posted := 2, status := 1 } [(12, 1)]).issued k0 4 []).dies = [(dieKey 1 0, { groups := [(7, { group2 with posted := 2, status := 1 })] })] := by
  decide +kernel

/-- A layout of 128 FP32 words in HBM and an entry of channel 0 that copies them to the vault at stage 1. -/
def lay0 : Layout := ⟨0x100000000000, [128, 1, 1, 1, 1], [4, 4, 4, 4], 2, 1, 0, 0⟩
def ent0 : CEnt := ⟨lay0, [0, 0, 0, 0, 0], [32, 1, 1, 1, 1], 1, 0x100000000, 0, 0, 0, 0, []⟩
/-- A schedule of two such entries, those of a list complete. -/
def sched0 (complete : List Nat) : Sched := ⟨[ent0, ent0], [], complete, 5, base.cur, 0, 0, 0⟩

/-- Channel 0 of die 0 holds that schedule. -/
def copying (complete : List Nat) (l : List (Spec × Word)) : State :=
  { regs l with dies := [(dieKey 1 0, { scheds := [(5, sched0 complete)], chans := [(0, { queue := [5] })] })] }

/-- w5 points at a storage request of one block of drive 0. -/
def requesting (n : Nat) : State :=
  { regs [(13, 0x1002000)] with
    mem := record (vaultKey ⟨1, 0, 0⟩ 0x2000) [(0, 8, 0x1004000), (8, 8, 77), (16, 4, 1), (24, 8, 0x1003000)],
    pdies := [(0, { femark := [(0, true)], silt := List.replicate n ⟨1, none, 0, 0, 0, 1, 0, 0, 0, 1, base.cur, 0, 0, 0, none, 0, 0, 0, 0, false, false⟩ })] }

theorem wit_CopyAndStorageInstructions :
    Executes base k0 false (rX 12) (rX 10) (guardOn · k0) = true ∧ (base.issued k0 4 [xReg (me base) 10]).oldestSched 1 0 0 = none ∧
    (let s := copying [] [(13, 3)];
      Executes s k0 false (rX 12) (rX 10) (guardOn · k0) = true ∧
      (s.issued k0 4 [xReg (me s) 10]).oldestSched 1 0 0 = some (5, sched0 []) ∧ bits (readX (me s) 12) 7 57 = 0 ∧
      Executes s k0 false (rXX 12 13) noRegs (guardOn · k0) = true ∧ (s.issued k0 4 []).oldestSched 1 0 0 = some (5, sched0 []) ∧
      bits (readX (me s) 13) 16 48 = 0 ∧ (readX (me s) 12).getLsbD 7 = false ∧ bits (readX (me s) 12) 14 50 = 0 ∧ (me s).wait = none ∧
      bits (readX (me s) 12) 8 6 < (sched0 []).entries.length ∧ mfind 5 ((s.issued k0 4 []).die 1 0).scheds = some (sched0 [])) ∧
    (sched0 [0]).done.contains 0 = true ∧ (sched0 []).done.contains 0 = false ∧
    Unfenced (copying [] [(13, 3)]) (.cadv k0 12 13) = true ∧ Unfenced base (.cadv k0 12 13) = true ∧
    (∀ n ∈ [0, 256], allRun (requesting n) [.sread k0 13 12, .swrite k0 13 12, .sflush k0 13 12] = true ∧ Executes (requesting n) k0 false (rXX 13 12) noRegs (guardOn · k0) = true ∧
      (match recVal (taskRec base.cur (me (requesting n)) ((requesting n).issued k0 4 []) 13 (addrM (me (requesting n)) 13) 32 32) with
        | some v => fld v 21 1 / 2 == 0 && fld v 22 2 == 0 && fld v 20 1 % 4 == 0 && !siltBad 0 v base.cur && !siltBad 1 v base.cur && !siltBad 2 v base.cur &&
          ((requesting n).issued k0 4 []).cwOk base.cur (fld v 24 8)
        | none => false) = true) ∧
    (((requesting 0).issued k0 4 []).pdie 0).siltQ 0 = [] ∧ ¬ ((((requesting 256).issued k0 4 []).pdie 0).siltQ 0).length < 256 := by
  decide +kernel

/-- w5 points at an entry of a variable (quantum 1.0), w6 names edge 0 and variable 2. -/
def xvars (u : Option XUnit) (edges : List Edge) : State :=
  { located 0 [(13, 0x1002000), (12, 2)] with
    ctxs := [(1, { exist := true, loaded := true, nloc := 2, resident := some 0, shape := some (.rect 8 8), edges := edges })],
    mem := record (vaultKey ⟨1, 0, 0⟩ 0x2000) [(8, 4, 0x3F800000), (12, 4, 0x3F800000), (26, 1, 1)],
    cores := [(coreKey ⟨1, 0, 0⟩, { xunit := u })] }

theorem wit_CrossingUnitInstructions :
    (let s := xvars none [⟨0, 1, 0, 0, 0⟩];
      Executes s k0 false (rXX 13 12) noRegs (guardOn · k0) = true ∧
      (match recVal (taskRec base.cur (me s) (s.issued k0 4 []) 13 (addrM (me s) 13) 32 32) with
        | some n => !xentBad (XEnt.ofNat n) && decide ((XEnt.ofNat n).flags < 16) && fld n 30 2 == 0
        | none => false) = true ∧
      bits (readX (me s) 12) 22 42 = 0 ∧ (s.issued k0 4 []).edge 1 (bits (readX (me s) 12) 10 10) = some ⟨0, 1, 0, 0, 0⟩ ∧
      (me s).loc = 0 ∧ Unfenced s (.qdef k0 13 12) = true ∧ ((s.issued k0 4 []).core ⟨1, 0, 0⟩).xunit = none ∧
      (s.issued k0 4 []).reaches 1 0 (me s).time 0 (⟨1, 0, true⟩ : XVar).time = true ∧
      (s.issued k0 4 []).reaches 1 0 (me s).time 0 (⟨0, 0, true⟩ : XVar).time = false ∧
      (s.issued k0 4 []).moveBlocked ⟨1, 0, 0⟩ { (⟨0, 0, [], none, []⟩ : XUnit) with vars := [(2, ⟨1, 0, true⟩)] } = false) ∧
    (let s := xvars (some ⟨1, 0, [], none, []⟩) [⟨0, 1, 0, 0, 0⟩];
      (1 : Nat) ≠ bits (readX (me s) 12) 10 10 ∧ (s.issued k0 4 []).unitBusy ⟨1, 0, 0⟩ = false ∧
      (({ s with mem := memWrite s.mem (varKey ⟨1, 0, 0⟩ 2 + 26) 1 1 } : State).issued k0 4 []).unitBusy ⟨1, 0, 0⟩ = true) ∧
    (let s := xvars (some ⟨0, 0, [], none, []⟩) [⟨0, 1, 0, 0, 0⟩];
      ((s.issued k0 4 []).core ⟨1, 0, 0⟩).xunit = some ⟨0, 0, [], none, []⟩ ∧ 0 = bits (readX (me s) 12) 10 10 ∧ 0 = bits (readX (me s) 12) 20 2 ∧
      Executes s k0 false (rXX 12 13) noRegs (guardOn · k0) = true ∧
      poisonTrap (s.issued k0 4 []) (0x1C000 + 32 * 2) (keysFrom (varKey ⟨1, 0, 0⟩ 2) 32) (fun _ => true) = none ∧
      (s.issued k0 4 []).varRsv ⟨1, 0, 0⟩ 2 = false ∧
      ((s.issued k0 4 []).var ⟨1, 0, 0⟩ 2).tlast ≤ (me s).time.extractLsb' 64 64 ∧
      Executes s k0 false (rX 12) (rPair 10) (guardOn · k0) = true ∧ bits (readX (me s) 12) 29 35 = 0 ∧
      ((s.issued k0 4 []).shapeOf 1).hasCore (bits (readX (me s) 12) 18 2) (bits (readX (me s) 12) 10 8) = true ∧
      bits (readX (me s) 12) 20 9 = s.pkg ∧
      poisonTrap (s.issued k0 4 [xReg (me s) 10, xReg (me s) 11]) (0x20000C000 + 32 * 2) (keysFrom (varKey ⟨1, 0, 0⟩ 2) 32) (fun _ => true) = none) ∧
    posFinite 0x3F800000 = true ∧ posFinite 0 = false ∧
    (let s : State := { located 0 [(12, 9), (13, 0x1002001), (10, 0x1003000)] with pdies := [(0, { femark := [(0, true)] })] };
      Executes s k0 false (rXXX 10 12 13) noRegs (guardOn · k0) = true ∧
      (handOver base.cur ((readX (me s) 13).toNat / 256 * 256)).isSome = true ∧ (handOver base.cur (readX (me s) 10).toNat).isSome = true ∧
      (s.issued k0 4 []).cwOk base.cur (readX (me s) 10).toNat = true ∧
      bits (readX (me s) 13) 0 8 < ((s.issued k0 4 []).ctx 1).nloc ∧ (readX (me s) 10).toNat % 4 = 0 ∧
      (s.issued k0 4 []).reaches 1 (me s).loc (me s).time 1 (readX (me s) 12 ++ BitVec.allOnes 64) = true ∧
      (s.issued k0 4 []).countBlocked ⟨1, 0, 0⟩ 1 (readX (me s) 12 ++ BitVec.allOnes 64) = false) := by decide +kernel

/-- A card of three records of 32 bytes for quad 0, number 3. -/
def card0 : Card :=
  ⟨[], [], 0, 0x100000000000, 0x100000001000, 32, 3, 1, 4, 8, 9, 1, 1, 256, 0, 0, [(0, 0)], none, none, 0, 0, 3, false⟩

/-- The small state with quad 0 and the context changed. -/
def withQuad (q : Quad) (c : Ctx) : State :=
  { base with
    quads := [(512, q)],
    ctxs := [(1, { c with exist := true, loaded := true, nloc := 2, resident := some 0, shape := some (.rect 8 8), edges := [⟨0, 1, 0, 0, 0⟩] })] }

/-- Core 0 serves stage 0 of a pipeline of card 3. -/
def pipe0 : Pipe := ⟨3, 0, 5, 0, [⟨0x100000002000, 0x100000000400, 0, 4, 1, false⟩], [(0, 0)], [], 0⟩

/-- A handler mailbox of class 1 with a message. -/
def handling : State :=
  { base with boxes := [(boxKey ⟨1, 0, 0⟩ 17, { mode := 1, entry := 0x100000000800, tags := [(0, { st := 1, time := 7, loc := 1 })] })] }

/-- Queue 4 of die 0 with the card at its head. -/
def dealing : State :=
  { withQuad {} { cards := [(3, card0)] } with
    pdies := [(0, { jobs := [(4, { ctx := 1, tickets := 1024, depth := 4, cards := [3], posted := 1 })] })] }

/-- A shipment of one record from quad 0 to quad 1 in a state of its travel. -/
def shipped (st : Nat) : State :=
  withQuad { ring := [.reserved 6, .record 3 1] } { cards := [(3, card0)], ships := [(6, ⟨0, 0, 1, [.record 3 0], st⟩)] }

/-- Sixteen records in quad 0, a period after the last levelling. -/
def level16 : State := { withQuad { ring := (List.range 16).map fun i => .record 3 i } {} with now := 8192 }

theorem wit_BindingAndDealingEvents :
    (let s := withQuad { ring := [.record 3 1] } { cards := [(3, card0)] };
      s.nextBind ⟨1, 0, 0⟩ = some (0, .record 3 1, ⟨1, 0, 0, 1⟩) ∧ mfind 3 (s.ctx 1).cards = some card0) ∧
    (me (base.modSlot base.cur fun t => { t with zero := some 0x7E00 })).zero = some 0x7E00 ∧
    handling.canBind ⟨1, 0, 0, 1⟩ = true ∧
    (1 : Nat) < 4 ∧
    handling.startable ⟨1, 0, 0⟩ (16 + 1) = some 0 ∧
    (∀ j < 1, handling.startable ⟨1, 0, 0⟩ (16 + j) = none) ∧
    (let s := withQuad { pipe := some pipe0 } {};
      s.canBind ⟨1, 0, 0, 1⟩ = true ∧ s.hasStage ⟨1, 0, 0⟩ = false ∧ s.stageOf ⟨1, 0, 0⟩ = some (pipe0, 0) ∧
      mfind (posOf 0) pipe0.moves = none ∧ (pipe0.stages[0]?.map Stage.closed) = some false) := by decide +kernel

theorem wit_BindingAndDealingEvents_dealing :
    dealing.dealtNow 0 < 2 ∧
    (let s1 := dealing.refreshQueues 0;
      (match (s1.pdie 0).choose with
        | some (q, j) => q == 4 && s1.headCard j == some (3, card0) && s1.roomiest j.ctx card0.quads == some (0, 0)
        | none => false) = true ∧ card0.flags.getLsbD 1 = false) ∧
    (let s := withQuad { requeue := [77], ring := [.record 3 0] } {};
      s.enginesUp 1 = true ∧ (s.quad ⟨1, 0, 0⟩).requeue = 77 :: [] ∧ (s.quad ⟨1, 0, 0⟩).ringFree ≠ 0) ∧
    (let s := withQuad { forks := [⟨0, [.record 3 0]⟩] } {};
      (s.quad ⟨1, 0, 0⟩).forks = ⟨0, [.record 3 0]⟩ :: [] ∧ s.rootHas 1 0 = true ∧ (∀ e ∈ [RingEnt.record 3 0], s.sibCancelled 1 e = false)) := by
  decide +kernel

theorem wit_BindingAndDealingEvents_levelling :
    (level16.enginesUp 1 = true ∧ 0 < (level16.shapeOf 1).dieCount ∧ (level16.now - level16.pclock) % 4096 = 0 ∧ (level16.die 1 0).leveled < (level16.now - level16.pclock) / 4096) ∧
    (∀ st ∈ [0, 1, 2], ((shipped st).ctx 1).ships[0]? = some (6, ⟨0, 0, 1, [.record 3 0], st⟩) ∧ (shipped st).enginesUp 1 = true ∧
      (shipped st).ctxHalted 1 = false ∧ ((shipped st).quad ⟨1, 0, 1⟩).requeue = [] ∧ 1 ≤ ((shipped st).quad ⟨1, 0, 1⟩).ringFree) ∧
    (({ (shipped 0) with quads := [(513, { requeue := [77] })] } : State).quad ⟨1, 0, 1⟩).requeue ≠ [] ∧
    (({ (shipped 0) with quads := [(513, { ring := List.replicate 256 (.record 3 0) })] } : State).quad ⟨1, 0, 1⟩).ringFree < 1 := by decide +kernel

theorem wit_BindingAndDealingEvents_ends :
    (let s := { withQuad { pipe := some pipe0 } {} with now := 2048 };
      (s.quad ⟨1, 0, 0⟩).pipe = some pipe0 ∧ s.enginesUp 1 = true ∧ (s.now - s.pclock) % 1024 = 0 ∧ pipe0.governed < (s.now - s.pclock) / 1024) ∧
    (let s := base.modSlot base.cur fun t => { t with cancelled := true };
      (me s).st ≠ .empty ∧ (me s).cancelled = true ∧ settled (me s) = true ∧ (me s).fault = none ∧ s.resident 1 = true ∧ s.coreHalted ⟨1, 0, 0⟩ = false) ∧
    (let y := { group2 with dline := 10, left := 0 };
      mfind 7 ((sibling y []).die 1 0).groups = some y ∧ y.dline ≠ 0 ∧ y.isOpen = true ∧ y.left = 0 ∧ (sibling y []).enginesUp 1 = true ∧
      (sibling y []).ctxHalted 1 = false) := by decide +kernel

theorem wit_BindingAndDealingEvents_requeue :
    ∀ b, RingEnt.swapped b ∉ ((withQuad { requeue := [77], ring := [.record 3 0] } {}).quad ⟨1, 0, 0⟩).ring := by
  intro b h
  exact absurd (show RingEnt.swapped b ∈ [RingEnt.record 3 0] from h) (by simp)

/-- A message of class 0 for mailbox 16 of core 2, and its entry in a send buffer. -/
def msg0 : Msg := ⟨0x14, 0, 7, 0, 1, 1, true, false, false⟩
def sent0 (sent : Bool) (refused : List (Nat × Nat)) : SendEnt := ⟨4, msg0, 0, none, sent, 1, refused⟩
/-- The message in the mesh at core 0, of a group or not. -/
def flit0 (g : Option Nat) : Flit := ⟨some base.cur, 4, msg0, g, 0, 0, 4, none⟩

/-- The context with the flit in the mesh, a router entry for group 5, sixteen messages in the box or none. -/
def meshed (g : Option Nat) (entry : W32) (full : Bool) : State :=
  { withQuad {} { mesh := [flit0 g] } with
    cores := [(coreKey ⟨1, 0, 0⟩, { groups := [(5, entry)] })],
    boxes := if full then [(boxKey ⟨1, 0, 2⟩ 16, { tags := (List.range 8).map fun i => (i, { st := 1 }) })] else [] }

/-- A count change of location 1 in core 0's delta buffer; a batch of it. -/
def delta0 : Delta := ⟨1, 7, false, 1, {}⟩
def batch0 : Batch := ⟨2, 0, [delta0], none, 0, false⟩

/-- A crossing unit that fires at tick 3. -/
def firing : State :=
  { withQuad {} {} with
    cores := [(coreKey ⟨1, 0, 0⟩, { xunit := some ⟨0, 0, [(2, ⟨3, 0, true⟩)], some (⟨3, 0, true⟩ : XVar).time, []⟩ })],
    dies := [(dieKey 1 0, { f := [(0, (⟨3, 0, true⟩ : XVar).time)] })] }

/-- A snapshot of location 1 that has come due, with no variable of that location, its word in the vault. -/
def snap0 : Snap := ⟨1, 3, 0x101002000, 0x100003000, base.cur, 0, 0, 0, 0, 0, 0, none⟩
def snapping : State := withQuad {} { snaps := [snap0] }

theorem wit_MeshCountAndFrontierEvents :
    (let s := base.modSlot base.cur fun t => { t with send := [sent0 false []] };
      (s.sendBuf base.cur)[0]? = some (sent0 false []) ∧ (sent0 false []).sent = false ∧ ((s.sendBuf base.cur).take 0).all SendEnt.sent = true ∧
      s.enginesUp 1 = true ∧ s.countKnown base.cur (sent0 false []) = true ∧
      ((s.sendBuf base.cur).take 0).any (s.sameDest base.cur · (sent0 false [])) = false) ∧
    ((meshed none 0 false).ctx 1).mesh[0]? = some (flit0 none) ∧
    (meshed none 0 false).enginesUp 1 = true ∧ (meshed (some 5) 0x62 false).granted 1 (flit0 (some 5)) = true ∧
    dPkg msg0.dst = base.pkg ∧ (meshed none 0 false).granted 1 (flit0 none) = true ∧
    (let s := withQuad {} { mesh := [{ flit0 none with msg := { msg0 with dst := 0xA014 } }] };
      (s.ctx 1).mesh[0]? = some { flit0 none with msg := { msg0 with dst := 0xA014 } } ∧ dPkg 0xA014 = 5 ∧ (5 : Nat) ≠ s.pkg ∧ s.sendsTo 5 = true ∧
      s.granted 1 { flit0 none with msg := { msg0 with dst := 0xA014 } } = true) ∧
    (let f : Flit := { flit0 none with msg := { msg0 with dst := 0x40000014 }, since := some 30 };
      let s := withQuad {} { mesh := [f, flit0 none] };
      (s.ctx 1).mesh[0]? = some f ∧ f.group = none ∧ s.enginesUp 1 = true ∧ flit0 none ∈ (s.ctx 1).mesh ∧
      (∃ p ∈ s.outPorts 1 f, s.owed (s.readyAt 1 p) = some (dCls f.msg.dst) ∧ p ∈ s.outPorts 1 (flit0 none)) ∧
      dCls (flit0 none).msg.dst < dCls f.msg.dst ∧
      let u : State := { s with now := 50 };
      ∃ p ∈ u.outPorts 1 f, u.owed (u.readyAt 1 p) = none ∧ p ∈ u.outPorts 1 (flit0 none)) ∧
    ((meshed none 0 false).deliver ⟨1, 0, 2⟩ (dBox msg0.dst) msg0).isSome = true ∧
    ((meshed none 0 true).deliver ⟨1, 0, 2⟩ (dBox msg0.dst) msg0).isNone = true ∧
    (flit0 none).from_.isSome = true ∧
    (let s := base.modSlot base.cur fun t => { t with send := [sent0 true [(9, 30)]] };
      (s.sendBuf base.cur)[0]? = some (sent0 true [(9, 30)]) ∧ (sent0 true [(9, 30)]).refused = (9, 30) :: [] ∧ 30 + 64 ≤ s.now ∧ (sent0 true [(9, 30)]).group = none ∧
      s.enginesUp 1 = true) := by decide +kernel

theorem wit_MeshCountAndFrontierEvents_routers :
    ((meshed (some 5) 0x62 false).ctx 1).mesh[0]? = some (flit0 (some 5)) ∧ (meshed (some 5) 0x62 false).enginesUp 1 = true ∧
    mget 0 5 ((meshed (some 5) 0x62 false).core ⟨1, 0, 0⟩).groups = 0x62 ∧
    bits (0x02 : W32) 5 3 = 0 ∧
    bits (0x62 : W32) 5 3 = 3 ∧
    bits (0x22 : W32) 5 3 = 1 ∧
    (flit0 (some 5)).port = 4 := by decide +kernel

theorem wit_MeshCountAndFrontierEvents_counts :
    (let s := { base with now := 200, cores := [(coreKey ⟨1, 0, 0⟩, { delta := [delta0], deltaAt := 50 })] };
      (s.core ⟨1, 0, 0⟩).delta ≠ [] ∧ (s.core ⟨1, 0, 0⟩).deltaAt + 128 ≤ s.now ∧ s.tilthFull 1 0 = false ∧ s.enginesUp 1 = true) ∧
    (let s := withQuad {} { inflight := [batch0, { batch0 with id := 3 }] };
      s.enginesUp 1 = true ∧ (s.ctx 1).inflight = batch0 :: [{ batch0 with id := 3 }] ∧ batch0.die = 0 ∧
      (∀ y ∈ [{ batch0 with id := 3 }], y.id ≠ batch0.id) ∧ s.tilthTakes 1 batch0 = true) ∧
    (let s := withQuad {} { toRoot := [batch0] };
      (s.ctx 1).toRoot = batch0 :: [] ∧ s.rootTakes 1 (applyBatch (s.ctx 1).counts batch0.entries).1 = true ∧ (applyBatch (s.ctx 1).counts batch0.entries).2 = [] ∧ batch0.owner = none) ∧
    (let s := withQuad {} { bars := [(barKey .core (coreKey ⟨1, 0, 0⟩) 3, { arrived := [(slotKey base.cur, 1)] })] };
      s.enginesUp 1 = true ∧
      mfind (barKey .core (coreKey ⟨1, 0, 0⟩) 3) (s.ctx 1).bars = some { arrived := [(slotKey base.cur, 1)] } ∧ 3 ≤ 3 ∧
      (s.barCores 1 .core (coreKey ⟨1, 0, 0⟩)).all ({ arrived := [(slotKey base.cur, 1)] } : BarInst).coreIn = true) := by decide +kernel

theorem wit_MeshCountAndFrontierEvents_units :
    (let h := (⟨3, 0, true⟩ : XVar).time;
      (firing.core ⟨1, 0, 0⟩).xunit = some ⟨0, 0, [(2, ⟨3, 0, true⟩)], some h, []⟩ ∧
      firing.frontierAt 1 0 (firing.unitLoc 1 ⟨0, 0, [(2, ⟨3, 0, true⟩)], some h, []⟩) = h ∧ firing.enginesUp 1 = true ∧
      firing.fireBlocked ⟨1, 0, 0⟩ ⟨0, 0, [(2, ⟨3, 0, true⟩)], some h, []⟩ h = false) ∧
    ((snapping.ctx 1).snaps[0]? = some snap0 ∧ snapTime 3 ≤ snapping.frontierAt 1 0 1 ∧ snapping.enginesUp 1 = true ∧
      snapping.countBlocked ⟨1, 0, 0⟩ 1 (snapTime 3) = false ∧
      (match snapRun 0 ⟨1, base.cur, 0, 0, 0, workOf 5 0⟩ ((snapping.snapVars 1 1).drop 0) snap0 snapping with
        | (false, q1, s1) => q1.bad.isNone && (match s1.agentGet 0 ⟨1, base.cur, 0, 0, 0, workOf 5 0⟩ q1.cw.toNat 4 .write with
          | (.keys _, _) => true
          | _ => false)
        | _ => false) = true) := by decide +kernel

/-- A snapshot whose one variable goes to the first page of the translated space, which is on its way. -/
def snapWaits : State :=
  { base with
    ctxs := [(1, { exist := true, loaded := true, nloc := 2, resident := some 0, shape := some (.rect 8 8), ptbase := 0x10000,
                   edges := [⟨1, 0, 0, 0, 0⟩], snaps := [{ snap0 with base := 0x100000000000 }] })],
    mem := memWrite (record (pkey .hbm 0 0) [(0x10000 + 64, 8, 0x20001), (0x20000, 8, 0x30001), (0x30000, 8, 0x40001), (0x40000, 8, 0x3C)])
      (varKey ⟨1, 0, 0⟩ 2 + 26) 1 8,
    cores := [(coreKey ⟨1, 0, 0⟩, { xunit := some ⟨0, 0, [], none, []⟩ })],
    pdies := [(0, { transit := [(0, { ctx := 1, va := 0x100000000000, level := 3, home := 0, orig := 0, mark := 0x3C, frame := 0,
                                      waiters := [] })] })] }

theorem wit_MeshCountAndFrontierEvents_snapWaits :
    ((snapWaits.ctx 1).snaps[0]? = some { snap0 with base := 0x100000000000 } ∧ snapTime 3 ≤ snapWaits.frontierAt 1 0 1 ∧
      snapWaits.enginesUp 1 = true ∧ snapWaits.countBlocked ⟨1, 0, 0⟩ 1 (snapTime 3) = false) ∧
    (snapRun 0 ⟨1, base.cur, 0, 0, 0, workOf 5 0⟩ ((snapWaits.snapVars 1 1).drop 0) { snap0 with base := 0x100000000000 } snapWaits).1 = true ∧
    (match snapping.agentGet 0 ⟨1, base.cur, 0, 0, 0, workOf 5 0⟩ (snap0.base.toNat + 4 * (snapping.varId ⟨1, 0, 0⟩ 2 % 2 ^ 20)) 4 .write with
      | (.keys _, _) => true
      | _ => false) = true := by decide +kernel

/-- A slot with one value on its way to w2. -/
def landingV : State := base.modSlot base.cur fun t => { t with flights := [.value [writeX t 10 7]] }

/-- The slot in a wait of some instruction with no cycles left, its wake flag as given. -/
def inWait (i : Instr) (lim : Nat) (wake : Bool) (f : Time) : State :=
  (located f [(14, 1)]).modSlot base.cur fun t =>
    { t with wake := wake, wait := some ⟨4, i, 4, lim, 0, { cause := 15, addr := 0, i0 := 0, i1 := 0 }, []⟩ }

/-- How a wait is tried again, by name. -/
def retried (s : State) : Option Nat :=
  (me s).wait.bind fun w => (s.retryWait base.cur w).map fun x => match x with
    | .ok _ => 0
    | .trap _ => 1
    | .wait _ _ => 2
    | _ => 3

theorem wit_ResultsWaitsStorageAndEngineEvents :
    (∀ f ∈ [Flight.load (.ring 2) [⟨0, [pkey .hbm 0 64], 0x1000⟩] 1 false (some .die), .timed [.ring 2 7] 90, .timed [.ring 2 7] 134,
        .acquired [.ring 2 7] .die, .atomic (.ring 2) (page 0x100 4) .add 1 0 none, .fe .fset (pkey .hbm 0 64), .remote (.ring 2) 5 2 none],
      let s := base.modSlot base.cur fun t => { t with flights := [f] };
      (me s).flights[0]? = some f ∧ s.up 1 = true ∧ ∀ x ∈ f.regs, early (me s) x = false) ∧
    (me landingV).flights[0]? = some (.value [writeX (me landingV) 10 7]) ∧ landingV.up 1 = true ∧
    (∀ w ∈ [writeX (me landingV) 10 7], early (me landingV) w.reg = false) ∧
    (inWait (.park k0 12) 0 true 0).mayGoOn base.cur = true ∧ retried (inWait (.park k0 12) 0 true 0) = some 0 ∧
    retried (inWait (.park k0 12) 9 false 0) = some 2 ∧
    ((me (inWait (.park k0 12) 9 false 0)).wait.map fun w => (w.lim, w.left)) = some (9, 0) ∧
    ((me (inWait (.park k0 12) 9 false 0)).wait.map fun w => decide ((inWait (.park k0 12) 9 false 0).barMeets base.cur w = inWait (.park k0 12) 9 false 0)) =
      some true ∧
    (inWait (.park k0 12) 9 false 0).mayGoOn base.cur = true ∧
    retried (inWait (.ldf k0 10 12 .plain .core 0 false) 0 false 0) = some 1 ∧
    (let s := base.modSlot base.cur fun t => { t with wdogPend := true };
      (me s).wdogPend = true ∧ (me s).st = .running ∧ (me s).fault = none ∧ (me s).walk = none ∧ s.up 1 = true ∧ s.coreHalted ⟨1, 0, 0⟩ = false) ∧
    (let s := base.modSlot base.cur fun t => { t with packet := some 5, ready := 90 };
      (me s).packet = some 5 ∧ (me s).ready ≤ s.now ∧ s.up 1 = true) ∧
    (let s := { base with now := 300, pdies := [(0, { heldPkts := [5, 6] })] };
      (s.pdie 0).heldPkts = 5 :: [6] ∧ (s.pdie 0).offered + 256 ≤ s.now) ∧
    (let s := base.modSlot base.cur fun t => { t with walk := some (0x100000000000, .read, 4) };
      (me s).walk = some ((0x100000000000 : Word).toNat, .read, 4) ∧ s.up 1 = true ∧ settled (me s) = true ∧
      s.tlbOf base.cur.quadRef 0x100000000000 = none ∧ s.walkVa 1 0x100000000000 = .bad 1 0) := by
  decide +kernel

/-- A page table at HBM 0x10000 whose first entries lead to a 64 KiB page at 0x200000. -/
def walking : State :=
  { base.modSlot base.cur fun t => { t with walk := some (0x100000000000, .read, 4) } with
    ctxs := [(1, { exist := true, loaded := true, nloc := 2, resident := some 0, shape := some (.rect 8 8), ptbase := 0x10000 })],
    mem := record (pkey .hbm 0 0) [(0x10000 + 64, 8, 0x20001), (0x20000, 8, 0x30001), (0x30000, 8, 0x40001), (0x40000, 8, 0x20003A)] }

/-- A request of drive 0 of an operation, taken or not. -/
def sreq (op : Nat) (cid : Option Nat) : SReq :=
  ⟨1, none, op, 0, 0, 1, 0, 0, 0, 1, base.cur, 0, 0, 0, cid, 0, 0, 0, 0, false, false⟩
def storing (op : Nat) (cid : Option Nat) : State := { base with drives := 1, pdies := [(0, { silt := [sreq op cid] })] }

theorem wit_ResultsWaits_storage :
    walking.walkVa 1 0x100000000000 = .leaf 3 (pkey .hbm 0 0x40000) 0x20003A ∧ permits 0x20003A .read = true ∧ pteKind 0x20003A = 2 ∧
    writes .read = false ∧ (me walking).walk = some ((0x100000000000 : Word).toNat, .read, 4) ∧
    walking.up 1 = true ∧ settled (me walking) = true ∧ walking.tlbOf base.cur.quadRef 0x100000000000 = none ∧
    ((storing 0 none).pdie 0).nextSilt 0 = some (sreq 0 none) ∧ (∀ x ∈ [sreq 0 none], x.drive % 4 = 0 → x.writeFail = false ∧ x.back = false) ∧
    ((storing 0 none).pdie 0).silt = [sreq 0 none] ∧ (sreq 0 none).op ≠ 3 ∧
    (storing 0 none).driveUp 0 = true ∧ ((storing 2 (some 3)).pdie 0).silt.find? (fun q => q.cid == some 3 && !q.back) = some (sreq 2 (some 3)) ∧
    (sreq 2 (some 3)).fault = none ∧ (sreq 2 (some 3)).op = 2 ∧
    (let s := base.modSlot base.cur fun t => { t with inv := 1 };
      (me s).inv ≠ 0 ∧ s.up 1 = true ∧ (s.invScope 1).any ((s.invScope 1).foldl (fun s cx => s.performAll cx) s).outstanding = false) := by
  decide +kernel

/-- Channel 0 with its first schedule: run, bytes passed, stopped. -/
def channel (complete : List Nat) (run : Option Nat) (bytes : Nat) (stopped : Bool) (stage : Nat) : State :=
  { mapped [] with
    dies := [(dieKey 1 0, { scheds := [(5, { sched0 complete with counters := [(0, stage)] })],
                            chans := [(0, { queue := [5], run := run, bytes := bytes, stopped := stopped })] })],
    ctxs := walking.ctxs, mem := walking.mem }

/-- Context 2 runs in partition 1 of the same die, with an entry of channel 0. -/
def twoChans : State :=
  let s := channel [] none 0 false 1
  { s with
    parts := [(0, { place := some (.rect 0 0 4 8), ctx := 1, pstat := 1 }), (1, { place := some (.rect 0 4 4 8), ctx := 2, pstat := 1 })],
    ctxs := s.ctxs ++ [(2, { exist := true, loaded := true, nloc := 2, resident := some 1, shape := some (.rect 4 8) })],
    dies := s.dies ++ [(dieKey 2 0, { chans := [(0, { queue := [6], run := some 0 })] })] }

/-- Is a line's work made without a bad element, a failure or a clip? -/
def madeWhole (x : LineRes) : Bool :=
  match x with
  | .made l => l.bad == [] && l.first.isNone && !l.clip
  | _ => false

theorem wit_ResultsWaits_copy :
    (let s := channel [] none 0 false 1;
      s.enginesRun 1 0 = true ∧ (mget {} 0 (s.die 1 0).chans).stopped = false ∧
      s.oldestSched 1 0 0 = some (5, { sched0 [] with counters := [(0, 1)] }) ∧ (mget {} 0 (s.die 1 0).chans).run = none ∧
      ({ sched0 [] with counters := [(0, 1)] } : Sched).next 0 = some (0, ent0) ∧ ent0.stage ≤ mget 0 0 [(0, 1)] ∧
      s.atHead 1 0 5 { sched0 [] with counters := [(0, 1)] } = true ∧
      s.chanTaken 1 0 0 5 { sched0 [] with counters := [(0, 1)] } = false ∧ ∀ x ∈ s.diesOn (s.physDie 1 0), x.1 = dieKey 1 0) ∧
    (let s := twoChans;
      (∃ x ∈ s.diesOn (s.physDie 1 0), x.1 ≠ dieKey 1 0 ∧ (mget {} 0 x.2.chans).run.isSome = true) ∧
      s.oldestSched 1 0 0 = some (5, { sched0 [] with counters := [(0, 1)] })) ∧
    (let s := channel [] (some 0) 0 false 1;
      (mget {} 0 (s.die 1 0).chans).run = some 0 ∧ (sched0 []).entries[0]? = some ent0 ∧ (mget {} 0 (s.die 1 0).chans).bytes < ent0.boxBytes ∧
      madeWhole (copyElems (s.physDie 1 0) 0 ⟨1, base.cur, 0, 0, 0, workOf 2 0⟩ (s.ctx 1).useAttr[0] ent0 ((min ent0.boxBytes ((0 / 128 + 1) * 128) - 0) / 4) (0 / 4)
        { s := s, ps := [], bad := [], first := none, clip := false }) = true) ∧
    (let s := channel [] (some 0) 128 false 1; ent0.boxBytes ≤ (mget {} 0 (s.die 1 0).chans).bytes ∧ (sched0 []).done.length + 1 < (sched0 []).entries.length) ∧
    (mget {} 0 ((channel [] (some 0) 0 true 1).die 1 0).chans).stopped = true := by decide +kernel

/-- A command for the array of quad 0 by kind. -/
def cmd0 (kind : Nat) : ArrCmd := ⟨9, base.cur, 0, false, kind, false, 0, 0, (copyMc base.cur (me (matrix 0 []))), 0, 0, 0, 0, 0⟩
/-- The array of quad 0. -/
def arrayed (a : Arr) : State := { base with quads := [(512, { arr := a })] }

theorem wit_ResultsWaits_arrays :
    (let s := arrayed { queue := [cmd0 4] };
      s.arrUp ⟨1, 0, 0⟩ = true ∧ (s.arr ⟨1, 0, 0⟩).startable s.now = some 0 ∧ (s.arr ⟨1, 0, 0⟩).queue[0]? = some (cmd0 4) ∧ (cmd0 4).kind ≠ 2 ∧
      (s.arr ⟨1, 0, 0⟩).skips (cmd0 4) = false) ∧
    (∀ k ∈ [1, 2, 6], let s := arrayed { run := [⟨cmd0 k, 90, 100, 32, [], none, []⟩] };
      s.arrUp ⟨1, 0, 0⟩ = true ∧
      (s.arr ⟨1, 0, 0⟩).run.find? (fun x => decide (x.finish ≤ s.now) && (x.cmd.kind != 2 || decide (x.done ≥ mcF x.cmd.mc 3 0 11))) =
        some ⟨cmd0 k, 90, 100, 32, [], none, []⟩ ∧
      (k ≠ 1 ∨ (match s.runCmd ⟨1, 0, 0⟩ (cmd0 k) with
        | (some (_, none), _) => true
        | _ => false) = true)) ∧
    (let s := arrayed { ramped := true, idleAt := 36 };
      (s.arr ⟨1, 0, 0⟩).hasStream = false ∧ (s.arr ⟨1, 0, 0⟩).ramped = true ∧ (s.arr ⟨1, 0, 0⟩).holdUntil = none ∧ (s.arr ⟨1, 0, 0⟩).idleAt + 64 ≤ s.now) ∧
    (let s := arrayed { holdUntil := some 100 };
      (s.arr ⟨1, 0, 0⟩).hasStream = false ∧ (s.arr ⟨1, 0, 0⟩).holdUntil = some 100 ∧ 100 ≤ s.now ∧ (s.arr ⟨1, 0, 0⟩).token = false) ∧
    (State.reset.pdie 0).fenced = 0 ∧
    (let c : MCmd := ⟨base.cur, 0, 1, 1, false, 0, 0, 0x800, [], 0, 4, 0, 0, 0⟩;
      let s := { withQuad {} { cmds := [c], replies := [⟨base.cur, 4, 0⟩] } with quads := [(513, { caps := [(0, 0x1FF00000000000008)] })] };
      (s.ctx 1).cmds[0]? = some c ∧ s.enginesUp 1 = true ∧ c.kind ≠ 3 ∧ (s.arr ⟨1, 0, 1⟩).occ < 8 ∧ capCause (s.quad ⟨1, 0, 1⟩) c = 0 ∧
      (s.ctx 1).replies[0]? = some ⟨base.cur, 4, 0⟩) ∧
    (me (base.modSlot base.cur fun t => { t with reply := some (4, 9) })).reply = some (4, 9) := by decide +kernel

/-- One token at quad 63; quad 0 wants it, in token mode, or not. -/
def tokens (want : Bool) : State :=
  { arrayed { wantToken := want } with pwrcfg := 0xC8081, pdies := [(0, { tokens := [63], fenced := 2 })] }

theorem wit_ResultsWaits_tokens :
    (let s := arrayed { token := true };
      s.coreAtPhys 0 (coreAt 0 0) = some ⟨1, 0, 0⟩ ∧ (s.arr ⟨1, 0, 0⟩).token = true) ∧
    ((tokens true).returnTokens 0 = tokens true ∧ ((tokens true).pdie 0).tokens = [63] ∧
      ((tokens true).pdie 0).fenced.getLsbD ((63 + 1) % 64) = false ∧ (tokens true).coreAtPhys 0 (coreAt ((63 + 1) % 64) 0) = some ⟨1, 0, 0⟩ ∧
      (!(tokens true).thr && (tokens true).arrUp ⟨1, 0, 0⟩ && (tokens true).tokenMode ⟨1, 0, 0⟩ && ((tokens true).arr ⟨1, 0, 0⟩).wantToken &&
        !((tokens true).arr ⟨1, 0, 0⟩).token) = true) ∧
    (State.reset.pdie 0).fenced.getLsbD ((5 + 1 + 0) % 64) = false ∧
    (∀ i < 64, ({ fenced := BitVec.allOnes 64 } : PDie).fenced.getLsbD i = true) := by decide +kernel

theorem wit_ResultsWaits_tokens_reset : ∀ k, State.reset.coreAtPhys 0 k = none := fun _ => rfl

/-- A store of slot 0 to HBM in quad 0's buffer; an atomic of it sent to package 5 under number 2. -/
def sending : State :=
  { base with
    quads := [(512, { sb := [⟨base.cur, pkey .hbm 0 64 / 64, [(pkey .hbm 0 64, 1)], false, none, []⟩] })],
    peers := [(5, { next := 3, out := [⟨2, base.cur, 0, .add, 64, 1, 0, 0, 1, none⟩] })], now := 12800 }

theorem wit_ResultsWaits_links :
    (sending.quad ⟨1, 0, 0⟩).sb[0]? = some ⟨base.cur, pkey .hbm 0 64 / 64, [(pkey .hbm 0 64, 1)], false, none, []⟩ ∧ sending.up 1 = true ∧
    sending.canLeave ⟨base.cur, pkey .hbm 0 64 / 64, [(pkey .hbm 0 64, 1)], false, none, []⟩ = true ∧ ((sending.quad ⟨1, 0, 0⟩).sb.take 0).any (fun x => x.line == 1) = false ∧
    (sending.peer 6).above 9 = true ∧ 64 % 4 = 0 ∧ poisoned sending (keysFrom (pkey .hbm 0 64) 4) = none ∧
    ((sending.peer 5).out.any fun q => q.seq == 2) = true ∧ sending.linkUp = true ∧
    ((sending.peer 5).out.find? fun q => q.seq == 2) = some ⟨2, base.cur, 0, .add, 64, 1, 0, 0, 1, none⟩ ∧ 0 + 12800 ≤ sending.now ∧ 1 < 8 ∧
    1 ≠ 0 ∧ (let s : State := { sending with peers := [(5, { next := 3, out := [⟨2, base.cur, 0, .add, 64, 1, 0, 0, 8, some 7⟩] })] };
      ((s.peer 5).out.find? fun q => q.seq == 2) = some ⟨2, base.cur, 0, .add, 64, 1, 0, 0, 8, some 7⟩ ∧ s.linkUp = true ∧ 8 ≤ 8) ∧
    31 < 32 ∧ (mget {} 31 sending.links).works = true ∧ (mget {} 31 sending.links).replays < 7 ∧
    (let s : State := { sending with links := [(31, { replays := 7 })] }; (mget {} 31 s.links).works = true ∧ 7 ≤ (mget {} 31 s.links).replays) ∧
    (let s := { base with quads := [(512, { sb := [⟨base.cur, pkey .remote 5 64 / 64, [(pkey .remote 5 64, 1)], false, none, []⟩] })] };
      farEnt ⟨base.cur, pkey .remote 5 64 / 64, [(pkey .remote 5 64, 1)], false, none, []⟩ = true ∧
      s.canLeave ⟨base.cur, pkey .remote 5 64 / 64, [(pkey .remote 5 64, 1)], false, none, []⟩ = true ∧
      (s.quad ⟨1, 0, 0⟩).sb[0]? = some ⟨base.cur, pkey .remote 5 64 / 64, [(pkey .remote 5 64, 1)], false, none, []⟩) ∧
    (let s := { sending with peers := [(5, { next := 3, out := [⟨2, base.cur, 0, .add, 64, 1, 0, 0, 1, none⟩], moving := true })] };
      (s.peer 5).moving = true ∧ ((s.peer 5).out.any fun q => q.tries != 0) = true) := by decide +kernel

theorem wit_ResultsWaits_inv : sending.Inv := by unfold State.Inv; decide +kernel

/-- Partition 0 in a state of its switch unit, with a request for context 2 (which exists, with the partition's shape) in hand. -/
def switching (st : Nat) : State :=
  { base with
    parts := [(0, { place := some (.rect 0 0 8 8), ctx := 1, pstat := 1, st := st,
                    cur := if st = 0 then none else some ⟨5, 1, 2⟩ })],
    ctxs := base.ctxs ++ [(2, { exist := true, shape := some (.rect 8 8) })] }

theorem wit_SwitchesHaltsAndDriverEvents :
    (let s1 := ((switching 0).modPart 0 fun x => { x with pswtime := 7 }).modPart 0 fun x => { x with prio := 1, tctx := 2 };
      (s1.part 0).place.isSome = true ∧ s1.fitsPart 0 (bits (0x10002 : Word) 0 16) = true ∧ (s1.part 0).st < 2 ∧ bits (0x10002 : Word) 0 16 ≠ (s1.part 0).ctx) ∧
    (let s1 := ((switching 1).modPart 0 fun x => { x with pswtime := 7 }).modPart 0 fun x => { x with prio := 0, tctx := 9 };
      s1.fitsPart 0 (bits (9 : Word) 0 16) = false ∧ (s1.part 0).st < 2) ∧
    ((switching 1).part 0).cur = some ⟨5, 1, 2⟩ ∧ ((switching 1).part 0).st = 1 ∧ (5 : Word) ≤ (switching 1).clock ∧
    ((switching 3).part 0).st = 3 ∧ ((switching 2).part 0).st = 2 ∧
    ((((switching 2).rest 1).performAll 1).mustWait 1) = false ∧ State.reset.boot ≠ 2 ∧ (∀ st ∈ [0, 1, 2, 3, 4], (switching st).boot = 2) ∧
    (let s : State := { base with parts := [(0, { place := some (.rect 0 0 8 8), st := 2 })] }; (s.part 0).st = 2 ∧ (s.part 0).ctx = 0) ∧
    ((switching 4).part 0).cur = some ⟨5, 1, 2⟩ ∧ ((switching 4).part 0).place = some (.rect 0 0 8 8) ∧ ((switching 4).part 0).st = 4 ∧
    (switching 4).fitsPart 0 2 = true ∧ (2 : Nat) ≠ 0 ∧ (mget {} 3 (base.pdie 0).halts).st = 0 ∧
    (mget {} 3 (({ base with pdies := [(0, { halts := [(3, { st := 2 })] })] } : State).pdie 0).halts).st ≠ 0 := by
  decide +kernel

/-- Slot 0 of physical core 0 frozen, with or without a halt group stopped. -/
def frozen (h : Nat) : State :=
  { base.modSlot base.cur fun t => { t with st := .frozen, npc := 0x100000000004 } with
    pdies := [(0, { halts := [(3, { mem := [1, 0, 0, 0], st := h })] })] }

/-- A swapped-out task at address 0x300000, held by a packet or not. -/
def swappedAt (held : Bool) : State :=
  withQuad {} { swapped := [(0x300000, ⟨task, 0, 0x100000000000, .read, 0, 0, 0, [], [], held, 0, 0, [], []⟩)] }

/-- The package after its firmware loaded, with partition 2's shape register as given. -/
def booted (v : Word) : State := { State.reset with boot := 2, parts := [(2, { pshape := v })] }

/-- The supervisor of die 0 runs a task whose w5 points at an offset of slot 0 of core 0 in its debug window. -/
def watching (off : Word) : State :=
  let s := frozen 0
  { (s.setSlot ⟨0, 0, 256, 0⟩ (applyWrite { task with pc := 0x100000000000 } (writeX task 13 (0x8000000 + off)))) with
    cur := ⟨0, 0, 256, 0⟩ }

theorem wit_PacketsAndTheDebugWindow :
    (let s := watching 0x288;
      let t := s.slot s.cur;
      acquiring t = false ∧ Executes s k0 false (rX 13) (fun t => [xReg t 10]) (guardOn · k0) = true ∧
      Executes s k0 false (rXX 10 13) noRegs (guardOn · k0) = true ∧
      Unfenced s (.ld k0 10 13 .plain .core 3 false) = true ∧ Unfenced s (.st k0 10 13 .plain .core 3 false) = true ∧
      (s.issued k0 4 [xReg t 10]).access s.cur (readX t 13).toNat 8 8 .read = .debug 0x288 ∧
      (s.issued k0 4 []).access s.cur (readX t 13).toNat 8 8 .write = .debug 0x288 ∧
      (s.issued k0 4 [xReg t 10]).debugPoison (supDie s.cur) (readX t 13).toNat 0x288 8 (fun _ => true) = none) ∧
    0x288 % 8 = 0 ∧ 0x288 % 65536 ≠ 0x290 ∧ (frozen 0).debugSlot 0 0x288 = some base.cur ∧ (frozen 0).debugOpen base.cur = true ∧
    base.debugSlot 0 0x288 = some base.cur ∧ base.debugOpen base.cur = false ∧ base.debugSlot 1 0x288 = none ∧
    (∀ x ∈ (me (frozen 0)).snaps, x.1 < 256) ∧ slotKey ⟨1, 0, 0, 1⟩ ≠ slotKey base.cur ∧
    (0x1F8 = 8 * 63 ∧ 0x208 = 0x200 + 8 * 1 ∧ 0x258 = 0x240 + 8 * 3 ∧ 0x420 = 0x400 + 8 * 4 ∧ 0x7F8 = 0x400 + 8 * 0x7F ∧
      0x1FF8 = 0x1000 + 128 * 31 + 8 * 15 ∧ 0x2078 = 0x2000 + 8 * 15) := by decide +kernel

/-- What the supervisor then reads and leaves. -/
theorem test_debug_window :
    readX (done (.ld k0 10 13 .plain .core 3 false) (watching 0x288)) 10 = 0x100000000004 ∧
    (me (after (.st k0 13 13 .plain .core 3 false) (watching 0x288))).npc = 0x8000288 := by decide +kernel

theorem wit_SwitchesHalts_debug :
    (frozen 0).dctlSlot 0 0 0 = some (base.cur, 2) ∧ (frozen 2).dctlSlot 0 0 0 = some (base.cur, 4) ∧ (me (frozen 0)).packet = none ∧
    (me (frozen 0)).brk = false ∧ (frozen 0).dropPoisoned base.cur = frozen 0 ∧ base.swTask 0 0x300000 = none ∧
    (swappedAt true).swTask 0 0x300000 = some (1, ⟨task, 0, 0x100000000000, .read, 0, 0, 0, [], [], true, 0, 0, [], []⟩) ∧
    (task.flights = [] ∧ (swappedAt true).swTask 0 0x300000 ≠ none) ∧
    (frozen 0).boot = 2 ∧ (swappedAt true).boot = 2 ∧
    ({ base with pdies := [(0, { halts := [(3, { mem := [1, 0, 0, 0], st := 2 })] })] } : State).dctlSlot 0 0 0 = some (base.cur, 3) ∧
    ({ task with send := [sent0 false []] } : Slot).send ≠ [] ∧
    ((booted 0).pdie 3).fenced.getLsbD 63 = false ∧ (booted 0).partOfQuad 3 63 = none ∧
    (base.partOfQuad 0 63 = some 0 ∧ (base.pdie 0).fenced.getLsbD 63 = false ∧ (base.part 0).ctx ≠ 0) ∧
    (let s := { base with parts := [(0, { place := some (.rect 0 0 8 8), st := 1 })] };
      s.partOfQuad 0 63 = some 0 ∧ (s.part 0).ctx = 0 ∧ (s.part 0).st ≤ 1) := by decide +kernel

theorem wit_SwitchesHalts_partitions :
    (let s := booted 0x77; s.boot = 2 ∧ s.trip = false ∧ s.cooling = false ∧ (s.part 2).place = none ∧ s.formed.length < 16 ∧
      shapeOfReg (s.part 2).pshape = some (.rect 0 0 8 8) ∧
      ((Place.rect 0 0 8 8).quads.all fun q => (s.partOfQuad q.1 q.2).isNone && !(s.pdie q.1).fenced.getLsbD q.2) = true) ∧
    shapeOfReg ((booted 0x8F).part 2).pshape = none ∧
    (base.part 0).place.isSome = true ∧ (base.part 0).ctx ≠ 0 ∧
    (let s := { base with parts := [(0, { place := some (.rect 0 0 8 8) })] }; (s.part 0).place.isSome = true ∧ (s.part 0).ctx = 0) ∧
    (0 < 65535 ∧ (base.ctx 65535).exist = false) ∧ (base.ctx 1).exist = true ∧ (base.ctx 1).resident.isSome = true ∧
    ((switching 0).ctx 2).exist = true ∧ ((switching 0).ctx 2).resident = none ∧ ((switching 0).ctx 2).onlyStarts = true ∧
    (switching 0).checkGraph (pkey .hbm 0 ((switching 0).ctx 2).cxgraph.toNat) = .bad 0 0 := by decide +kernel

/-- An image of one location and no edge at address 0; context 2 has the shape of partition 0, and the host has selected it. -/
def imaged : State :=
  ({ switching 0 with mem := record (pkey .hbm 0 0) [(0, 2, 1), (16, 16, 5), (32, 1, 1)] } : State).setSel .host .cx 2

theorem wit_SwitchesHalts_driver :
    imaged.checkGraph (pkey .hbm 0 (imaged.ctx 2).cxgraph.toNat) = .ok 1 [(0, 5)] [] ∧
    imaged.coreOfCtx (imaged.sel .host .cx).toNat 0 0 = some ⟨2, 0, 0⟩ ∧ imaged.placeAt 0 0 = some (.rect 0 0 8 8) ∧
    groupEntryOk (.rect 0 0 8 8) ⟨2, 0, 0⟩ 0x12 = true ∧ groupEntryOk (.rect 0 0 8 8) ⟨2, 0, 0⟩ 0x8000 = false ∧
    imaged.coreOfCtx (imaged.sel .host .cx).toNat 0 (coreAt 0 0) = some ⟨2, 0, 0⟩ ∧
    (((mget {} 5 (base.pdie 0).dls).tail - 0).toNat ≤ Config.deadLetters) ∧ ((base.pdie 0).sqTail - 0).toNat ≤ 4096 ∧ 2 < 3 ∧
    imaged.boot = 2 ∧ bits (0x30000000 : Word) 28 4 = 3 ∧ 255 < 256 ∧
    (255 ≤ 255 ∧ (bits (0x40000000 : Word) 28 4 = 0 ∨ 4 ≤ bits (0x40000000 : Word) 28 4) ∧ bits (0 : Word) 28 4 = 0) := by decide +kernel

/-- Host queue 2 of context 1, quad 0, with one entry that names a card of the vault at an address; the frontier of location 1 of
the context as given. -/
def hosting (a : Nat) (rsv : Nat) (f : Time) : State :=
  { posting with
    ctxs := [(1, { exist := true, loaded := true, nloc := 2, resident := some 0, shape := some (.rect 8 8), f := [(1, f)] })],
    mem := memWrite (memWrite posting.mem (vaultKey ⟨1, 0, 0⟩ 0x2033) 1 rsv) (pkey .hbm 0 0x5000) 8 a,
    hostqs := [(2, { base := 0x5000, cfg := 0x10001004, tail := 1 })] }

/-- How the card of that entry reads: 0 accepted in form, 1 with a reserved bit set, 2 unreadable. -/
def hostReads (s : State) : Nat :=
  let q := mget {} 2 s.hostqs
  match s.readCard q.ctx (hostPoster s 2 q) (toW (s.loadLE (pkey .hbm 0 (bits q.base 0 52 + 8 * (q.head.toNat % q.depth))) 8)).toNat with
  | .ok p => if p.rsv.isSome then 1 else if p.card.loc = 1 ∧ p.card.time = 9 ∧ p.card.queue = 4 then 0 else 3
  | .error (.trap _) => 2
  | .error _ => 3

theorem wit_HostAndDeviceEvents_queues :
    (mget {} 2 (hosting 0x100002000 0 5).hostqs).en = true ∧ (mget {} 2 (hosting 0x100002000 0 5).hostqs).head ≠ (mget {} 2 (hosting 0x100002000 0 5).hostqs).tail ∧
    (hosting 0x100002000 0 5).enginesUp (mget {} 2 (hosting 0x100002000 0 5).hostqs).ctx = true ∧ hostReads (hosting 0x100002000 0 5) = 0 ∧
    hostReads (hosting 0x100002000 1 5) = 1 ∧ hostReads (hosting 0x100002003 0 5) = 2 ∧
    (9 : Time) < mget Time.never 1 ((hosting 0x100002000 0 10).ctx 1).f ∧ mget Time.never 1 ((hosting 0x100002000 0 9).ctx 1).f ≤ (9 : Time) ∧
    (mget {} 4 ((hosting 0x100002000 0 9).pdie 0).jobs).full = false ∧ (hosting 0x100002000 0 9).tilthFull 1 0 = false ∧
    base.boot = 2 ∧ (hosting 0x100002000 0 5).boot = 2 ∧ (mget {} 255 base.hostqs).en = false ∧ (mget {} 255 base.hostqs).waiting = [] ∧
    (mget {} 2 (hosting 0x100002000 0 5).hostqs).depth < (17 - (mget {} 2 (hosting 0x100002000 0 5).hostqs).head : W32).toNat := by decide +kernel

theorem wit_HostAndDeviceEvents :
    0x1FFFFF8 < 2 ^ 25 ∧ 0x1FFFFF8 % 8 = 0 ∧ poisoned base (keysFrom (pkey .hbm 0 (bits base.hwin 0 27 * 2 ^ 25 + 0x1FFFFF8)) 8) = none ∧
    State.reset.boot ≠ 2 ∧ base.boot = 2 ∧ ({ base with areq := true } : State).areq = true ∧
    (booted 0).boot = 2 ∧ (booted 0).formed = [] ∧ 0x12 % 8 ≠ 0 ∧ (0x10000 ≤ 0x20000 ∧ 0x20000 < 0x30000) ∧ 800 ≤ bits (0x32080 : Word) 8 16 ∧ bits (0xC80F0 : Word) 8 16 ≤ 3200 ∧ bits (0x32010 : Word) 4 4 ≠ 0 ∧
    95 < 96 ∧ bits base.pwrcfg 8 16 < 3201 ∧ ({ base with thr := true, cooling := true } : State).thr = true ∧ 94 < 95 ∧ 3199 < bits base.pwrcfg 8 16 ∧
    ({ base with pwrstat := 0x6E0000 } : State).trip = false ∧ 110 ≤ bits ({ base with pwrstat := 0x6E0000 } : State).pwrstat 16 8 ∧
    keyKind (pkey .accum 0 0) ≠ 9 ∧ granuleSize (keyKind (pkey .accum 0 0)) ≠ 0 ∧
    base.trip = false ∧ bits base.pwrstat 16 8 < 110 ∧
    (let s : State := { base with cerrth := 2, pdies := [(0, { quadErrs := [(3, [90]), (4, [80, 90])] })] };
      ((mget [] 3 (s.pdie 0).quadErrs).filter fun t => decide (s.clock.toNat < t + 2 ^ 36)).length + 1 ≤ s.cerrth.toNat ∧
      s.cerrth.toNat < ((mget [] 4 (s.pdie 0).quadErrs).filter fun t => decide (s.clock.toNat < t + 2 ^ 36)).length + 1) ∧
    (base.plainWrite .host 0x30010 0x1000).isSome = true := by decide +kernel

/-- The reset values that the manual gives (21 R374, R380). -/
theorem test_reset : State.reset.boot = 0 ∧ State.reset.pwrcfg = 0xC8080 ∧ State.reset.cerrth = 4096 ∧ task.b8fmt = 0x0C ∧ task.wlimit = 16777216 := by
  decide +kernel

/-- One step of some events: a bind takes the record's argument, a switch starts at its time, a release restarts, a batch moves the
frontier, a dealt chunk. -/
theorem test_events :
    readX ((after (.bindTask ⟨1, 0, 0, 1⟩) (withQuad { ring := [.record 3 1] } { cards := [(3, card0)] })).slot ⟨1, 0, 0, 1⟩) 8 = 0x100000001020 ∧
    ((after (.gangSwitchStart 0) (switching 1)).part 0).st = 2 ∧ ((after (.gangSwitchRestore 0) (switching 4)).part 0).ctx = 2 ∧
    (me (after (.dctlRestart 0 0 0) (frozen 0))).pc = 0x100000000004 ∧
    ((after (.rootBatchApply 1) (withQuad {} { toRoot := [batch0] })).ctx 1).f = [(1, 7)] ∧
    ((after (.dealChunk 0) dealing).quad ⟨1, 0, 0⟩).ring = [.record 3 0, .record 3 1, .record 3 2] ∧
    ((after (.graphLoad 2) imaged).ctx 2).counts = [⟨0, 5, false, 1, {}⟩] ∧ (after .thermalTrip { base with pwrstat := 0x6E0000 }).trip = true := by
  decide +kernel

/-- One step of some instructions on the engines: a command queued, a card posted, a group formed, a variable defined. -/
theorem test_engines :
    ((after (.tzero k0 12 13) (matrix 0 [])).arr ⟨1, 0, 0⟩).queue.length = 1 ∧ (me (after (.xstr k0 12) (matrix 8 []))).wait.isSome = true ∧
    ((after (.jpost k0 13 12) posting).ctx 1).cards.length = 1 ∧ (me (after (.gfork k0 10 13 12) forking)).grp = some (0, 0) ∧
    ((after (.qdef k0 13 12) (xvars none [⟨0, 1, 0, 0, 0⟩])).core ⟨1, 0, 0⟩).xunit.isSome = true ∧
    ((after (.sread k0 13 12) (requesting 0)).pdie 0).silt.length = 1 ∧ (me (after (.cadv k0 12 13) (copying [] [(13, 1)]))).held = [.copy 5 [0, 1]] ∧
    (me (after (.send k0 2 12 13) (located 0 [(12, 0x40000014)]))).send.length = 1 ∧ (done (.recv k0 2 12 13) (mailed false)).mtime = 7 := by decide +kernel

end Sys2Proof.Tests
end

section
/-! SUPPORT. What a register reads as, by the case of its specifier and by its valid bit (04 R86 to R93), and the state after device
reset. -/

namespace Sys2Proof.Machine

open Sys2Proof

/-! ## Reading registers -/

/-- 04 R86: the specifiers below 8 name the global registers. -/
theorem readX_global (t : Slot) {n : Spec} (h : n.toNat < 8) : readX t n = readG t (n.truncate 3) := by
  simp [readX, xReg, h]

/-- 04 R87: the other specifiers are seen through the window. -/
theorem readX_windowed (t : Slot) {n : Spec} (h : ¬ n.toNat < 8) :
    readX t n = readRing t (ringOf (16 * t.depth + (n.toNat - 8))) := by
  simp [readX, xReg, h]

theorem readG_of_invalid {t : Slot} {n : PSpec} (h : t.gValid.getLsbD n.toNat = false) : readG t n = 0 := by
  simp [readG, h]

theorem readRing_of_invalid {t : Slot} {j : BitVec 6} (h : t.ringValid.getLsbD j.toNat = false) : readRing t j = 0 := by
  simp [readRing, h]

theorem readV_of_invalid {t : Slot} {n : Spec} (h : t.vValid.getLsbD n.toNat = false) : readV t n = 0 := by
  simp [readV, h]

@[simp] theorem readP_zero (t : Slot) : readP t 0#3 = BitVec.allOnes 32 := rfl

theorem readP_of_invalid {t : Slot} {n : PSpec} (hn : n ≠ 0) (h : t.pValid.getLsbD n.toNat = false) : readP t n = 0 := by
  rw [readP, if_neg hn]
  simp [h]

/-! ## A slot without a task -/

theorem readX_emptySlot (k : Nat) (n : Spec) : readX (emptySlot k) n = 0 := by
  by_cases h : n.toNat < 8
  · rw [readX_global _ h]
    exact readG_of_invalid BitVec.getLsbD_zero
  · rw [readX_windowed _ h]
    exact readRing_of_invalid BitVec.getLsbD_zero

theorem readV_emptySlot (k : Nat) (n : Spec) : readV (emptySlot k) n = 0 := readV_of_invalid BitVec.getLsbD_zero

theorem readP_emptySlot (k : Nat) {n : PSpec} (h : n ≠ 0) : readP (emptySlot k) n = 0 :=
  readP_of_invalid h BitVec.getLsbD_zero

theorem emptySlot_rsp (k : Nat) : (emptySlot k).rsp = BitVec.ofNat 64 (0x14000 + 0x2000 * k) := rfl

theorem emptySlot_shadow (k i : Nat) : mget 0 i (emptySlot k).mc = 0 := mget_nil 0 i

/-! ## Device reset -/

@[simp] theorem slot_reset (r : SlotRef) : State.reset.slot r = emptySlot r.slot := mget_nil _ _

@[simp] theorem part_reset (p : Nat) : State.reset.part p = {} := mget_nil _ _

theorem reset_inv : State.reset.Inv := rfl

/-- Settles O10: the tables of the state are empty at reset, so every slot is the empty one and every partition is unformed. -/
theorem resetIsAsTheManualSays : Obligations.ResetIsAsTheManualSays := by
  unfold Obligations.ResetIsAsTheManualSays
  refine ⟨reset_inv, rfl, fun p => ?places, fun r => ?unbound, rfl, rfl, rfl, fun r => ?controls, fun r n => ?registers,
    fun r => ?predicates⟩
  case places => rw [part_reset]
  case unbound => rw [slot_reset, emptySlot]
  case controls =>
    rw [slot_reset]
    exact ⟨rfl, rfl, rfl, rfl, rfl, rfl, rfl, rfl, rfl, rfl, rfl, rfl, emptySlot_rsp r.slot, rfl, emptySlot_shadow r.slot⟩
  case registers =>
    rw [slot_reset]
    exact ⟨readX_emptySlot r.slot n, readV_emptySlot r.slot n⟩
  case predicates =>
    rw [slot_reset]
    exact ⟨readP_zero _, fun _ => readP_emptySlot r.slot⟩

end Sys2Proof.Machine
end

section
/-! SUPPORT. A state whose table of quads lists one quad twice, and what a bind makes of that quad's ring (01 R18; 05 R112; 06 R134).
A table that mput alone has built has one entry for a key, but the statement is about every value of the state's type. -/

namespace Sys2Proof.Machine

open Sys2Proof

/-- The slot that binds. -/
def bindingSlot : SlotRef := ⟨1, 0, 0, 0⟩

/-- A card of two records, both dealt. -/
def dealtCard : Card :=
  { stages := [], masks := [], addr := 0, entry := 0, argbase := 0, recsize := 0, count := 2, loc := 0, queue := 0, flags := 0,
    time := 0, cmin := 1, cdiv := 1, cmax := 1, gloc := 0, die := 0, quads := [(0, 0)], poster := none, hq := none, batch := 0,
    next := 2, live := 2, gateOpen := false }

/-- The first word of the payload in the first dead letter of physical core 0 (06 R140). -/
def letterWord : Nat := pkey .hbm 0 64

/-- The first entry of the quad holds record 0 of the card in its ring, the second, which no read of the table finds, record 1 and a
line of stores on a die bridge. A mailbox of the binding slot holds a poisoned message, and a task of the next slot has an fset on its
way to the line on the bridge. -/
def quadListedTwice : State :=
  { State.reset with
    parts := [(0, { place := some (.rect 0 0 8 8), ctx := 1 })],
    ctxs := [(1, { resident := some 0, cards := [(7, dealtCard)] })],
    quads := [(quadKey bindingSlot.quadRef, { ring := [.record 7 0] }),
      (quadKey bindingSlot.quadRef,
        { ring := [.record 7 1], sb := [{ who := bindingSlot, line := lineOf letterWord, bytes := [], out := true }] })],
    slots := [(slotKey ⟨1, 0, 0, 1⟩, { st := .running, flights := [.fe .fset letterWord] })],
    boxes := [(boxKey bindingSlot.coreRef 0, { tags := [(0, { st := 1 })] })],
    poison := [granuleOf (entryKey bindingSlot.coreRef 0 0)] }

/-- The next bind is that of record 0, which stands alone in the ring. -/
theorem nextBind_quadListedTwice : quadListedTwice.nextBind bindingSlot.quadRef = some (0, .record 7 0, bindingSlot) := by
  decide +kernel

theorem ring_quadListedTwice : (quadListedTwice.quad bindingSlot.quadRef).ring = [.record 7 0] := rfl

/-- The bind empties the slot's mailbox; the poisoned dead letter is written behind the fset, and this behind what the bridge carries of
the line. State.bridgeOut puts every entry that it finds with such a line back by its key, so the second entry takes the place of the
first, with a record in its ring that the bind has not touched. -/
theorem ring_bindTask_quadListedTwice :
    ((quadListedTwice.bindTask bindingSlot).quad bindingSlot.quadRef).ring = [.record 7 1] := by
  decide +kernel

/-- Refutes O56: in its first clause the ring after the bind of a record is the ring before it without that record, which fails where
the table of quads lists the quad twice. -/
theorem not_bindingAndDealingEvents : ¬ Obligations.BindingAndDealingEvents := by
  unfold Obligations.BindingAndDealingEvents
  intro h
  obtain ⟨bindOfRecord, -⟩ := h quadListedTwice
  obtain ⟨u, hexec, -, -, -, -, -, -, -, -, -, -, -, -, -, -, -, -, -, -, -, -, -, -, -, claimed⟩ :=
    bindOfRecord bindingSlot 0 7 0 dealtCard nextBind_quadListedTwice rfl
  have hu : quadListedTwice.bindTask bindingSlot = u := Host.Outcome.next.inj hexec
  rw [← hu, ring_bindTask_quadListedTwice, ring_quadListedTwice] at claimed
  exact List.cons_ne_nil _ _ claimed

end Sys2Proof.Machine
end

section
/-! SUPPORT. The turn of a core of whose slots one alone is ready: its boundaries bring nothing, no walk begins, the ready slot is
chosen, and it runs what its bytes decode to (02 R58, R59; 11 R233; 12 R273). -/

namespace Sys2Proof.Machine

open Sys2Proof

variable {s : State} {k : CoreRef}

/-! ## The choice of a slot -/

theorem mem_order_iff {c : Core} {n : Nat} : n ∈ c.order ↔ n < 4 := by
  simp only [Core.order, List.mem_map, List.mem_range]
  constructor
  · rintro ⟨i, -, rfl⟩
    omega
  · intro hn
    exact ⟨(n + 3 - c.last % 4) % 4, by omega, by omega⟩

theorem mem_of_longest {w : Nat → Nat} {l : List Nat} {n : Nat} (h : longest w l = some n) : n ∈ l := by
  refine List.foldlRecOn (motive := fun a => ∀ n, a = some n → n ∈ l) l _ (by simp) ?_ n h
  intro a ha m hm n hn
  cases a with
  | none => simp_all
  | some b =>
    simp only at hn
    split at hn
    · simp_all
    · exact ha n hn

/-- 02 R59: the slot that issues is a ready one. -/
theorem mem_of_chooseSlot {handler : Nat → Bool} {w : Nat → Nat} {ready : List Nat} {n : Nat}
    (h : chooseSlot handler w ready = some n) : n ∈ ready := by
  unfold chooseSlot at h
  split at h
  next m starved =>
    cases h
    exact (List.mem_filter.mp (mem_of_longest starved)).1
  next =>
    split at h
    next m rest handlers =>
      cases h
      exact (List.mem_filter.mp (handlers ▸ List.mem_cons_self)).1
    next => exact List.mem_of_head? h

/-- 02 R59: where a slot is ready, one issues. -/
theorem chooseSlot_ne_none {handler : Nat → Bool} {w : Nat → Nat} {ready : List Nat} (h : ready ≠ []) :
    chooseSlot handler w ready ≠ none := by
  unfold chooseSlot
  split
  next => simp
  next =>
    split
    next => simp
    next => simpa using h

theorem chooseSlot_of_only {handler : Nat → Bool} {w : Nat → Nat} {ready : List Nat} {n : Nat} (hn : n ∈ ready)
    (only : ∀ m ∈ ready, m = n) : chooseSlot handler w ready = some n := by
  obtain ⟨m, hm⟩ := Option.ne_none_iff_exists'.mp
    (chooseSlot_ne_none (handler := handler) (w := w) (List.ne_nil_of_mem hn))
  rw [hm, only m (mem_of_chooseSlot hm)]

/-! ## What an attempt comes to -/

theorem attempt_of_not_mayIssue {r : SlotRef} (h : s.mayIssue r = false) : s.attempt r = .idle := by
  simp [State.attempt, h]

theorem isReady_iff {r : SlotRef} : s.isReady r = true ↔ ∃ o, s.attempt r = .go o := by
  unfold State.isReady
  cases s.attempt r <;> simp

/-- The state in which a slot runs the bytes it has fetched: the slot is cur and keeps the word. -/
def State.executing (s : State) (r : SlotRef) (bs : List Byte) : State :=
  ({ s with cur := r } : State).setSlot r
    { s.slot r with iword := BitVec.ofNat 32 (leNat (passBytes (s.slot r) bs)) }

theorem runBytes_of_decode {r : SlotRef} {bs : List Byte} {i : Instr} {len : Nat}
    (h : decode (passBytes (s.slot r) bs) = .ok (i, len)) : s.runBytes r bs = exec i (s.executing r bs) := by
  simp only [State.runBytes, h]
  rfl

/-- 02 R58: fetched bytes whose run is neither a wait for busy registers nor the start of a walk issue. -/
theorem attempt_of_issue {r : SlotRef} {s2 : State} {bs : List Byte} (may : s.mayIssue r = true)
    (fetch : s.fetchInstr r (s.slot r).pc.toNat = (.bytes bs, s2)) (moved : sameSlot r s2 (s2.runBytes r bs) = false)
    (walkless : startsWalk r s2 (s2.runBytes r bs) = none) : s.attempt r = .go (s2.runBytes r bs) := by
  simp [State.attempt, may, fetch, moved, walkless]

/-! ## The turn of a core -/

/-- Does a boundary bring nothing to a slot (01 R17; 04 R102; 15 R331)? A wait or a walk holds a lost access and a watchdog back. -/
def QuietAtBoundary (t : Slot) : Prop :=
  t.cancelled = false ∧ (t.wait.isSome || t.walk.isSome || (t.linkErr.isNone && !t.wdogPend)) = true

theorem nothingPending_of_quiet {t : Slot} (quiet : QuietAtBoundary t) (free : (t.wait.isNone && t.walk.isNone) = true) :
    t.linkErr.isSome = false ∧ t.wdogPend = false := by
  obtain ⟨noWait, noWalk⟩ : t.wait = none ∧ t.walk = none := by simpa using free
  simpa [QuietAtBoundary, noWait, noWalk] using quiet.2

theorem boundary_of_quiet (quiet : ∀ m < 4, QuietAtBoundary (s.slot (k.slotRef m))) : s.boundary k = s := by
  refine List.foldlRecOn (motive := (· = s)) (List.range 4) _ rfl ?_
  rintro s rfl m hm
  have calm := quiet m (List.mem_range.mp hm)
  simp only [Bool.and_assoc, Bool.and_eq_true]
  split
  next link => exact absurd link.1 (by simp [nothingPending_of_quiet calm (by simp only [link, Bool.and_self])])
  next =>
    split
    next watchdog => exact absurd watchdog.1 (by simp [nothingPending_of_quiet calm (by simp only [watchdog, Bool.and_self])])
    next =>
      split
      next cancel => exact absurd cancel (by simp [calm.1])
      next => rfl

theorem beginWalks_of_no_walk (walkless : ∀ m < 4, ∀ u, s.attempt (k.slotRef m) ≠ .walk u) : s.beginWalks k = s := by
  refine List.foldlRecOn (motive := (· = s)) (List.range 4) _ rfl ?_
  rintro s rfl m hm
  split
  next u walks => exact absurd walks (walkless m (List.mem_range.mp hm) u)
  next => rfl

@[simp] theorem waitCount_now (r : SlotRef) (ready : Bool) : (s.waitCount r ready).now = s.now := by
  simp only [State.waitCount, apply_ite State.now, State.modSlot_now, ite_self]

theorem foldl_waitCount_now (ready : Nat → Bool) (l : List Nat) :
    (l.foldl (fun s i => s.waitCount (k.slotRef i) (ready i)) s).now = s.now :=
  List.foldlRecOn (motive := fun u : State => u.now = s.now) l _ rfl fun u hu i _ => by rw [waitCount_now, hu]

/-- The state that a core's only ready slot issues from: no slot waits, and the core has issued in the cycle (02 R59). -/
def State.issuing (s : State) (k : CoreRef) (n : Nat) : State :=
  ((List.range 4).foldl (fun s i => s.waitCount (k.slotRef i) false) s).modCore k fun c =>
    { c with last := n, issuedAt := s.now + 1 }

/-- One slot of a core alone is ready. -/
def OnlyReady (s : State) (k : CoreRef) (n : Nat) : Prop :=
  n < 4 ∧ (∃ o, s.attempt (k.slotRef n) = .go o) ∧ ∀ m < 4, m ≠ n → s.mayIssue (k.slotRef m) = false

theorem prepared_of_onlyReady {n : Nat} (only : OnlyReady s k n) (quiet : ∀ m < 4, QuietAtBoundary (s.slot (k.slotRef m))) :
    s.prepared k = s := by
  obtain ⟨-, ⟨o, ready⟩, rest⟩ := only
  have walkless : ∀ m < 4, ∀ u, s.attempt (k.slotRef m) ≠ .walk u := by
    intro m hm u
    by_cases h : m = n
    · simp [h, ready]
    · simp [attempt_of_not_mayIssue (rest m hm h)]
  unfold State.prepared
  split
  · rfl
  · rw [boundary_of_quiet quiet, beginWalks_of_no_walk walkless]

/-- 02 R59: the only ready slot issues; no other counts a wait. -/
theorem issueCycle_of_onlyReady {n : Nat} {o : Host.Outcome State Fault Refusal} (only : OnlyReady s k n)
    (fresh : s.issuedNow k = false) (issue : (s.issuing k n).attempt (k.slotRef n) = .go o) : s.issueCycle k = some o := by
  obtain ⟨hn, ready, rest⟩ := only
  generalize hl : ((s.core k).order.filter fun m => s.isReady (k.slotRef m)) = l
  have mem : n ∈ l := hl ▸ List.mem_filter.mpr ⟨mem_order_iff.mpr hn, isReady_iff.mpr ready⟩
  have alone : ∀ m ∈ l, m = n := by
    intro m hm
    obtain ⟨inCore, isReady⟩ := List.mem_filter.mp (hl ▸ hm)
    obtain ⟨o, go⟩ := isReady_iff.mp isReady
    refine Decidable.byContradiction fun h => ?_
    simp [attempt_of_not_mayIssue (rest m (mem_order_iff.mp inCore) h)] at go
  have counts : ∀ i, (l.contains i && i != n) = false := by
    intro i
    by_cases h : i ∈ l
    · simp [alone i h]
    · simp [h]
  simp only [State.issueCycle, fresh, hl, chooseSlot_of_only mem alone, counts, foldl_waitCount_now, Option.bind_some,
    Bool.false_eq_true, if_false]
  unfold State.issuing at issue
  rw [issue]

theorem step_of_issueCycle {t : State} (agenda : s.agenda = []) (ready : s.prepared s.cur.coreRef = s)
    (issue : s.issueCycle s.cur.coreRef = some (.next t)) : step s = .next t.tick := by
  simp [step, agenda, State.ownMove, ready, issue]

/-- Settles O6: the turn of the core changes nothing before the choice, the choice is the only ready slot, and its attempt is exec of
the decoded instruction. -/
theorem stepRunsTheDecodedInstruction : Obligations.StepRunsTheDecodedInstruction := by
  unfold Obligations.StepRunsTheDecodedInstruction
  intro s s2 n bs i len t agenda hn k r fresh quiet rest ready s1 may fetch b decoded s3 executed moved walkless
  have only : OnlyReady s k n := ⟨hn, ready, rest⟩
  have runs : s2.runBytes r bs = .next t := (runBytes_of_decode decoded).trans executed
  have issue : (s.issuing k n).attempt r = .go (.next t) := by
    rw [← runs] at moved walkless ⊢
    exact attempt_of_issue may fetch moved walkless
  exact step_of_issueCycle agenda (prepared_of_onlyReady only quiet) (issueCycle_of_onlyReady only fresh issue)

end Sys2Proof.Machine
end

section
/-! SUPPORT. The map of the task view for a core that is no supervisor: the region of an address by its range, and what an access to
a region resolves to (05 R106 to R116). -/

namespace Sys2Proof.Machine

open Sys2Proof

/-! ## Regions by range -/

section
variable {a : Nat}

theorem region_localStore (h : a < 0x8000) : region false a = .localStore a := if_pos h

theorem region_shared (lo : 0x10000 ≤ a) (hi : a < 0x30000) : region false a = .shared (a - 0x10000) := by
  rw [region, if_neg (by omega), if_pos (by omega)]

theorem region_aperture (lo : 0x30000 ≤ a) (hi : a < 0x32000) : region false a = .aperture (a - 0x30000) := by
  rw [region, if_neg (by omega), if_neg (by omega), if_pos (by omega)]

theorem region_vault (lo : 0x1000000 ≤ a) (hi : a < 0x2000000) : region false a = .vault (a - 0x1000000) := by
  rw [region, if_neg (by omega), if_neg (by omega), if_neg (by omega), if_pos (by omega)]

theorem region_inter (lo : 0x2000000 ≤ a) (hi : a < 0x2080000) : region false a = .inter (a - 0x2000000) := by
  rw [region, if_neg (by omega), if_neg (by omega), if_neg (by omega), if_neg (by omega), if_pos (by omega)]

theorem region_anyVault (lo : 2 ^ 32 ≤ a) (hi : a < 2 ^ 33) :
    region false a = .anyVault (a / 2 ^ 30 % 4) (a / 2 ^ 24 % 64) (a % 2 ^ 24) := by
  rw [region, if_neg (by omega), if_neg (by omega), if_neg (by omega), if_neg (by omega), if_neg (by omega), if_pos (by omega)]

theorem region_anyShared (lo : 2 ^ 33 ≤ a) (hi : a < 2 ^ 33 + 2 ^ 27) :
    region false a = .anyShared (a / 2 ^ 25 % 4) (a / 2 ^ 17 % 256) (a % 2 ^ 17) := by
  rw [region, if_neg (by omega), if_neg (by omega), if_neg (by omega), if_neg (by omega), if_neg (by omega), if_neg (by omega),
    if_pos (by omega)]

theorem region_trans (lo : 2 ^ 44 ≤ a) (hi : a < 2 ^ 52) : region false a = .trans := by
  rw [region, if_neg (by omega), if_neg (by omega), if_neg (by omega), if_neg (by omega), if_neg (by omega), if_neg (by omega),
    if_neg (by omega), if_pos (by omega)]

/-- A gap of the map (05 R115). -/
def Unmapped (a : Nat) : Prop :=
  (0x8000 ≤ a ∧ a < 0x10000) ∨ (0x32000 ≤ a ∧ a < 0x1000000) ∨ (0x2080000 ≤ a ∧ a < 2 ^ 32) ∨ (2 ^ 33 + 2 ^ 27 ≤ a ∧ a < 2 ^ 44) ∨
    2 ^ 52 ≤ a

theorem region_nothing (h : Unmapped a) : region false a = .nothing := by
  unfold Unmapped at h
  rw [region, if_neg (by omega), if_neg (by omega), if_neg (by omega), if_neg (by omega), if_neg (by omega), if_neg (by omega),
    if_neg (by omega), if_neg (by omega)]
  simp

end

/-! ## Accesses by region -/

section
variable {s : State} {r : SlotRef} {a n : Nat} {x : Access}

/-- What an access of bytes from a region resolves to, once its alignment is looked at (05 R116). -/
def alignedAcc (a n : Nat) (acc : Acc) : Acc := if a % n = 0 then acc else .fault (misaligned 1 a n)

theorem alignedAcc_of_aligned {acc : Acc} (h : a % n = 0) : alignedAcc a n acc = acc := if_pos h
theorem alignedAcc_of_misaligned {acc : Acc} (h : a % n ≠ 0) : alignedAcc a n acc = .fault (misaligned 1 a n) := if_neg h

/-- What an access of n bytes at its own alignment resolves to in a region (05 R107, R109, R115, R116). -/
def State.accessIn (s : State) (r : SlotRef) (a n : Nat) (x : Access) : Region → Acc
  | .localStore off => alignedAcc a n (.keys (keysFrom (localKey r off) n))
  | .shared off => alignedAcc a n (.keys (keysFrom (sharedKey r.coreRef off) n))
  | .aperture off => if a % n = 0 then .aperture off else .fault (misaligned 2 a n)
  | .vault off => alignedAcc a n (.keys (keysFrom (vaultKey r.quadRef off) n))
  | .inter off => alignedAcc a n (.keys ((List.range n).map fun i => interKey r.quadRef (off + i)))
  | .anyVault d q off =>
    if (s.shapeOf r.ctx).hasQuad d q then alignedAcc a n (.keys (keysFrom (vaultKey ⟨r.ctx, d, q⟩ off) n))
    else .fault { cls := 0x01, cause := 4, addr := toW a }
  | .anyShared d k off =>
    if (s.shapeOf r.ctx).hasCore d k then alignedAcc a n (.keys (keysFrom (sharedKey ⟨r.ctx, d, k⟩ off) n))
    else .fault { cls := 0x01, cause := 4, addr := toW a }
  | .debug off => alignedAcc a n (.debug off)
  | .ctl off => alignedAcc a n (.ctl off)
  | .trans => alignedAcc a n (s.transAccess r a n x)
  | .nothing => alignedAcc a n (.fault (transFault 1 a 0 x))

/-- An access at its own alignment goes by the region of its address: the coordinates of a window come before alignment, and
alignment before the range (05 R116). -/
theorem access_eq_accessIn : s.access r a n n x = s.accessIn r a n x (region (r.core == supCore) a) := by
  unfold State.access State.accessIn alignedAcc
  generalize region (r.core == supCore) a = reg
  cases reg with
  | anyVault d q off => by_cases named : (s.shapeOf r.ctx).hasQuad d q <;> by_cases al : a % n = 0 <;> simp [named, al]
  | anyShared d k off => by_cases named : (s.shapeOf r.ctx).hasCore d k <;> by_cases al : a % n = 0 <;> simp [named, al]
  | _ => by_cases al : a % n = 0 <;> simp [al]

theorem transAccess_miss (h : s.tlbOf r.quadRef a = none) : s.transAccess r a n x = .walk a x := by simp [State.transAccess, h]

theorem transAccess_forbidden {e : TlbEnt} (h : s.tlbOf r.quadRef a = some e) (no : permits e.pte x = false) :
    s.transAccess r a n x = .fault (transFault 2 a (bitsLevel e.bits) x) := by simp [State.transAccess, h, no]

end

/-- Settles O33: the region of the address by its range, then the access by its region. -/
theorem alignmentAndTheMap : Obligations.AlignmentAndTheMap := by
  unfold Obligations.AlignmentAndTheMap
  intro s r a n x notSup acc bytes outside none_
  have sup : (r.core == supCore) = false := by simpa using notSup
  have byRegion {reg : Region} (h : region false a = reg) : acc = s.accessIn r a n x reg := by
    rw [← h, ← sup]
    exact access_eq_accessIn
  have unmapped (h : Unmapped a) : none_ := byRegion (region_nothing h)
  refine ⟨fun h => byRegion (region_localStore h), fun lo hi => unmapped (.inl ⟨lo, hi⟩), fun lo hi => byRegion (region_shared lo hi),
    fun lo hi => byRegion (region_aperture lo hi), fun lo hi => unmapped (.inr (.inl ⟨lo, hi⟩)), fun lo hi => byRegion (region_vault lo hi),
    fun lo hi => byRegion (region_inter lo hi), fun lo hi => unmapped (.inr (.inr (.inl ⟨lo, hi⟩))),
    fun lo hi => byRegion (region_anyVault lo hi), fun lo hi => byRegion (region_anyShared lo hi),
    fun lo hi => unmapped (.inr (.inr (.inr (.inl ⟨lo, hi⟩)))), fun lo hi => ?_, fun lo => unmapped (.inr (.inr (.inr (.inr lo))))⟩
  have translated : acc = alignedAcc a n (s.transAccess r a n x) := byRegion (region_trans lo hi)
  refine ⟨fun mis => translated.trans (alignedAcc_of_misaligned mis),
    fun al miss => translated.trans ((alignedAcc_of_aligned al).trans (transAccess_miss miss)),
    fun e al hit no => translated.trans ((alignedAcc_of_aligned al).trans (transAccess_forbidden hit no))⟩

end Sys2Proof.Machine
end

section
/-! SUPPORT. Every step keeps the memory in its canonical form (05 R106; log 2). A function of the model that answers a package changes the
memory by stores, wipes, copies and filters alone, and each of these keeps the form (`store_wf`, `wipe_wf`, `copyRange_wf`, `forgetCtx_wf`,
`filter_wf`). First what is said of the answers of each shape, and one rule for each way in which a body is put together; then for every
function `f` of the model, in the model's order, the lemma `f_inv`: from a canonical package, or from an answer that carries one, `f` answers
a canonical one. -/

namespace Sys2Proof.Machine

open Sys2Proof

/-! ## The predicate on answers -/

/-- The state that a function may answer is canonical. -/
def OptInv (o : Option State) : Prop := ∀ t, o = some t → t.Inv

/-- The state beside what a function may answer is canonical. -/
def OptSndInv {α : Type} (o : Option (α × State)) : Prop := ∀ x, o = some x → x.2.Inv

/-- The next state of an outcome is canonical. -/
def OutInv (o : Host.Outcome State Fault Refusal) : Prop := ∀ t, o = .next t → t.Inv

/-- The state in which a body ends is canonical. -/
def ResInv : Res → Prop
  | .ok s => s.Inv
  | .trap _ => True
  | .wait _ _ => True
  | .hold s _ _ => s.Inv
  | .stay s => s.Inv

/-- The reading of a record that does not stop carries no state; one that stops ends in a canonical state. -/
def RecInv : Rec → Prop
  | .stop x => ResInv x
  | .val _ => True

/-- A page's data, moved or not, leave a canonical state. -/
def DataEndInv : DataEnd → Prop
  | .moved s => s.Inv
  | .failed _ s => s.Inv
  | .pending _ s => s.Inv

/-- A copy's line, made or not, leaves a canonical state. -/
def LineResInv : LineRes → Prop
  | .made l => l.s.Inv
  | .pending s => s.Inv
  | .failed s _ => s.Inv

/-- An array's row, landed or not, leaves a canonical state. -/
def RowResInv : RowRes → Prop
  | .pending s => s.Inv
  | .failed s _ => s.Inv
  | .landed s => s.Inv

/-- An array's read, answered or not, leaves a canonical state. -/
def FetchedInv : Fetched → Prop
  | .bytes _ s => s.Inv
  | .pending s => s.Inv
  | .failed _ s => s.Inv

/-- The attempt of a slot to issue ends in a canonical state. -/
def AttemptInv : Attempt → Prop
  | .idle => True
  | .walk s => s.Inv
  | .go o => OutInv o

/-- What stops the reading of a record ends in a canonical state. -/
def ExcInv {α : Type} (x : Except Res α) : Prop := ∀ r, x = .error r → ResInv r

/-- A poster whose reads and refusals end in canonical states. -/
def PosterInv (p : Poster) : Prop := (∀ a n al, RecInv (p.rd a n al)) ∧ ∀ a, ResInv (p.bad a)

/-- How a command of an array ends: the package that it makes, and the one that its search for pages leaves. -/
def CmdInv (x : Option (State × Option (Trap × Nat)) × State) : Prop := (∀ y, x.1 = some y → y.1.Inv) ∧ x.2.Inv

/-- A body ends in a canonical state where it begins in one. -/
def BodyInv (b : Body) : Prop := ∀ (r : SlotRef) (t : Slot) (s : State), s.Inv → ResInv (b r t s)

/-! ## Shapes of bodies -/

section
variable {s t a b : State} {α : Type}

/-- The invariant speaks of the memory alone. -/
theorem inv_of_mem (h : s.Inv) (e : t.mem = s.mem := by exact rfl) : t.Inv := by
  unfold State.Inv at h ⊢
  rw [e]
  exact h

section
variable {c : Prop} [Decidable c]

theorem ite_inv (ha : a.Inv) (hb : b.Inv) : (if c then a else b).Inv :=
  iteInduction (motive := State.Inv) (fun _ => ha) fun _ => hb

theorem sndInv_ite {x y : α × State} (hx : x.2.Inv) (hy : y.2.Inv) : (if c then x else y).2.Inv :=
  iteInduction (motive := fun p : α × State => p.2.Inv) (fun _ => hx) fun _ => hy

theorem optInv_ite {x y : Option State} (hx : OptInv x) (hy : OptInv y) : OptInv (if c then x else y) :=
  iteInduction (motive := OptInv) (fun _ => hx) fun _ => hy

theorem outInv_ite {x y : Host.Outcome State Fault Refusal} (hx : OutInv x) (hy : OutInv y) : OutInv (if c then x else y) :=
  iteInduction (motive := OutInv) (fun _ => hx) fun _ => hy

theorem dataEndInv_ite {x y : DataEnd} (hx : DataEndInv x) (hy : DataEndInv y) : DataEndInv (if c then x else y) :=
  iteInduction (motive := DataEndInv) (fun _ => hx) fun _ => hy

theorem rowResInv_ite {x y : RowRes} (hx : RowResInv x) (hy : RowResInv y) : RowResInv (if c then x else y) :=
  iteInduction (motive := RowResInv) (fun _ => hx) fun _ => hy

theorem attemptInv_ite {x y : Attempt} (hx : AttemptInv x) (hy : AttemptInv y) : AttemptInv (if c then x else y) :=
  iteInduction (motive := AttemptInv) (fun _ => hx) fun _ => hy

theorem recInv_ite {x y : Rec} (hx : RecInv x) (hy : RecInv y) : RecInv (if c then x else y) :=
  iteInduction (motive := RecInv) (fun _ => hx) fun _ => hy

theorem resInv_ite {x y : Res} (hx : ResInv x) (hy : ResInv y) : ResInv (if c then x else y) :=
  iteInduction (motive := ResInv) (fun _ => hx) fun _ => hy

end

theorem optInv_none : OptInv none := fun _ e => nomatch e

theorem optInv_some (h : s.Inv) : OptInv (some s) := fun _ e => Option.some.inj e ▸ h

theorem optSndInv_none : OptSndInv (none : Option (α × State)) := fun _ e => nomatch e

theorem optSndInv_some {x : α × State} (h : x.2.Inv) : OptSndInv (some x) := fun _ e => Option.some.inj e ▸ h

theorem optInv_getD {o : Option State} (ho : OptInv o) (h : s.Inv) : (o.getD s).Inv := by
  cases o with
  | none => exact h
  | some t => exact ho t rfl

theorem outInv_next (h : s.Inv) : OutInv (.next s) := by
  intro t e
  cases e
  exact h

theorem recInv_eq {x y : Rec} (e : x = y) (h : RecInv x) : RecInv y := e ▸ h

theorem dataEndInv_eq {x y : DataEnd} (e : x = y) (h : DataEndInv x) : DataEndInv y := e ▸ h

theorem lineResInv_eq {x y : LineRes} (e : x = y) (h : LineResInv x) : LineResInv y := e ▸ h

theorem rowResInv_eq {x y : RowRes} (e : x = y) (h : RowResInv x) : RowResInv y := e ▸ h

theorem fetchedInv_eq {x y : Fetched} (e : x = y) (h : FetchedInv x) : FetchedInv y := e ▸ h

theorem attemptInv_eq {x y : Attempt} (e : x = y) (h : AttemptInv x) : AttemptInv y := e ▸ h

theorem snd_inv {p : α × State} {x : α} (h : p.2.Inv) (e : p = (x, s)) : s.Inv := by
  rw [e] at h
  exact h

theorem inv_of_wf (w : Memory.wf s.mem = true) : s.Inv := w

theorem excInv_ok {x : α} : ExcInv (.ok x) := fun _ e => nomatch e

theorem excInv_error {x : Res} (h : ResInv x) : ExcInv (.error x : Except Res α) := by
  intro r e
  cases e
  exact h

theorem excInv_ite {c : Prop} [Decidable c] {x y : Except Res α} (hx : ExcInv x) (hy : ExcInv y) :
    ExcInv (if c then x else y) :=
  iteInduction (motive := ExcInv) (fun _ => hx) fun _ => hy

theorem excInv_bind {β : Type} {x : Except Res α} {f : α → Except Res β} (hx : ExcInv x) (hf : ∀ y, ExcInv (f y)) :
    ExcInv (x >>= f) := by
  cases x with
  | error r => exact excInv_error (hx r rfl)
  | ok y => exact hf y

theorem cmdInv_none (h : s.Inv) : CmdInv (none, s) := ⟨fun _ e => (nomatch e), h⟩

theorem cmdInv_some {x : Option (Trap × Nat)} (h : s.Inv) : CmdInv (some (s, x), s) := ⟨fun _ e => Option.some.inj e ▸ h, h⟩

theorem foldl_inv {f : State → α → State} (hf : ∀ (s : State) (x : α), s.Inv → (f s x).Inv) {l : List α} (h : s.Inv) :
    (l.foldl f s).Inv := by
  induction l generalizing s with
  | nil => exact h
  | cons x l ih => exact ih (hf s x h)

theorem iter_inv {f : Nat → State → State} (hf : ∀ (i : Nat) (s : State), s.Inv → (f i s).Inv) {n : Nat} (h : s.Inv) :
    (iter n f s).Inv :=
  foldl_inv (fun s i => hf i s) h

end

end Sys2Proof.Machine
end

section
/-! SUPPORT. Each function of the model keeps the canonical form, in the model's order, from the stores up to the step. -/

namespace Sys2Proof.Machine

open Sys2Proof

variable {s : State}

-- One proof after another: together the proofs of this section would need more threads than the check's memory allows.
set_option Elab.async false

/-! ## The memory -/

theorem store_inv {ps : List (Nat × Byte)} (h : s.Inv) : (s.store ps).Inv := store_wf _ h

theorem storeLE_inv {k n v : Nat} (h : s.Inv) : (s.storeLE k n v).Inv := store_inv h

theorem wipe_inv {k n : Nat} (h : s.Inv) : (s.wipe k n).Inv := wipe_wf _ _ h

theorem setFull_inv {k : Nat} {b : Bool} (h : s.Inv) : (s.setFull k b).Inv := inv_of_mem h

/-! ## Slots, cores, quads and dies -/

theorem setSlot_inv {r : SlotRef} {t : Slot} (h : s.Inv) : (s.setSlot r t).Inv := inv_of_mem h

theorem modSlot_inv {r : SlotRef} {f : Slot → Slot} (h : s.Inv) : (s.modSlot r f).Inv := setSlot_inv h

theorem modCore_inv {k : CoreRef} {f : Core → Core} (h : s.Inv) : (s.modCore k f).Inv := inv_of_mem h

theorem modQuad_inv {q : QuadRef} {f : Quad → Quad} (h : s.Inv) : (s.modQuad q f).Inv := inv_of_mem h

theorem modDie_inv {cx d : Nat} {f : Die → Die} (h : s.Inv) : (s.modDie cx d f).Inv := inv_of_mem h

theorem modPdie_inv {d : Nat} {f : PDie → PDie} (h : s.Inv) : (s.modPdie d f).Inv := inv_of_mem h

theorem modCtx_inv {cx : Nat} {f : Ctx → Ctx} (h : s.Inv) : (s.modCtx cx f).Inv := inv_of_mem h

theorem modPart_inv {p : Nat} {f : Part → Part} (h : s.Inv) : (s.modPart p f).Inv := inv_of_mem h

theorem modPeer_inv {p : Nat} {f : Peer → Peer} (h : s.Inv) : (s.modPeer p f).Inv := inv_of_mem h

theorem modBox_inv {k : CoreRef} {b : Nat} {f : Box → Box} (h : s.Inv) : (s.modBox k b f).Inv := inv_of_mem h

theorem linkGood_inv {p : Nat} (h : s.Inv) : (s.linkGood p).Inv := by
  unfold State.linkGood
  split
  · exact ite_inv h (inv_of_mem h)
  · exact h

/-! ## Counts and batches -/

theorem writeOver_inv {pd : Nat} {old new : Map Delta} (h : s.Inv) : (s.writeOver pd old new).Inv :=
  foldl_inv (fun _ _ h' => ite_inv h' (store_inv h')) (foldl_inv (fun _ _ h' => ite_inv (storeLE_inv h') h') h)

theorem spillDie_inv {pd : Nat} (h : s.Inv) : (s.spillDie pd).Inv :=
  ite_inv h (foldl_inv (fun _ _ h' => modDie_inv h') (writeOver_inv h))

theorem spillRoot_inv (h : s.Inv) : s.spillRoot.Inv := ite_inv h (foldl_inv (fun _ _ h' => modCtx_inv h') (writeOver_inv h))

theorem flush_inv {k : CoreRef} {owner : Option (SlotRef × Nat × Time)} (h : s.Inv) : (s.flush k owner).Inv :=
  ite_inv h (modCtx_inv (modCore_inv (inv_of_mem h)))

theorem countBy_inv {o : Origin} {k : CoreRef} {loc : Nat} {t : Time} {held : Bool} {d : Int} (h : s.Inv) :
    (s.countBy o k loc t held d).Inv :=
  ite_inv h (modCore_inv (ite_inv (flush_inv h) h))

theorem count_inv {k : CoreRef} {loc : Nat} {t : Time} {held : Bool} {d : Int} (h : s.Inv) : (s.count k loc t held d).Inv :=
  countBy_inv h

theorem dieAccept_inv {cx : Nat} {b : Batch} (h : s.Inv) : (s.dieAccept cx b).Inv := modCtx_inv (spillDie_inv (modDie_inv h))

theorem dieCount_inv {cx d loc : Nat} {t : Time} {n : Int} (h : s.Inv) : (s.dieCount cx d loc t n).2.Inv := by
  unfold State.dieCount
  extract_lets +onlyGivenNames _ s1
  have i1 : s1.Inv := inv_of_mem h
  exact ite_inv (modCtx_inv i1) (dieAccept_inv i1)

/-! ## Accesses and the store buffer -/

theorem bridgeOut_inv {cx d : Nat} {ls : List Nat} (h : s.Inv) : (s.bridgeOut cx d ls).Inv := by
  unfold State.bridgeOut
  refine foldl_inv (fun _ _ h' => ?_) h
  extract_lets +onlyGivenNames s1
  have i1 : s1.Inv := foldl_inv (fun _ _ h2 => store_inv h2) h'
  clear_value s1
  exact inv_of_mem i1

theorem arrived_inv {r : SlotRef} {fs : List Flight} (h : s.Inv) : (s.arrived r fs).Inv := bridgeOut_inv h

theorem sampleAll_inv {r : SlotRef} (h : s.Inv) : (s.sampleAll r).Inv := modSlot_inv (arrived_inv h)

theorem samplePlaces_inv {r : SlotRef} {hits : List Bool} (h : s.Inv) : (s.samplePlaces r hits).Inv :=
  modSlot_inv (arrived_inv h)

theorem sampleLines_inv {r : SlotRef} {ls : List Nat} (h : s.Inv) : (s.sampleLines r ls).Inv := samplePlaces_inv h

theorem dropReadCache_inv {q : QuadRef} (h : s.Inv) : (s.dropReadCache q).Inv := modQuad_inv h

theorem drainIf_inv {r : SlotRef} {go : SbEnt → Bool} (h : s.Inv) : (s.drainIf r go).Inv :=
  modQuad_inv (foldl_inv (fun _ _ h' => store_inv h') (bridgeOut_inv h))

theorem drain_inv {r : SlotRef} (h : s.Inv) : (s.drain r).Inv := drainIf_inv h

theorem drainQuad_inv {q : QuadRef} (h : s.Inv) : (s.drainQuad q).Inv :=
  modQuad_inv (foldl_inv (fun _ _ h' => store_inv h') (bridgeOut_inv h))

theorem drainLines_inv {q : QuadRef} {ls : List Nat} (h : s.Inv) : (s.drainLines q ls).Inv :=
  modQuad_inv (foldl_inv (fun _ _ h' => store_inv h') (bridgeOut_inv h))

theorem toBridge_inv {r : SlotRef} (h : s.Inv) : (s.toBridge r).Inv := ite_inv h (modQuad_inv (bridgeOut_inv h))

theorem mapSb_inv {cx d : Nat} {f : SbEnt → SbEnt} (h : s.Inv) : (s.mapSb cx d f).Inv := inv_of_mem h

theorem markReleased_inv {r : SlotRef} {sc : Scope} (h : s.Inv) : (s.markReleased r sc).Inv := mapSb_inv h

theorem inherit_inv {r : SlotRef} {sc : Scope} (h : s.Inv) : (s.inherit r sc).Inv := mapSb_inv h

theorem perform_inv {r : SlotRef} {sc : Scope} (h : s.Inv) : (s.perform r sc).Inv := by
  unfold State.perform
  extract_lets +onlyGivenNames s1
  have i1 : s1.Inv := markReleased_inv (sampleAll_inv h)
  exact ite_inv (drain_inv (bridgeOut_inv i1)) (ite_inv (toBridge_inv (drainIf_inv i1)) i1)

theorem release_inv {r : SlotRef} {sc : Scope} (h : s.Inv) : (s.release r sc).Inv := modSlot_inv (perform_inv h)

theorem meetFence_inv {r : SlotRef} {x : Bool × Bool × Bool} (h : s.Inv) : (s.meetFence r x).Inv := by
  unfold State.meetFence
  extract_lets +onlyGivenNames _
  split
  · exact ite_inv (release_inv h) h
  · exact ite_inv (release_inv h) h
  · exact h

theorem acquire_inv {r : SlotRef} {sc : Scope} (h : s.Inv) : (s.acquire r sc).Inv :=
  ite_inv (dropReadCache_inv (inherit_inv h)) (inherit_inv h)

theorem put_inv {r : SlotRef} {ps : List (Nat × Byte)} (h : s.Inv) : (s.put r ps).Inv := by
  unfold State.put
  extract_lets +onlyGivenNames s1
  have i1 : s1.Inv := sampleLines_inv h
  extract_lets +onlyGivenNames _ _ s2
  have i2 : s2.Inv := ite_inv i1 (store_inv (drainLines_inv i1))
  exact ite_inv i2 (modQuad_inv i2)

/-! ## Operations at a home -/

theorem fly_inv {r : SlotRef} {f : Flight} (h : s.Inv) : (s.fly r f).Inv := modSlot_inv h

theorem ldfStep_inv {r : SlotRef} {dst : Reg} {k : Nat} {z : BitVec 1} {take : Bool} {acq : Option Scope} (h : s.Inv) :
    (s.ldfStep r dst k z take acq).Inv := by
  unfold State.ldfStep
  extract_lets +onlyGivenNames _ _ s1
  have i1 : s1.Inv := drainLines_inv (sampleLines_inv h)
  exact fly_inv (ite_inv (foldl_inv (fun _ _ h' => setFull_inv h') i1) i1)

theorem serveLdf_inv {r : SlotRef} (h : s.Inv) : (s.serveLdf r).Inv := by
  unfold State.serveLdf
  split
  · split
    · exact ite_inv (ldfStep_inv (setSlot_inv h)) h
    · exact h
  · exact h

theorem fill_inv {k : Nat} (h : s.Inv) : (s.fill k).Inv := foldl_inv (fun _ _ h' => serveLdf_inv h') (setFull_inv h)

theorem setFullIf_inv {c : Bool} {k : Nat} (h : s.Inv) : (s.setFullIf c k).Inv := ite_inv (fill_inv h) h

theorem atomicStep_inv {r : SlotRef} {ks : List Nat} {f : Aop} {b new : W32} (h : s.Inv) : (s.atomicStep r ks f b new).2.Inv :=
  store_inv (drainLines_inv h)

theorem feStep_inv {r : SlotRef} {op : FeOp} {k : Nat} (h : s.Inv) : (s.feStep r op k).2.Inv := by
  unfold State.feStep
  extract_lets +onlyGivenNames s1
  have i1 : s1.Inv := drainLines_inv h
  split
  · exact fill_inv i1
  · exact setFull_inv i1
  · exact fill_inv (storeLE_inv i1)
  · exact i1

theorem homeOp_inv {r : SlotRef} {f : Flight} (h : s.Inv) : OptSndInv (s.homeOp r f) := by
  unfold State.homeOp
  split
  · exact optSndInv_some (atomicStep_inv h)
  · exact optSndInv_some (feStep_inv h)
  · exact optSndInv_none

theorem homeAt_inv {r : SlotRef} {i : Nat} (h : s.Inv) : (s.homeAt r i).Inv := by
  unfold State.homeAt
  split
  · rename_i x e
    obtain ⟨f, -, hf⟩ := Option.bind_eq_some_iff.mp e
    exact modSlot_inv (homeOp_inv h x hf)
  · exact h

theorem homeIf_inv {r : SlotRef} {go : Nat → Bool} (h : s.Inv) : (s.homeIf r go).Inv :=
  foldl_inv (fun _ _ h' => ite_inv (homeAt_inv h') h') (sampleLines_inv h)

theorem atomicsHome_inv {r : SlotRef} (h : s.Inv) : (s.atomicsHome r).Inv := homeIf_inv h

theorem sampleEverywhere_inv {ls : List Nat} (h : s.Inv) : (s.sampleEverywhere ls).Inv :=
  foldl_inv (fun _ _ h' => ite_inv h' (sampleLines_inv (homeIf_inv h'))) h

theorem landOne_inv {r : SlotRef} {i : Nat} (h : s.Inv) : (s.landOne r i).Inv := by
  unfold State.landOne
  split
  · exact h
  · extract_lets +onlyGivenNames s1
    have i1 : s1.Inv := homeAt_inv (samplePlaces_inv h)
    extract_lets +onlyGivenNames _ _
    split
    · exact ite_inv (setSlot_inv i1) i1
    · exact setSlot_inv i1
    · exact acquire_inv (setSlot_inv i1)
    · exact i1

theorem landSlot_inv {r : SlotRef} (h : s.Inv) : (s.landSlot r).Inv := by
  unfold State.landSlot
  refine foldl_inv (fun _ _ h' => ?_) (setSlot_inv (arrived_inv h))
  split
  · exact acquire_inv h'
  · exact h'

theorem landBusy_inv {r : SlotRef} (h : s.Inv) : (s.landBusy r).Inv := ite_inv h (landSlot_inv (atomicsHome_inv h))

/-! ## Results and faults of a slot -/

theorem wakeSup_inv {pd : Nat} (h : s.Inv) : (s.wakeSup pd).Inv := foldl_inv (fun _ _ h' => modSlot_inv h') h

theorem pushPacket_inv {pd : Nat} {p : Packet} (h : s.Inv) : (s.pushPacket pd p).Inv := wakeSup_inv (modPdie_inv (store_inv h))

theorem offer_inv {pd : Nat} {p : Packet} (h : s.Inv) : (s.offer pd p).Inv := ite_inv (pushPacket_inv h) (modPdie_inv h)

theorem report_inv {pd ctx : Nat} {r : SlotRef} {who pc : Word} {iword : W32} {tr : Trap} (h : s.Inv) :
    (s.report pd ctx r who pc iword tr).Inv :=
  offer_inv h

theorem notice_inv {pd ctx cause : Nat} {addr : Word} (h : s.Inv) : (s.notice pd ctx cause addr).Inv := offer_inv h

theorem stopGroup_inv {pd g : Nat} (h : s.Inv) : (s.stopGroup pd g).Inv := by
  unfold State.stopGroup
  refine foldl_inv (fun _ _ h' => ?_) (modPdie_inv h)
  refine ite_inv ?_ h'
  split
  · exact foldl_inv (fun _ _ h2 => landBusy_inv h2) (flush_inv h')
  · exact h'

theorem haltStop_inv {n : Nat} {l : List (Nat × Nat)} (h : s.Inv) : (s.haltStop n l).Inv := by
  induction n generalizing s l with
  | zero => exact h
  | succ n ih =>
    cases l with
    | nil => exact h
    | cons x l => exact ite_inv (ih h) (ih (stopGroup_inv h))

theorem haltGroups_inv {pd : Nat} {gs : List Nat} (h : s.Inv) : (s.haltGroups pd gs).Inv := haltStop_inv h

theorem sendPacket_inv {r : SlotRef} {p : Packet} (h : s.Inv) : (s.sendPacket r p).Inv := by
  unfold State.sendPacket
  refine ite_inv ?_ (ite_inv (pushPacket_inv h) (modSlot_inv h))
  extract_lets +onlyGivenNames s1
  have i1 : s1.Inv := modPdie_inv h
  clear_value s1
  exact inv_of_mem i1

theorem freeze_inv {r : SlotRef} {pc : Word} {len : Nat} {tr : Trap} (h : s.Inv) : (s.freeze r pc len tr).Inv :=
  haltGroups_inv (sendPacket_inv (modSlot_inv (modSlot_inv (landSlot_inv h))))

theorem takeFault_inv {r : SlotRef} {pc : Word} {len : Nat} {tr : Trap} (h : s.Inv) : (s.takeFault r pc len tr).Inv :=
  ite_inv (freeze_inv h) (modSlot_inv h)

theorem freezeLate_inv {r : SlotRef} (h : s.Inv) : (s.freezeLate r).Inv := by
  unfold State.freezeLate
  split
  · extract_lets +onlyGivenNames s1
    have i1 : s1.Inv := atomicsHome_inv h
    exact ite_inv (freeze_inv i1) i1
  · exact h

theorem unfreeze_inv {r : SlotRef} {pc : Word} (h : s.Inv) : (s.unfreeze r pc).Inv := by
  unfold State.unfreeze
  extract_lets +onlyGivenNames s1
  have i1 : s1.Inv := by
    unfold s1
    split
    · exact offer_inv h
    · exact h
  exact modSlot_inv i1

theorem startWait_inv {r : SlotRef} {i : Instr} {len : Nat} {lim : Word} {w : WaitInfo} (h : s.Inv) :
    (s.startWait r i len lim w).Inv :=
  modSlot_inv (inv_of_mem h)

theorem finishRes_inv {s0 : State} {r : SlotRef} {i : Instr} {len : Nat} {x : Res} (h0 : s0.Inv) (hx : ResInv x) :
    (finishRes s0 r i len x).Inv := by
  cases x with
  | ok s => exact hx
  | trap tr => exact takeFault_inv h0
  | wait lim w => exact startWait_inv h0
  | hold s lim w => exact startWait_inv (s := s) hx
  | stay s => exact hx

theorem runBody_inv {i : Instr} {c : Ctl} {len : Nat} {reads writes : List Reg} {body : Body} (hbody : BodyInv body)
    (h : s.Inv) : (runBody i c len reads writes body s).Inv := by
  unfold runBody
  refine ite_inv h ?_
  extract_lets +onlyGivenNames _ _
  split
  · exact takeFault_inv (meetFence_inv h)
  · exact finishRes_inv (meetFence_inv h) (hbody _ _ _ (setSlot_inv (meetFence_inv h)))

theorem issue_inv {i : Instr} {c : Ctl} {len : Nat} {forbidden : Bool} {reads writes : Slot → List Reg} {on : Slot → Bool}
    {body : Body} (hbody : BodyInv body) (h : s.Inv) : OutInv (issue i c len forbidden reads writes on body s) := by
  unfold issue
  refine outInv_ite (outInv_next h) ?_
  refine outInv_ite (outInv_next (takeFault_inv h)) ?_
  split
  · exact outInv_next (takeFault_inv h)
  · exact outInv_ite (outInv_next (runBody_inv hbody h)) (outInv_next (setSlot_inv h))

theorem issueLanes_inv {i : Instr} {c : Ctl} {len : Nat} {reads writes : Slot → List Reg} {on : Slot → Bool} {body : Body}
    (hbody : BodyInv body) (h : s.Inv) : OutInv (issueLanes i c len reads writes on body s) := by
  unfold issueLanes
  extract_lets +onlyGivenNames _ _
  split
  · exact outInv_next (takeFault_inv h)
  · exact issue_inv hbody h

theorem later_inv {r : SlotRef} {lat : Nat} {ws : List RegWrite} (h : s.Inv) : (s.later r lat ws).Inv := modSlot_inv h

theorem okBody_inv {f : SlotRef → Slot → State → State} {x : SlotRef} {t : Slot} (hf : ∀ x1 t1 u, State.Inv u → (f x1 t1 u).Inv)
    (h : s.Inv) : ResInv (okBody f x t s) :=
  hf _ _ _ h

/-! ## Walks -/

theorem startWalk_inv {r : SlotRef} {va : Nat} {x : Access} {len : Nat} (h : s.Inv) : (s.startWalk r va x len).Inv :=
  ite_inv h (modSlot_inv h)

theorem agentDirty_inv {cx a : Nat} (h : s.Inv) : (s.agentDirty cx a).Inv := by
  unfold State.agentDirty
  split
  · split
    · exact ite_inv (storeLE_inv h) h
    · exact h
  · exact h

/-! ## Flags -/

theorem flag_inv {r : SlotRef} {f : BitVec 5} (h : s.Inv) : (s.flag r f).Inv := modSlot_inv h

/-! ## Scalar instructions -/

theorem alu_inv {i : Instr} {c : Ctl} {d a b : Spec} {lat : Nat} {f : Word → Word → Word} (h : s.Inv) :
    OutInv (alu i c d a b lat f s) :=
  issue_inv (fun _ _ _ h' => okBody_inv (fun _ _ _ h2 => later_inv h2) h') h

theorem alu1_inv {i : Instr} {c : Ctl} {d a : Spec} {f : Word → Word} (h : s.Inv) : OutInv (alu1 i c d a f s) :=
  issue_inv (fun _ _ _ h' => okBody_inv (fun _ _ _ h2 => later_inv h2) h') h

theorem aluVar_inv {i : Instr} {c : Ctl} {d a b : Spec} {f : Word → Word → Word} (h : s.Inv) : OutInv (aluVar i c d a b f s) :=
  issue_inv (fun _ _ _ h' => okBody_inv (fun _ _ _ h2 => fly_inv h2) h') h

theorem execLi_inv {c : Ctl} {d : Spec} {i : BitVec 14} (h : s.Inv) : OutInv (execLi c d i s) :=
  issue_inv (fun _ _ _ h' => okBody_inv (fun _ _ _ h2 => later_inv h2) h') h

theorem execLis_inv {c : Ctl} {d : Spec} {i : BitVec 14} (h : s.Inv) : OutInv (execLis c d i s) :=
  issue_inv (fun _ _ _ h' => okBody_inv (fun _ _ _ h2 => later_inv h2) h') h

theorem execAdpc_inv {c : Ctl} {d : Spec} {i : BitVec 14} (h : s.Inv) : OutInv (execAdpc c d i s) :=
  issue_inv (fun _ _ _ h' => okBody_inv (fun _ _ _ h2 => later_inv h2) h') h

theorem execPcmp_inv {c : Ctl} {p e : PSpec} {a b : Spec} {f : PCond} (h : s.Inv) : OutInv (execPcmp c p e a b f s) :=
  issue_inv (fun _ _ _ h' => okBody_inv (fun _ _ _ h2 => later_inv h2) h') h

theorem plog_inv {i : Instr} {c : Ctl} {p : PSpec} {reads : Slot → List Reg} {f : Slot → W32} (h : s.Inv) :
    OutInv (plog i c p reads f s) :=
  issue_inv (fun _ _ _ h' => okBody_inv (fun _ _ _ h2 => later_inv h2) h') h

theorem pscalar_inv {i : Instr} {c : Ctl} {a : Spec} {ps : List PSpec} {f : Slot → Word} (h : s.Inv) :
    OutInv (pscalar i c a ps f s) :=
  issue_inv (fun _ _ _ h' => okBody_inv (fun _ _ _ h2 => later_inv h2) h') h

/-! ## Control -/

theorem execBr_inv {c : Ctl} {o : BitVec 19} (h : s.Inv) : OutInv (execBr c o s) :=
  issue_inv (fun _ _ _ h' => okBody_inv (fun _ _ _ h2 => modSlot_inv h2) h') h

theorem spillOne_inv {r : SlotRef} (h : s.Inv) : (spillOne r s).Inv := modSlot_inv (put_inv h)

theorem fillOne_inv {r : SlotRef} (h : s.Inv) : (fillOne r s).Inv := modSlot_inv h

theorem callTo_inv {len : Nat} {target : Slot → Word} {x : SlotRef} {t : Slot} (h : s.Inv) : ResInv (callTo len target x t s) :=
  resInv_ite trivial (resInv_ite (setSlot_inv h) (modSlot_inv (ite_inv
    (iter_inv (fun _ _ h' => spillOne_inv h') (modSlot_inv h)) h)))

theorem execJr_inv {c : Ctl} {a : Spec} (h : s.Inv) : OutInv (execJr c a s) := by
  unfold execJr
  refine issue_inv (fun _ _ _ h' => ?_) h
  split
  · exact trivial
  · exact modSlot_inv h'

theorem execCallr_inv {c : Ctl} {a : Spec} (h : s.Inv) : OutInv (execCallr c a s) := by
  unfold execCallr
  refine issue_inv (fun _ _ _ h' => ?_) h
  split
  · exact trivial
  · exact callTo_inv h'

theorem execRet_inv {c : Ctl} (h : s.Inv) : OutInv (execRet c s) := by
  unfold execRet
  refine issue_inv (fun _ _ _ h' => ?_) h
  refine resInv_ite trivial ?_
  split
  · exact trivial
  · refine resInv_ite (setSlot_inv h') ?_
    split
    · exact trivial
    · exact modSlot_inv (ite_inv (iter_inv (fun _ _ h2 => fillOne_inv h2) (modSlot_inv h')) h')

theorem bodyPark_inv {a : Spec} {x : SlotRef} {t : Slot} (h : s.Inv) : ResInv (bodyPark a x t s) :=
  resInv_ite (modSlot_inv h) trivial

theorem execRsync_inv {c : Ctl} (h : s.Inv) : OutInv (execRsync c s) :=
  issue_inv (fun _ _ _ h' => okBody_inv (fun _ _ _ h2 => modSlot_inv h2) h') h

/-! ## Control registers -/

theorem debugPred_inv {r : SlotRef} {o : Nat} {b : Byte} (h : s.Inv) : (s.debugPred r o b).Inv := modSlot_inv h

theorem debugPut_inv {r : SlotRef} {o : Nat} {x : Word} (h : s.Inv) : (s.debugPut r o x).Inv :=
  ite_inv (modSlot_inv h) (ite_inv (modSlot_inv h) (ite_inv (modSlot_inv h)
    (ite_inv (modSlot_inv h) (ite_inv (modSlot_inv h) (ite_inv (modSlot_inv h)
    (ite_inv (ite_inv (modQuad_inv h) (modSlot_inv h)) (ite_inv (modSlot_inv h) (ite_inv (modSlot_inv h) h))))))))

theorem debugWrite_inv {pd off : Nat} {bs : List Byte} (h : s.Inv) : (s.debugWrite pd off bs).Inv := by
  unfold State.debugWrite
  refine ite_inv ?_ ?_
  · extract_lets +onlyGivenNames _ _ s1
    have i1 : s1.Inv := ite_inv (inv_of_mem h) h
    clear_value s1
    exact inv_of_mem i1
  · split
    · exact h
    · exact ite_inv h (ite_inv (store_inv h) (foldl_inv (fun _ _ h' => ite_inv (foldl_inv (fun _ _ h2 => debugPred_inv h2) h')
        (debugPut_inv h')) h))

/-! ## Control space -/

theorem setSel_inv {a : Agent} {x : Sel} {v : Word} (h : s.Inv) : (s.setSel a x v).Inv := inv_of_mem h

/-! ## Loads and stores -/

theorem notYet_inv {r : SlotRef} {t : Slot} (h : s.Inv) : ResInv (notYet r t s) := setSlot_inv h

theorem withKeys_inv {r : SlotRef} {t : Slot} {ra : Spec} {a n al : Nat} {x : Access} {len : Nat} {win : Acc → Res}
    {k : List Nat → Res} (h : s.Inv) (hwin : ∀ x1, ResInv (win x1)) (hk : ∀ x1, ResInv (k x1)) :
    ResInv (withKeys r t s ra a n al x len win k) := by
  unfold withKeys
  refine resInv_ite (notYet_inv h) ?_
  split
  · exact trivial
  · exact startWalk_inv (setSlot_inv h)
  · exact resInv_ite (notYet_inv h) (hk _)
  · exact hwin _

theorem withMem_inv {r : SlotRef} {t : Slot} {ra : Spec} {a n al : Nat} {x : Access} {k : List Nat → Res} (h : s.Inv)
    (hk : ∀ x1, ResInv (k x1)) : ResInv (withMem r t s ra a n al x k) :=
  resInv_ite trivial (withKeys_inv h (fun _ => trivial) hk)

theorem withRelease_inv {r : SlotRef} {t : Slot} {sc : Option Scope} {k : State → Res} (h : s.Inv)
    (hk : ∀ u, State.Inv u → ResInv (k u)) : ResInv (withRelease r t s sc k) := by
  unfold withRelease
  split
  · exact hk _ h
  · exact resInv_ite (hk _ (release_inv h)) (notYet_inv h)

theorem readGate_inv {r : SlotRef} {a : Nat} {ks : List Nat} {k : Res} (hk : ResInv k) : ResInv (readGate r s a ks k) := by
  unfold readGate
  split
  · exact trivial
  · split
    · exact trivial
    · exact hk

theorem writeGate_inv {r : SlotRef} {t : Slot} {a : Nat} {as : List Nat} {ps : List (Nat × Byte)} {k : Res} (h : s.Inv)
    (hk : ResInv k) : ResInv (writeGate r t s a as ps k) := by
  unfold writeGate
  extract_lets +onlyGivenNames _
  split
  · exact trivial
  · split
    · exact trivial
    · exact resInv_ite hk (notYet_inv h)

theorem winRead_inv {r : SlotRef} {t : Slot} {a n : Nat} {w : Acc} {k : List Byte → Res} (h : s.Inv) (hk : ∀ x, ResInv (k x)) :
    ResInv (winRead r t s a n w k) := by
  unfold winRead
  split
  · split
    · exact trivial
    · exact resInv_ite (notYet_inv h) (hk _)
  · split
    · exact trivial
    · exact hk _
  · exact hk _
  · exact notYet_inv h

theorem winWrite_inv {r : SlotRef} {t : Slot} {a n : Nat} {pieces : List (Nat × List Byte)} {w : Acc} {k : State → Res}
    (h : s.Inv) (hk : ∀ u, State.Inv u → ResInv (k u)) : ResInv (winWrite r t s a n pieces w k) := by
  unfold winWrite
  split
  · split
    · exact trivial
    · exact resInv_ite (notYet_inv h) (hk _ (modSlot_inv h))
  · extract_lets +onlyGivenNames bad
    cases bad with
    | some tr => exact trivial
    | none => exact hk _ (foldl_inv (fun _ _ h' => debugWrite_inv h') h)
  · exact resInv_ite (hk _ (inv_of_mem h)) (hk _ h)
  · exact notYet_inv h

theorem acquireAt_inv {r : SlotRef} {sc : Option Scope} (h : s.Inv) : (s.acquireAt r sc).Inv := by
  unfold State.acquireAt
  split
  · exact acquire_inv h
  · exact h

theorem bump_inv {r : SlotRef} {t : Slot} {pi : Bool} {a n : Nat} {ra : Spec} {dst : Option Reg} (h : s.Inv) :
    (bump r t s pi a n ra dst).Inv :=
  ite_inv (later_inv h) h

theorem bodyLoad_inv {d ra : Spec} {z : BitVec 2} {addr : Slot → Nat} {acq : Option Scope} {pi : Bool} {x : SlotRef} {t : Slot}
    (h : s.Inv) : ResInv (bodyLoad d ra z addr acq pi x t s) :=
  withKeys_inv h (fun _ => winRead_inv h (fun _ => fly_inv (bump_inv h))) (fun _ => readGate_inv (fly_inv (bump_inv h)))

theorem bodyStore_inv {d ra : Spec} {z : BitVec 2} {addr : Slot → Nat} {rel : Option Scope} {pi : Bool} {x : SlotRef} {t : Slot}
    (h : s.Inv) : ResInv (bodyStore d ra z addr rel pi x t s) :=
  withKeys_inv h (fun _ => resInv_ite (notYet_inv h) (withRelease_inv h
    (fun _ h' => winWrite_inv h' (fun _ h2 => bump_inv h2)))) (fun _ => writeGate_inv h
    (withRelease_inv h (fun _ h' => bump_inv (put_inv h'))))

theorem bodyVld_inv {c : Ctl} {d ra : Spec} {z : BitVec 2} {acq : Option Scope} {pi : Bool} {x : SlotRef} {t : Slot}
    (h : s.Inv) : ResInv (bodyVld c d ra z acq pi x t s) := by
  unfold bodyVld
  refine withKeys_inv h (fun _ => winRead_inv h (fun _ => fly_inv (bump_inv h))) (fun _ => ?_)
  extract_lets +onlyGivenNames _ _
  split
  · exact trivial
  · split
    · exact trivial
    · exact fly_inv (bump_inv h)

theorem bodyVst_inv {c : Ctl} {d ra : Spec} {z : BitVec 2} {rel : Option Scope} {pi : Bool} {x : SlotRef} {t : Slot}
    (h : s.Inv) : ResInv (bodyVst c d ra z rel pi x t s) :=
  withKeys_inv h (fun _ => resInv_ite (notYet_inv h) (withRelease_inv h
    (fun _ h' => winWrite_inv h' (fun _ h2 => bump_inv h2)))) (fun _ => writeGate_inv h
    (withRelease_inv h (fun _ h' => bump_inv (put_inv h'))))

theorem withLanes_inv {r : SlotRef} {t : Slot} {c : Ctl} {ra : Spec} {addr : Nat → Nat} {es : Nat} {x : Access}
    {k : List (Nat × List Nat) → List (Nat × Acc) → Res} (h : s.Inv) (hk : ∀ x1 x2, ResInv (k x1 x2)) :
    ResInv (withLanes r t s c ra addr es x k) := by
  unfold withLanes
  refine resInv_ite (notYet_inv h) ?_
  split
  · exact trivial
  · exact startWalk_inv (setSlot_inv h)
  · exact notYet_inv h
  · exact resInv_ite (notYet_inv h) (hk _ _)

theorem winLanes_inv {r : SlotRef} {t : Slot} {addr : Nat → Nat} {es : Nat} {k : Map W32 → Res} {l : List (Nat × Acc)}
    {m : Map W32} (h : s.Inv) (hk : ∀ m, ResInv (k m)) : ResInv (winLanes r t s addr es k l m) := by
  induction l generalizing m with
  | nil => exact hk m
  | cons p l ih => exact winRead_inv h fun _ => ih

theorem bodyVldx_inv {c : Ctl} {d a b : Spec} {e : XSize} {x : SlotRef} {t : Slot} (h : s.Inv) :
    ResInv (bodyVldx c d a b e x t s) := by
  unfold bodyVldx
  refine withLanes_inv h (fun _ _ => ?_)
  split
  · exact trivial
  · split
    · exact trivial
    · exact winLanes_inv h (fun _ => fly_inv (ite_inv h (fly_inv h)))

theorem winScatter_inv {r : SlotRef} {t : Slot} {addr : Nat → Nat} {es : Nat} {val : Nat → W32} {k : State → Res}
    {l : List (Nat × Acc)} (hk : ∀ u, State.Inv u → ResInv (k u)) (h : s.Inv) : ResInv (winScatter r t addr es val k l s) := by
  induction l generalizing s with
  | nil => exact hk s h
  | cons p l ih => exact winWrite_inv h fun _ h' => ih h'

theorem bodyVstx_inv {c : Ctl} {d a b : Spec} {e : XSize} {x : SlotRef} {t : Slot} (h : s.Inv) :
    ResInv (bodyVstx c d a b e x t s) := by
  unfold bodyVstx
  refine withLanes_inv h (fun _ _ => ?_)
  extract_lets +onlyGivenNames _ _
  split
  · exact trivial
  · split
    · exact trivial
    · exact resInv_ite (winScatter_inv (fun _ h' => put_inv h') h) (notYet_inv h)

/-! ## Fences, barriers and rings -/

theorem withFull_inv {r : SlotRef} {t : Slot} {ra : Spec} {a n : Nat} {x : Access} {k : List Nat → Res} (h : s.Inv)
    (hk : ∀ x1, ResInv (k x1)) : ResInv (withFull r t s ra a n x k) :=
  resInv_ite trivial (withKeys_inv h (fun _ => trivial) (fun _ => resInv_ite (hk _) trivial))

theorem bodyLdf_inv {d ra : Spec} {o : Ord} {sc : Scope} {z : BitVec 1} {take : Bool} {x : SlotRef} {t : Slot} (h : s.Inv) :
    ResInv (bodyLdf d ra o sc z take x t s) := by
  unfold bodyLdf
  refine withFull_inv h (fun _ => ?_)
  refine resInv_ite ?_ trivial
  split
  · exact trivial
  · exact ldfStep_inv h

theorem feWord_inv {ra : Spec} {x : Access} {op : FeOp} {x1 : SlotRef} {t : Slot} (h : s.Inv) :
    ResInv (feWord ra x op x1 t s) := by
  unfold feWord
  refine withFull_inv h (fun _ => ?_)
  extract_lets +onlyGivenNames _
  split
  · exact trivial
  · exact fly_inv h

theorem bodyStf_inv {ra b : Spec} {x : SlotRef} {t : Slot} (h : s.Inv) : ResInv (bodyStf ra b x t s) := feWord_inv h

theorem farAtomic_inv {pkg : Nat} {q : Remote} (h : s.Inv) : (s.farAtomic pkg q).2.Inv := storeLE_inv h

theorem sendAtomics_inv {pkg : Nat} (h : s.Inv) : (s.sendAtomics pkg).Inv := by
  refine ite_inv h (modPeer_inv ?_)
  refine List.foldlRecOn (motive := fun a : List Remote × State => a.2.Inv) _ _ (ite_inv (modPeer_inv h) h) fun a ha q _ => ?_
  exact sndInv_ite ha (sndInv_ite ha (farAtomic_inv ha))

theorem bodyAmo_inv {d ra : Spec} {f : Aop} {o : Ord} {sc : Scope} {x : SlotRef} {t : Slot} (h : s.Inv) :
    ResInv (bodyAmo d ra f o sc x t s) := by
  unfold bodyAmo
  refine withMem_inv h (fun _ => ?_)
  split
  · exact trivial
  · exact resInv_ite (withRelease_inv h (fun _ h' => fly_inv h')) (resInv_ite (notYet_inv h)
      (withRelease_inv h (fun _ h' => fly_inv (sendAtomics_inv (modPeer_inv (drainLines_inv (sampleLines_inv h')))))))

theorem onFence_inv {rel : Option Scope} {k : State → Res} {x : SlotRef} {t : Slot} (hk : ∀ u, State.Inv u → ResInv (k u))
    (h : s.Inv) : ResInv (onFence rel k x t s) := by
  unfold onFence
  split
  · exact hk _ h
  · refine resInv_ite (notYet_inv h) ?_
    split
    · exact trivial
    · exact resInv_ite (notYet_inv h) (hk _ h)

theorem whenQuiet_inv {k : State → Res} {x : SlotRef} {t : Slot} (hk : ∀ u, State.Inv u → ResInv (k u)) (h : s.Inv) :
    ResInv (whenQuiet k x t s) :=
  resInv_ite (hk _ h) (notYet_inv h)

theorem fenceMem_inv {o : Ord} {sc : Scope} {x : SlotRef} {t : Slot} (h : s.Inv) : ResInv (fenceMem o sc x t s) := by
  unfold fenceMem
  refine resInv_ite (notYet_inv h) ?_
  refine onFence_inv (fun _ h' => ?_) h
  extract_lets +onlyGivenNames s1
  have i1 : s1.Inv := ite_inv (sampleAll_inv h') h'
  extract_lets +onlyGivenNames s2
  have i2 : s2.Inv := by
    unfold s2
    split
    · exact modSlot_inv (ite_inv (drainIf_inv i1) i1)
    · exact i1
  exact acquireAt_inv i2

theorem fenceEng_inv {o : Ord} {sc : Scope} {x : SlotRef} {t : Slot} (h : s.Inv) : ResInv (fenceEng o sc x t s) := by
  unfold fenceEng
  refine onFence_inv (fun _ h' => ?_) h
  extract_lets +onlyGivenNames s1
  have i1 : s1.Inv := by
    unfold s1
    split
    · exact modSlot_inv (ite_inv (drainIf_inv h') h')
    · exact h'
  exact acquireAt_inv i1

theorem execFenceI_inv {c : Ctl} {sc : Scope} (h : s.Inv) : OutInv (execFenceI c sc s) :=
  issue_inv (fun _ _ _ h' => onFence_inv (fun _ h2 => whenQuiet_inv (fun _ h3 => modCore_inv
    (drainQuad_inv (release_inv h3))) h2) h') h

theorem execFenceT_inv {c : Ctl} {o : Ord} {sc : Scope} (h : s.Inv) : OutInv (execFenceT c o sc s) :=
  issue_inv (fun _ _ _ h' => whenQuiet_inv (fun _ h2 => acquireAt_inv (drain_inv (release_inv h2))) h') h

theorem arrive_inv {r : SlotRef} {sc : Scope} {key : Nat} {x : Word} (h : s.Inv) : (arrive r s sc key x).Inv :=
  modSlot_inv (modCtx_inv (release_inv h))

theorem bodyBar_inv {sc : Scope} {a b : Spec} {arr wt : Bool} {x : SlotRef} {t : Slot} (h : s.Inv) :
    ResInv (bodyBar sc a b arr wt x t s) := by
  unfold bodyBar
  extract_lets +onlyGivenNames _ _ _ _ _ _
  split
  · exact trivial
  · refine resInv_ite (notYet_inv h) ?_
    extract_lets +onlyGivenNames s1
    have i1 : s1.Inv := ite_inv (arrive_inv h) h
    exact resInv_ite i1 (resInv_ite (acquire_inv (modSlot_inv i1)) (modSlot_inv i1))

theorem barDone_inv {cx : Nat} {sc : Scope} {u id : Nat} (h : s.Inv) : (s.barDone cx sc u id).Inv := by
  unfold State.barDone
  extract_lets +onlyGivenNames _
  split
  · exact h
  · exact ite_inv h (modCtx_inv h)

theorem barMeets_inv {r : SlotRef} {w : Wait} (h : s.Inv) : (s.barMeets r w).Inv := by
  unfold State.barMeets
  extract_lets +onlyGivenNames _
  split
  · exact ite_inv h (barDone_inv h)
  · exact ite_inv h (barDone_inv h)
  · exact h

theorem setRing_inv {g : RingView} {n x : Nat} (h : s.Inv) : (s.setRing g n x).Inv := storeLE_inv h

theorem onRing_inv {ra : Spec} {f : Nat → RingView → Body} {x : SlotRef} {t : Slot}
    (hf : ∀ n x1 x2 t1 u, State.Inv u → ResInv (f n x1 x2 t1 u)) (h : s.Inv) : ResInv (onRing ra f x t s) := by
  unfold onRing
  refine resInv_ite (notYet_inv h) ?_
  split
  · refine resInv_ite trivial ?_
    extract_lets +onlyGivenNames _ _
    split
    · exact trivial
    · split
      · exact trivial
      · split
        · exact trivial
        · exact hf _ _ _ _ _ (drainLines_inv (sampleLines_inv h))
  · exact resInv_ite trivial trivial
  · exact trivial

theorem commit_inv {g : RingView} {tnext n fnext : Nat} (h : s.Inv) : (commit g tnext n fnext s).Inv := by
  induction n generalizing fnext s with
  | zero => exact h
  | succ n ih => exact ite_inv (ih (storeLE_inv (setRing_inv h))) h

theorem bodyRacq_inv {d a b : Spec} {x : SlotRef} {t : Slot} (h : s.Inv) : ResInv (bodyRacq d a b x t s) :=
  onRing_inv (fun _ _ _ _ _ h' => resInv_ite trivial (resInv_ite trivial (fly_inv (storeLE_inv (setRing_inv h'))))) h

theorem bodyRpub_inv {cl : Bool} {a b : Spec} {x : SlotRef} {t : Slot} (h : s.Inv) : ResInv (bodyRpub cl a b x t s) :=
  onRing_inv (fun _ _ _ _ _ h' => resInv_ite trivial (withRelease_inv h'
    (fun _ h2 => ite_inv (storeLE_inv (setRing_inv h2)) (setRing_inv h2)))) h

theorem bodyRtake_inv {d a b : Spec} {x : SlotRef} {t : Slot} (h : s.Inv) : ResInv (bodyRtake d a b x t s) :=
  onRing_inv (fun _ _ _ _ _ h' => resInv_ite (resInv_ite (fly_inv h') trivial)
    (resInv_ite trivial (fly_inv (modSlot_inv (storeLE_inv (setRing_inv h')))))) h

theorem bodyRrel_inv {a b : Spec} {x : SlotRef} {t : Slot} (h : s.Inv) : ResInv (bodyRrel a b x t s) :=
  onRing_inv (fun _ _ _ _ _ h' => resInv_ite trivial (commit_inv (setRing_inv (modSlot_inv h')))) h

theorem bodyRstat_inv {d a : Spec} {k : BitVec 5} {x : SlotRef} {t : Slot} (h : s.Inv) : ResInv (bodyRstat d a k x t s) :=
  onRing_inv (fun _ _ _ _ _ h' => fly_inv h') h

theorem invalidate_inv {cx lo n : Nat} (h : s.Inv) : (s.invalidate cx lo n).Inv := by
  unfold State.invalidate
  extract_lets +onlyGivenNames s1
  have i1 : s1.Inv := foldl_inv (fun _ _ h' => modQuad_inv h') h
  clear_value s1
  extract_lets +onlyGivenNames s2
  have i2 : s2.Inv := inv_of_mem i1
  clear_value s2
  exact inv_of_mem i2

theorem bodyTlbinv_inv {a b : Spec} {x : SlotRef} {t : Slot} (h : s.Inv) : ResInv (bodyTlbinv a b x t s) :=
  resInv_ite trivial (resInv_ite trivial (resInv_ite trivial (resInv_ite trivial (modSlot_inv (invalidate_inv h)))))

theorem bodyTlbsync_inv {a : Spec} {x : SlotRef} {t : Slot} (h : s.Inv) : ResInv (bodyTlbsync a x t s) := resInv_ite h trivial

theorem execMfc_inv {c : Ctl} {d : Spec} {i : BitVec 9} (h : s.Inv) : OutInv (execMfc c d i s) :=
  issue_inv (fun _ _ _ h' => okBody_inv (fun _ _ _ h2 => ite_inv (fly_inv h2) (later_inv h2)) h') h

theorem execMtc_inv {c : Ctl} {d : Spec} {i : BitVec 9} (h : s.Inv) : OutInv (execMtc c d i s) := by
  unfold execMtc
  refine issue_inv (fun _ _ _ h' => ?_) h
  split
  · exact trivial
  · exact setSlot_inv h'

theorem execWdog_inv {c : Ctl} {a : Spec} (h : s.Inv) : OutInv (execWdog c a s) :=
  issue_inv (fun _ _ _ h' => okBody_inv (fun _ _ _ h2 => modSlot_inv h2) h') h

theorem execDstop_inv {c : Ctl} {a : Spec} (h : s.Inv) : OutInv (execDstop c a s) :=
  issue_inv (fun _ _ _ h' => resInv_ite trivial (resInv_ite trivial (haltGroups_inv h'))) h

/-! ## Messages -/

theorem markHeld_inv {k : CoreRef} {g : Tag} {on : Bool} (h : s.Inv) : (s.markHeld k g on).Inv :=
  ite_inv h (count_inv (count_inv h))

theorem retireMsg_inv {o : Origin} {k : CoreRef} {g : Tag} {held : Bool} (h : s.Inv) : (s.retireMsg o k g held).Inv :=
  ite_inv (countBy_inv h) h

theorem storeHurt_inv {ps : List (Nat × Byte)} {hurt : Bool} {payload : List Nat} (h : s.Inv) :
    (s.storeHurt ps hurt payload).Inv := by
  unfold State.storeHurt
  extract_lets +onlyGivenNames s1
  have i1 : s1.Inv := store_inv (ite_inv (sampleEverywhere_inv h) h)
  clear_value s1
  exact ite_inv (inv_of_mem i1) i1

theorem putEntry_inv {k : CoreRef} {b e : Nat} {m : Msg} {st : BitVec 2} {seq : BitVec 16} (h : s.Inv) :
    (s.putEntry k b e m st seq).Inv :=
  modBox_inv (storeHurt_inv h)

theorem storeLetter_inv {k : Nat} {m : Msg} {a b : Nat} (h : s.Inv) : (s.storeLetter k m a b).Inv := storeHurt_inv h

theorem deadLetter_inv {k : CoreRef} {m : Msg} {reason : Nat} {held : Bool} (h : s.Inv) : (s.deadLetter k m reason held).Inv :=
  ite_inv (notice_inv (modPdie_inv (retireMsg_inv h))) (modPdie_inv (storeLetter_inv (retireMsg_inv h)))

theorem spillMsg_inv {k : CoreRef} {b : Nat} {m : Msg} {held : Bool} {seq : BitVec 16} (h : s.Inv) :
    (s.spillMsg k b m held seq).Inv :=
  modCtx_inv (storeLetter_inv h)

theorem unspill_inv {cx i : Nat} (h : s.Inv) : (s.unspill cx i).Inv := modCtx_inv h

theorem settleFix_inv {k : CoreRef} {b n : Nat} (h : s.Inv) : (s.settleFix k b n).Inv := by
  induction n generalizing s with
  | zero => exact h
  | succ n ih =>
    unfold State.settleFix
    extract_lets +onlyGivenNames _
    split
    · exact h
    · split
      · exact ih (putEntry_inv (unspill_inv h))
      · split
        · exact h
        · exact ite_inv (ih (spillMsg_inv (putEntry_inv (unspill_inv h)))) h

theorem wakeBox_inv {k : CoreRef} {b : Nat} (h : s.Inv) : (s.wakeBox k b).Inv :=
  ite_inv (modSlot_inv h) (ite_inv (foldl_inv (fun _ _ h' => modSlot_inv h') h) h)

theorem deliverNow_inv {k : CoreRef} {b : Nat} {m : Msg} (h : s.Inv) : OptInv (s.deliverNow k b m) := by
  unfold State.deliverNow
  refine optInv_ite (optInv_some (deadLetter_inv h)) ?_
  refine optInv_ite (optInv_ite (optInv_some (spillMsg_inv h)) optInv_none) ?_
  extract_lets +onlyGivenNames _ _ _
  split
  · extract_lets +onlyGivenNames s2
    have i2 : s2.Inv := putEntry_inv (modBox_inv h)
    exact optInv_some (ite_inv (settleFix_inv (markHeld_inv i2)) (wakeBox_inv i2))
  · exact optInv_ite (optInv_some (settleFix_inv (markHeld_inv (spillMsg_inv (modBox_inv h))))) optInv_none

theorem unspillBox_inv {k : CoreRef} {b n : Nat} (h : s.Inv) : (s.unspillBox k b n).Inv := by
  induction n generalizing s with
  | zero => exact h
  | succ n ih =>
    unfold State.unspillBox
    split
    · exact h
    · refine ite_inv h ?_
      split
      · exact h
      · split
        · rename_i e
          exact ih (deliverNow_inv (unspill_inv h) _ e)
        · exact h

theorem deliver_inv {k : CoreRef} {b : Nat} {m : Msg} (h : s.Inv) : OptInv (s.deliver k b m) :=
  optInv_ite (deliverNow_inv (unspillBox_inv h)) optInv_none

theorem postDev_inv {k : CoreRef} {cls : Nat} {time : Time} {payload : Vec} {svc : Bool} (h : s.Inv) :
    (s.postDev k cls time payload svc).Inv := by
  unfold State.postDev
  extract_lets +onlyGivenNames _ _ _
  split
  · rename_i e
    exact deliver_inv h _ e
  · exact modCore_inv h

theorem postNotice_inv {k : CoreRef} {cls : Nat} {time : Time} {payload : Vec} (h : s.Inv) :
    (s.postNotice k cls time payload).Inv :=
  postDev_inv h

theorem postService_inv {k : CoreRef} {payload : Vec} (h : s.Inv) : (s.postService k payload).Inv := postDev_inv h

theorem retryNotices_inv {k : CoreRef} (h : s.Inv) : (s.retryNotices k).Inv := by
  unfold State.retryNotices
  refine ite_inv h ?_
  refine foldl_inv (fun _ _ h' => ?_) (modCore_inv h)
  split
  · rename_i e
    exact deliver_inv h' _ e
  · exact modCore_inv h'

theorem freeEntry_inv {k : CoreRef} {b e : Nat} (h : s.Inv) : (s.freeEntry k b e).Inv :=
  retryNotices_inv (unspillBox_inv (ite_inv (settleFix_inv (modBox_inv h)) (modBox_inv h)))

theorem emptySlotBoxes_inv {r : SlotRef} {reason : Nat} (h : s.Inv) : (s.emptySlotBoxes r reason).Inv :=
  foldl_inv (fun _ _ h' => foldl_inv (fun _ _ h2 => modBox_inv (deadLetter_inv h2)) h') h

theorem enqueue_inv {r : SlotRef} {m : Msg} {n : Int} {group : Option Nat} (h : s.Inv) : (s.enqueue r m n group).Inv := by
  unfold State.enqueue
  extract_lets +onlyGivenNames _ s1
  have i1 : s1.Inv := flush_inv (count_inv h)
  clear_value s1
  exact modSlot_inv (inv_of_mem i1)

theorem bodySend_inv {v a b : Spec} {x : SlotRef} {t : Slot} (h : s.Inv) : ResInv (bodySend v a b x t s) := by
  unfold bodySend
  refine resInv_ite trivial ?_
  refine resInv_ite trivial ?_
  split
  · exact trivial
  · exact resInv_ite trivial (resInv_ite trivial (withRelease_inv h (fun _ h' => enqueue_inv h')))

theorem bodyMcast_inv {v a b : Spec} {x : SlotRef} {t : Slot} (h : s.Inv) : ResInv (bodyMcast v a b x t s) := by
  unfold bodyMcast
  refine resInv_ite trivial ?_
  split
  · exact trivial
  · exact resInv_ite trivial (resInv_ite trivial (withRelease_inv h (fun _ h' => resInv_ite h' (enqueue_inv h'))))

theorem bodyRecv_inv {v a b : Spec} {x : SlotRef} {t : Slot} (h : s.Inv) : ResInv (bodyRecv v a b x t s) := by
  unfold bodyRecv
  refine resInv_ite trivial ?_
  refine resInv_ite trivial ?_
  split
  · exact trivial
  · split
    · exact trivial
    · refine resInv_ite trivial ?_
      extract_lets +onlyGivenNames _ _ _ _ _ s4
      have i4 : s4.Inv := freeEntry_inv (modSlot_inv (fly_inv (sampleLines_inv h)))
      exact resInv_ite i4 (retireMsg_inv i4)

theorem bodyMprobe_inv {d a b : Spec} {x : SlotRef} {t : Slot} (h : s.Inv) : ResInv (bodyMprobe d a b x t s) := by
  unfold bodyMprobe
  refine resInv_ite trivial ?_
  split
  · exact resInv_ite (fly_inv h) trivial
  · exact fly_inv h

theorem remode_inv {k : CoreRef} {b : Nat} {mode : BitVec 2} (h : s.Inv) : (remode k b mode s).Inv :=
  foldl_inv (fun _ _ h' => ite_inv (markHeld_inv (modBox_inv h')) (ite_inv (markHeld_inv (modBox_inv h')) h')) h

theorem unholdSpill_inv {k : CoreRef} {b : Nat} (h : s.Inv) : (unholdSpill k b s).Inv :=
  modCtx_inv (foldl_inv (fun _ _ h' => markHeld_inv h') h)

theorem bodyHdlr_inv {a b : Spec} {x : SlotRef} {t : Slot} (h : s.Inv) : ResInv (bodyHdlr a b x t s) := by
  unfold bodyHdlr
  refine resInv_ite trivial ?_
  refine resInv_ite trivial ?_
  refine resInv_ite trivial ?_
  extract_lets +onlyGivenNames _ _ s2
  have i2 : s2.Inv := remode_inv (modBox_inv h)
  exact resInv_ite trivial (ite_inv (settleFix_inv i2) (unholdSpill_inv i2))

theorem bodyFhold_inv {a b : Spec} {x : SlotRef} {t : Slot} (h : s.Inv) : ResInv (bodyFhold a b x t s) := by
  unfold bodyFhold
  extract_lets +onlyGivenNames _ _ _
  split
  · exact trivial
  · exact resInv_ite trivial (resInv_ite trivial (count_inv h))

theorem bodyFdrop_inv {a b : Spec} {x : SlotRef} {t : Slot} (h : s.Inv) : ResInv (bodyFdrop a b x t s) := by
  unfold bodyFdrop
  extract_lets +onlyGivenNames _ _ _
  split
  · exact trivial
  · exact resInv_ite (notYet_inv h) (resInv_ite trivial (modSlot_inv (flush_inv (count_inv h))))

theorem bodyFwait_inv {d a b : Spec} {x : SlotRef} {t : Slot} (h : s.Inv) : ResInv (bodyFwait d a b x t s) := by
  unfold bodyFwait
  extract_lets +onlyGivenNames _ _ _
  split
  · exact trivial
  · exact resInv_ite (acquire_inv h) trivial

theorem bodyFread_inv {d a : Spec} {x : SlotRef} {t : Slot} (h : s.Inv) : ResInv (bodyFread d a x t s) := by
  unfold bodyFread
  extract_lets +onlyGivenNames _
  split
  · exact trivial
  · exact fly_inv h

/-! ## Tasks, bindings and the supervisor -/

theorem ucieSend_inv {code : Nat} (h : s.Inv) : (s.ucieSend code).Inv := inv_of_mem h

theorem hostWrite_inv {n : Nat} {c : HComp} (h : s.Inv) : (s.hostWrite n c).Inv := by
  unfold State.hostWrite
  extract_lets +onlyGivenNames _ _ _ s1
  have i1 : s1.Inv := store_inv h
  clear_value s1
  extract_lets +onlyGivenNames s2
  have i2 : s2.Inv := inv_of_mem i1
  exact ite_inv (ucieSend_inv i2) i2

theorem hostComplete_inv {n : Nat} {c : HComp} (h : s.Inv) : (s.hostComplete n c).Inv :=
  ite_inv (hostWrite_inv h) (inv_of_mem h)

theorem hostRetry_inv {q n : Nat} (h : s.Inv) : (s.hostRetry q n).Inv := by
  induction n generalizing s with
  | zero => exact h
  | succ n ih =>
    unfold State.hostRetry
    extract_lets +onlyGivenNames _
    split
    · exact h
    · exact ite_inv h (ih (hostWrite_inv (inv_of_mem h)))

theorem cardDone_inv {cx id : Nat} (h : s.Inv) : (s.cardDone cx id).Inv := by
  unfold State.cardDone
  split
  · exact h
  · refine ite_inv (modCtx_inv h) ?_
    split
    · exact postNotice_inv (modCtx_inv h)
    · exact hostComplete_inv (modCtx_inv h)
    · exact modCtx_inv h

theorem cardLess_inv {cx : Nat} {id : Option Nat} (h : s.Inv) : (s.cardLess cx id).Inv := by
  unfold State.cardLess
  split
  · exact h
  · split
    · exact h
    · exact ite_inv (cardDone_inv (modCtx_inv h)) (modCtx_inv h)

theorem modGroup_inv {cx d g : Nat} {f : GroupRec → GroupRec} (h : s.Inv) : (s.modGroup cx d g f).Inv := modDie_inv h

theorem freeGroup_inv {cx d g : Nat} (h : s.Inv) : (s.freeGroup cx d g).Inv := modDie_inv h

theorem siblingEnds_inv {cx d g i : Nat} {killed : Bool} (h : s.Inv) : (s.siblingEnds cx d g i killed).Inv :=
  freeGroup_inv (modGroup_inv h)

theorem closeStage_inv {q : QuadRef} {p : Pipe} {n : Nat} (h : s.Inv) : (s.closeStage q p n).Inv := modQuad_inv h

theorem retireTask_inv {o : Origin} {r : SlotRef} {t : Slot} (h : s.Inv) : (s.retireTask o r t).Inv := by
  unfold State.retireTask
  extract_lets +onlyGivenNames _
  split
  · exact retireMsg_inv h
  · split
    · exact h
    · exact cardLess_inv (countBy_inv (closeStage_inv h))
  · exact cardLess_inv (countBy_inv h)

theorem finish_inv {r : SlotRef} {killed : Bool} (h : s.Inv) : (s.finish r killed).Inv := by
  unfold State.finish
  extract_lets +onlyGivenNames _ _ s1
  have i1 : s1.Inv := ite_inv h (release_inv h)
  extract_lets +onlyGivenNames s2
  have i2 : s2.Inv := by
    unfold s2
    split
    · exact freeEntry_inv i1
    · exact i1
  extract_lets +onlyGivenNames s3
  have i3 : s3.Inv := by
    unfold s3
    split
    · exact siblingEnds_inv i2
    · exact i2
  extract_lets +onlyGivenNames _ s5
  have i5 : s5.Inv := emptySlotBoxes_inv (retireTask_inv i3)
  extract_lets +onlyGivenNames s6
  have i6 : s6.Inv := by
    unfold s6
    split
    · exact offer_inv i5
    · exact i5
  exact setSlot_inv i6

theorem dropSwapped_inv {cx a : Nat} {w : Swapped} (h : s.Inv) : (s.dropSwapped cx a w).Inv := by
  unfold State.dropSwapped
  extract_lets +onlyGivenNames _ _ s3
  have i3 : s3.Inv := modQuad_inv (ite_inv (modCtx_inv h) (modCore_inv (modCtx_inv h)))
  clear_value s3
  exact inv_of_mem i3

theorem killSwapped_inv {cx a : Nat} {w : Swapped} (h : s.Inv) : (s.killSwapped cx a w).Inv := by
  unfold State.killSwapped
  extract_lets +onlyGivenNames _ s1
  have i1 : s1.Inv := dropSwapped_inv h
  extract_lets +onlyGivenNames s2
  have i2 : s2.Inv := by
    unfold s2
    split
    · exact siblingEnds_inv i1
    · exact i1
  split
  · exact freeEntry_inv (ite_inv (dieCount_inv i2) i2)
  · extract_lets +onlyGivenNames _
    split
    · exact i2
    · exact cardLess_inv (dieCount_inv (closeStage_inv i2))
  · exact cardLess_inv (dieCount_inv i2)

theorem endUnbound_inv {cx d : Nat} {e : RingEnt} (h : s.Inv) : (s.endUnbound cx d e).Inv := by
  unfold State.endUnbound
  split
  · exact cardLess_inv (siblingEnds_inv (dieCount_inv h))
  · exact h

theorem cancelSibling_inv {cx d g i : Nat} (h : s.Inv) : (s.cancelSibling cx d g i).Inv := by
  unfold State.cancelSibling
  extract_lets +onlyGivenNames _ _
  split
  · exact ite_inv (finish_inv (modGroup_inv h)) (modSlot_inv (modGroup_inv h))
  · split
    · exact killSwapped_inv (modGroup_inv h)
    · split
      · split
        · exact endUnbound_inv (modQuad_inv (modCtx_inv (modGroup_inv h)))
        · exact modGroup_inv h
      · split
        · exact modGroup_inv h
        · split
          · exact endUnbound_inv (modQuad_inv (modGroup_inv h))
          · exact modGroup_inv h

theorem bodyEnd_inv {x : SlotRef} {t : Slot} (h : s.Inv) : ResInv (bodyEnd x t s) :=
  resInv_ite (notYet_inv h) (resInv_ite trivial (finish_inv h))

theorem bindAt_inv {r : SlotRef} {t : Slot} (h : s.Inv) : (s.bindAt r t).Inv := setSlot_inv (emptySlotBoxes_inv h)

theorem gateAcquire_inv {r : SlotRef} {card : Option Nat} (h : s.Inv) : (s.gateAcquire r card).Inv := by
  unfold State.gateAcquire
  split
  · exact ite_inv (acquire_inv h) h
  · exact h

theorem bindRecord_inv {r : SlotRef} {card idx : Nat} (h : s.Inv) : (s.bindRecord r card idx).Inv := by
  unfold State.bindRecord
  split
  · exact h
  · exact gateAcquire_inv (bindAt_inv h)

theorem bindSibling_inv {r : SlotRef} {e : RingEnt} (h : s.Inv) : (s.bindSibling r e).Inv := by
  unfold State.bindSibling
  split
  · exact gateAcquire_inv (bindAt_inv h)
  · exact h

theorem bindHandler_inv {r : SlotRef} {b e : Nat} (h : s.Inv) : (s.bindHandler r b e).Inv := by
  unfold State.bindHandler
  extract_lets +onlyGivenNames _ _ _ _ _ _ _ _ _ _ s4
  have i4 : s4.Inv := acquireAt_inv (bindAt_inv (ite_inv (markHeld_inv (modBox_inv h)) (modBox_inv h)))
  split
  · exact takeFault_inv i4
  · exact i4

theorem bindStage_inv {r : SlotRef} {p : Pipe} {n : Nat} (h : s.Inv) : (s.bindStage r p n).Inv := by
  unfold State.bindStage
  split
  · exact h
  · exact gateAcquire_inv (bindAt_inv h)

theorem moveCmds_inv {old : SlotRef} {g : BitVec 8} {new : SlotRef} {g' : BitVec 8} (h : s.Inv) :
    (s.moveCmds old g new g').Inv :=
  inv_of_mem h

theorem bindSwapped_inv {r : SlotRef} {a : Nat} (h : s.Inv) : (s.bindSwapped r a).Inv := by
  unfold State.bindSwapped
  split
  · exact h
  · extract_lets +onlyGivenNames _ _ _ _ _ s1 s2 s3 s4 s5 s6
    have i1 : s1.Inv := modCtx_inv h
    have i2 : s2.Inv := moveCmds_inv (bindAt_inv i1)
    have i3 : s3.Inv := wipe_inv i2
    have i4 : s4.Inv := store_inv i3
    have i5 : s5.Inv := wipe_inv i4
    have i6 : s6.Inv := store_inv i5
    clear_value s6
    exact inv_of_mem i6

/-! ## Frames and storage -/

theorem modFree_inv {pd k : Nat} {f : FreeQ → FreeQ} (h : s.Inv) : (s.modFree pd k f).Inv := modPdie_inv h

theorem lowNotice_inv {pd k : Nat} (h : s.Inv) : (s.lowNotice pd k).Inv :=
  ite_inv (notice_inv (modFree_inv h)) (ite_inv (modFree_inv h) h)

theorem takeFrame_inv {pd level : Nat} {w : Who} {va : Nat} {x : Access} {n : Nat} (h : s.Inv) :
    (s.takeFrame pd level w va x n).2.Inv := by
  induction n generalizing s with
  | zero => exact h
  | succ n ih =>
    have i1 (k : Nat) (f : FreeQ → FreeQ) : ((s.modFree pd k f).lowNotice pd k).Inv := lowNotice_inv (modFree_inv h)
    exact sndInv_ite h (sndInv_ite (i1 _ _) (ih (report_inv (i1 _ _))))

theorem giveBack_inv {pd level : Nat} {e : Word} (h : s.Inv) : (s.giveBack pd level e).Inv :=
  lowNotice_inv (modFree_inv (storeLE_inv h))

theorem copyRange_inv {src dst n : Nat} (h : s.Inv) : (s.copyRange src dst n).Inv := copyRange_wf _ _ _ h

theorem swapOut_inv {r : SlotRef} {va : Nat} {x : Access} (h : s.Inv) : (s.swapOut r va x).2.Inv :=
  setSlot_inv (modCtx_inv (emptySlotBoxes_inv (flush_inv (perform_inv (landSlot_inv h)))))

theorem storagePacket_inv {cx a cause level status drive : Nat} (h : s.Inv) :
    (s.storagePacket cx a cause level status drive).Inv := by
  unfold State.storagePacket
  split
  · exact h
  · exact offer_inv (modCtx_inv h)

theorem requeue_inv {cx a : Nat} (h : s.Inv) : (s.requeue cx a).Inv := by
  unfold State.requeue
  split
  · exact h
  · exact modQuad_inv (modCtx_inv h)

theorem servePage_inv {pd : Nat} {w : Who} {va level home : Nat} {e : Word} {x : Access} (h : s.Inv) :
    (s.servePage pd w va level home e x).2.Inv := by
  unfold State.servePage
  split
  · rename_i e
    exact snd_inv (takeFrame_inv h) e
  · rename_i e
    refine sndInv_ite (giveBack_inv (snd_inv (takeFrame_inv h) e)) ?_
    split
    · exact giveBack_inv (snd_inv (takeFrame_inv h) e)
    · extract_lets +onlyGivenNames _ _ _ s1
      have i1 : s1.Inv := storeLE_inv (snd_inv (takeFrame_inv h) e)
      clear_value s1
      exact modPdie_inv (inv_of_mem i1)

theorem joinTransit_inv {pd te : Nat} {w : Waiter} (h : s.Inv) : (s.joinTransit pd te w).Inv := modPdie_inv h

theorem fillTlb_inv {q : QuadRef} {e : TlbEnt} (h : s.Inv) : (s.fillTlb q e).Inv := modPdie_inv (modQuad_inv h)

theorem dropCached_inv {q : QuadRef} {e : TlbEnt} (h : s.Inv) : (s.dropCached q e).Inv :=
  ite_inv (modQuad_inv h) (modPdie_inv h)

theorem setDirty_inv {r : SlotRef} {c : TlbEnt} (h : s.Inv) : (s.setDirty r c).Inv :=
  ite_inv (fillTlb_inv (modSlot_inv (storeLE_inv h))) (dropCached_inv h)

theorem walkDone_inv {r : SlotRef} {va : Nat} {x : Access} {len : Nat} (h : s.Inv) : (s.walkDone r va x len).Inv := by
  unfold State.walkDone
  extract_lets +onlyGivenNames _ _
  split
  · exact ite_inv (setDirty_inv h) (modSlot_inv h)
  · split
    · exact takeFault_inv (modSlot_inv h)
    · refine ite_inv ?_ ?_
      · split
        · exact takeFault_inv (modSlot_inv h)
        · exact ite_inv h (joinTransit_inv (swapOut_inv h))
      · refine ite_inv (takeFault_inv (modSlot_inv h)) ?_
        refine ite_inv (fillTlb_inv (modSlot_inv (ite_inv (storeLE_inv h) h))) ?_
        refine ite_inv h ?_
        split
        · rename_i e3
          exact joinTransit_inv (swapOut_inv (snd_inv (servePage_inv h) e3))
        · rename_i e3
          exact storagePacket_inv (swapOut_inv (snd_inv (servePage_inv h) e3))

theorem agentGet_inv {pd : Nat} {w : Who} {a n : Nat} {x : Access} (h : s.Inv) : (s.agentGet pd w a n x).2.Inv := by
  unfold State.agentGet
  split
  · exact bridgeOut_inv (ite_inv (agentDirty_inv h) h)
  · exact h
  · extract_lets +onlyGivenNames _ _
    split
    · exact modPdie_inv h
    · refine sndInv_ite ?_ ?_
      · split
        · rename_i e3
          exact joinTransit_inv (snd_inv (servePage_inv h) e3)
        · rename_i e3
          exact snd_inv (servePage_inv h) e3
      · split
        · exact h
        · exact ite_inv h (joinTransit_inv h)

/-- The word of a request's end: the package with the word written, and the package as the search for its page leaves it. -/
theorem siltWord_inv {pd : Nat} {q : SReq} (h : s.Inv) : OptInv (s.siltWord pd q).1 ∧ (s.siltWord pd q).2.Inv := by
  unfold State.siltWord
  extract_lets +onlyGivenNames _
  split
  · rename_i e
    have i1 := snd_inv (agentGet_inv h) e
    exact ⟨optInv_some (setFullIf_inv (store_inv i1)), i1⟩
  · rename_i e
    have i1 := snd_inv (agentGet_inv h) e
    exact ⟨optInv_some (report_inv i1), i1⟩
  · rename_i e
    exact ⟨optInv_none, snd_inv (agentGet_inv h) e⟩

theorem siltEnd_inv {pd : Nat} {q : SReq} (h : s.Inv) : (s.siltEnd pd q).Inv := by
  obtain ⟨written, left⟩ := siltWord_inv (pd := pd) (q := q) h
  unfold State.siltEnd
  split
  · rename_i e
    rw [e] at written
    exact modPdie_inv (written _ rfl)
  · rename_i e
    exact modPdie_inv (snd_inv left e)

theorem modSilt_inv {pd id : Nat} {f : SReq → SReq} (h : s.Inv) : (s.modSilt pd id f).Inv := modPdie_inv h

theorem prefetchPage_inv {pd id status devCause : Nat} (h : s.Inv) : (s.prefetchPage pd id status devCause).Inv := by
  unfold State.prefetchPage
  split
  · exact h
  · exact ite_inv (siltEnd_inv h) (modSilt_inv h)

theorem prefetchAgain_inv {pd id va : Nat} (h : s.Inv) : (s.prefetchAgain pd id va).Inv := modSilt_inv h

theorem prefetchReport_inv {pd : Nat} {q : SReq} {cause va level status drive : Nat} (h : s.Inv) :
    (s.prefetchReport pd q cause va level status drive).Inv :=
  report_inv h

theorem failedPrefetch_inv {x : Transit} {status drive : Nat} (h : s.Inv) : (s.failedPrefetch x status drive).Inv := by
  unfold State.failedPrefetch
  refine ite_inv h ?_
  split
  · exact prefetchReport_inv h
  · exact h

theorem closeTransit_inv {pd te status : Nat} (h : s.Inv) : (s.closeTransit pd te status).Inv := by
  unfold State.closeTransit
  split
  · exact h
  · rename_i x _
    extract_lets +onlyGivenNames -underBinder s1 _ _ kept s2 _ s3
    have i1 : s1.Inv := modPdie_inv h
    have ik : kept.Inv := ite_inv (storeLE_inv i1) i1
    have i2 : s2.Inv := ite_inv (ite_inv (storeLE_inv i1) (giveBack_inv i1)) (giveBack_inv ik)
    have i3 : s3.Inv := ite_inv i2 (failedPrefetch_inv i2)
    clear_value s3
    refine foldl_inv (fun u w hu => ?_) i3
    cases w with
    | task cx a => exact ite_inv (requeue_inv hu) (storagePacket_inv hu)
    | request id => exact foldl_inv (fun _ _ hv => ite_inv (prefetchAgain_inv hv) (prefetchPage_inv hv)) hu
    | agent d r pc work => exact ite_inv hu (modPdie_inv hu)

theorem faultData_inv {x : Transit} {q : SReq} {n : Nat} (h : s.Inv) : (s.faultData x q n).Inv := copyRange_inv h

theorem progData_inv {pd : Nat} {q : SReq} {n i : Nat} (h : s.Inv) : DataEndInv (s.progData pd q n i) := by
  induction n generalizing s i with
  | zero => exact h
  | succ n ih =>
    unfold State.progData
    extract_lets +onlyGivenNames _
    split
    · rename_i e
      exact snd_inv (agentGet_inv h) e
    · rename_i e
      exact snd_inv (agentGet_inv h) e
    · rename_i e
      have i1 := snd_inv (agentGet_inv h) e
      exact dataEndInv_ite i1 (dataEndInv_ite (ih (copyRange_inv i1)) (dataEndInv_ite i1 (ih (copyRange_inv i1))))

theorem siltData_inv {pd : Nat} {q : SReq} (h : s.Inv) : (s.siltData pd q).Inv := by
  unfold State.siltData
  split
  · rename_i e
    exact siltEnd_inv (dataEndInv_eq e (progData_inv h))
  · rename_i e
    exact siltEnd_inv (dataEndInv_eq e (progData_inv h))
  · rename_i e
    exact modSilt_inv (dataEndInv_eq e (progData_inv h))

theorem prefetchStart_inv {pd : Nat} {q : SReq} (h : s.Inv) : (s.prefetchStart pd q).Inv := by
  unfold State.prefetchStart
  refine ite_inv (prefetchPage_inv (modSilt_inv h)) ?_
  split
  · exact prefetchPage_inv (modSilt_inv h)
  · refine ite_inv (prefetchPage_inv (modSilt_inv h)) ?_
    refine ite_inv ?_ ?_
    · split
      · rename_i e2
        exact joinTransit_inv (modSilt_inv (snd_inv (servePage_inv h) e2))
      · rename_i e2
        exact prefetchPage_inv (modSilt_inv (prefetchReport_inv (snd_inv (servePage_inv h) e2)))
    · split
      · exact joinTransit_inv (modSilt_inv h)
      · exact prefetchPage_inv (modSilt_inv h)

theorem modPair_inv {pd e drive : Nat} {f : QPair → QPair} (h : s.Inv) : (s.modPair pd e drive f).Inv := modPdie_inv h

theorem submit_inv {pd e : Nat} {q : SReq} (h : s.Inv) : (s.submit pd e q).Inv := modSilt_inv (modPair_inv h)

theorem completed_inv {pd e drive cid status : Nat} (h : s.Inv) : (s.completed pd e drive cid status).Inv := modPair_inv h

theorem pageSettled_inv {pd : Nat} {q : SReq} (h : s.Inv) : (s.pageSettled pd q).2.Inv := by
  unfold State.pageSettled
  split
  · exact h
  · split
    · rename_i e2
      exact snd_inv (agentGet_inv h) e2
    · exact h

theorem siltSubmit_inv {pd e : Nat} (h : s.Inv) : (s.siltSubmit pd e).Inv := by
  unfold State.siltSubmit
  extract_lets +onlyGivenNames _ s1
  have i1 : s1.Inv := foldl_inv (fun _ _ h' => pageSettled_inv h') h
  split
  · exact ite_inv (siltEnd_inv i1) (siltData_inv i1)
  · split
    · exact i1
    · exact ite_inv (prefetchStart_inv i1) (ite_inv (siltEnd_inv i1) (submit_inv i1))

theorem siltComplete_inv {pd cid status : Nat} (h : s.Inv) : (s.siltComplete pd cid status).Inv := by
  unfold State.siltComplete
  split
  · exact h
  · extract_lets +onlyGivenNames _
    split
    · split
      · exact modPdie_inv (completed_inv h)
      · refine ite_inv (closeTransit_inv (modPdie_inv (completed_inv h))) ?_
        extract_lets +onlyGivenNames s2
        have i2 : s2.Inv := faultData_inv (completed_inv h)
        exact ite_inv (closeTransit_inv (modPdie_inv i2)) (modSilt_inv i2)
    · exact ite_inv (siltEnd_inv (completed_inv h)) (siltData_inv (completed_inv h))

theorem taskRec_inv {r : SlotRef} {t : Slot} {ra : Spec} {a n al : Nat} (h : s.Inv) : RecInv (taskRec r t s ra a n al) := by
  unfold taskRec
  refine recInv_ite (notYet_inv h) ?_
  split
  · exact trivial
  · exact startWalk_inv (setSlot_inv h)
  · refine recInv_ite (notYet_inv h) ?_
    refine recInv_ite (bridgeOut_inv (setSlot_inv h)) ?_
    split
    · exact trivial
    · split <;> exact trivial
  · split
    · exact trivial
    · exact recInv_ite (notYet_inv h) trivial
  · split <;> exact trivial
  · exact trivial

theorem bodySilt_inv {op : Nat} {a b : Spec} {x : SlotRef} {t : Slot} (h : s.Inv) : ResInv (bodySilt op a b x t s) := by
  unfold bodySilt
  extract_lets +onlyGivenNames _
  split
  · rename_i e
    exact recInv_eq e (taskRec_inv h)
  · exact resInv_ite trivial (resInv_ite trivial (resInv_ite trivial (modSlot_inv (modPdie_inv (inv_of_mem h)))))

theorem execSstat_inv {c : Ctl} {d a : Spec} (h : s.Inv) : OutInv (execSstat c d a s) :=
  issue_inv (fun _ _ _ h' => okBody_inv (fun _ _ _ h2 => fly_inv h2) h') h

/-! ## Records of jobs -/

theorem get_inv {rd : Reader} {a n al : Nat} (h : RecInv (rd a n al)) : ExcInv (rd.get a n al) := by
  unfold Reader.get
  split
  · exact excInv_ok
  · rename_i e
    exact excInv_error (recInv_eq e h)

theorem need_inv {b : Bool} {x : Res} (hx : ResInv x) : ExcInv (need b x) := by
  unfold need
  split
  · exact excInv_ok
  · exact excInv_error hx

theorem readEntries_inv {p : Poster} {n a : Nat} (hp : PosterInv p) : ExcInv (readEntries p n a) := by
  induction n generalizing a with
  | zero => exact excInv_ok
  | succ n ih =>
    unfold readEntries
    refine excInv_bind (get_inv (hp.1 _ _ _)) fun x => ?_
    extract_lets +onlyGivenNames _
    refine excInv_bind (need_inv (hp.2 _)) fun _ => ?_
    refine excInv_bind (get_inv (hp.1 _ _ _)) fun y => ?_
    split
    · exact excInv_error (hp.2 _)
    · split
      · exact excInv_error (hp.2 _)
      · exact excInv_bind ih fun _ => excInv_ok

theorem readSchedule_inv {p : Poster} {a : Nat} (hp : PosterInv p) : ExcInv (readSchedule p a) := by
  unfold readSchedule
  split
  · exact excInv_ok
  · exact excInv_bind (need_inv (hp.2 _)) fun _ => excInv_bind (get_inv (hp.1 _ _ _)) fun _ =>
      excInv_bind (need_inv (hp.2 _)) fun _ => excInv_bind (readEntries_inv hp) fun _ => excInv_ok

theorem readStages_inv {p : Poster} {size n a : Nat} (hp : PosterInv p) : ExcInv (readStages p size n a) := by
  induction n generalizing a with
  | zero => exact excInv_ok
  | succ n ih =>
    unfold readStages
    refine excInv_bind (get_inv (hp.1 _ _ _)) fun x => ?_
    split
    · exact excInv_error (hp.2 _)
    · exact excInv_bind ih fun _ => excInv_bind (need_inv (hp.2 _)) fun _ => excInv_ok

theorem readCard_inv {cx : Nat} {p : Poster} {a : Nat} (hp : PosterInv p) : ExcInv (s.readCard cx p a) := by
  refine excInv_bind (get_inv (hp.1 _ _ _)) fun x => excInv_bind (need_inv (hp.2 _)) fun _ =>
    excInv_bind (readSchedule_inv hp) fun _ => ?_
  exact excInv_ite (excInv_bind (readStages_inv hp) fun _ => excInv_ok) excInv_ok

theorem addSched_inv {cx d : Nat} {es : List CEnt} {time : Time} {poster : SlotRef} {who pc : Word} {iword : W32} (h : s.Inv) :
    (s.addSched cx d es time poster who pc iword).2.Inv :=
  sndInv_ite h (modDie_inv (inv_of_mem h))

theorem addCard_inv {cx : Nat} {c : Card} {raw : Nat} (h : s.Inv) : (s.addCard cx c raw).Inv := by
  unfold State.addCard
  extract_lets +onlyGivenNames _ s1
  have i1 : s1.Inv := modCtx_inv (inv_of_mem h)
  exact ite_inv (cardDone_inv i1) (modPdie_inv (storeLE_inv i1))

/-- A task's way of reading its records ends in a canonical state. -/
theorem taskPoster_inv {r : SlotRef} {t : Slot} {n : Spec} (h : s.Inv) : PosterInv (taskPoster r t s n) :=
  ⟨fun _ _ _ => taskRec_inv h, fun _ => trivial⟩

theorem bodyJpost_inv {a b : Spec} {x : SlotRef} {t : Slot} (h : s.Inv) : ResInv (bodyJpost a b x t s) := by
  unfold bodyJpost
  split
  · rename_i e
    exact readCard_inv (taskPoster_inv h) _ e
  · extract_lets +onlyGivenNames _
    split
    · exact trivial
    · extract_lets +onlyGivenNames _
      refine resInv_ite trivial (resInv_ite trivial (resInv_ite trivial ?_))
      have i1 {k : CoreRef} {loc : Nat} {time : Time} {n : Int} : ((s.count k loc time false n).flush k none).Inv :=
        flush_inv (count_inv h)
      extract_lets +onlyGivenNames _ _ p' s1
      have i2 : s1.Inv := addCard_inv (addSched_inv i1)
      show State.Inv _
      split
      · exact ite_inv i2 (modSlot_inv i2)
      · exact i2

theorem bodyGfork_inv {d a b : Spec} {x : SlotRef} {t : Slot} (h : s.Inv) : ResInv (bodyGfork d a b x t s) := by
  unfold bodyGfork
  refine resInv_ite trivial ?_
  split
  · rename_i e
    exact recInv_eq e (taskRec_inv h)
  · refine resInv_ite trivial ?_
    extract_lets +onlyGivenNames _ _
    split
    · exact trivial
    · refine resInv_ite trivial ?_
      refine resInv_ite trivial ?_
      extract_lets +onlyGivenNames _ _ _ _ _ s3
      have i3 : s3.Inv := modQuad_inv (modDie_inv (flush_inv (count_inv h)))
      extract_lets +onlyGivenNames s4
      have i4 : s4.Inv := by
        unfold s4
        split
        · exact modCtx_inv i3
        · exact i3
      exact fly_inv (modSlot_inv i4)

theorem inGroup_inv {f : Nat → Nat → GroupRec → Body} {x : SlotRef} {t : Slot}
    (hf : ∀ n n1 x1 x2 t1 u, State.Inv u → ResInv (f n n1 x1 x2 t1 u)) (h : s.Inv) : ResInv (inGroup f x t s) := by
  unfold inGroup
  split
  · exact trivial
  · split
    · exact trivial
    · exact hf _ _ _ _ _ _ h

theorem bodyGrwd_inv {a : Spec} {x : SlotRef} {t : Slot} (h : s.Inv) : ResInv (bodyGrwd a x t s) :=
  inGroup_inv (fun _ _ _ _ _ _ h' => resInv_ite h' (resInv_ite trivial (withRelease_inv h' (fun _ h2 => modGroup_inv h2)))) h

theorem bodyGjoin_inv {d a : Spec} {x : SlotRef} {t : Slot} (h : s.Inv) : ResInv (bodyGjoin d a x t s) :=
  inGroup_inv (fun _ _ _ _ _ _ h' => resInv_ite trivial (acquire_inv (fly_inv h'))) h

theorem bodyGcancel_inv {a : Spec} {x : SlotRef} {t : Slot} (h : s.Inv) : ResInv (bodyGcancel a x t s) :=
  inGroup_inv (fun _ _ _ _ _ _ h' => resInv_ite h' (resInv_ite trivial (cancelSibling_inv h'))) h

theorem bodyGstat_inv {d a : Spec} {x : SlotRef} {t : Slot} (h : s.Inv) : ResInv (bodyGstat d a x t s) :=
  inGroup_inv (fun _ _ _ _ _ _ h' => fly_inv h') h

/-! ## The copy engines -/

theorem agentEach_inv {pd : Nat} {w : Who} {a : Nat} {x : Access} {n : Nat} (h : s.Inv) : (s.agentEach pd w a x n).2.Inv := by
  induction n generalizing s a with
  | zero => exact h
  | succ n ih =>
    have i1 := agentGet_inv (pd := pd) (w := w) (a := a) (n := 1) (x := x) h
    unfold State.agentEach
    split
    · rename_i e
      have i2 := ih (a := a + 1) (snd_inv i1 e)
      split
      · rename_i e2
        exact snd_inv i2 e2
      · exact i2
    · exact i1

theorem uncache_inv {cx : Nat} {ls : List Nat} (h : s.Inv) : (s.uncache cx ls).Inv := inv_of_mem h

theorem engineStore_inv {cx : Nat} {ps : List (Nat × Nat × Byte)} (h : s.Inv) : (s.engineStore cx ps).Inv :=
  foldl_inv (fun _ _ h' => ite_inv (fill_inv h') h') (uncache_inv (store_inv h))

theorem copyElem_inv {pd d : Nat} {w : Who} {priv : Bool} {e : CEnt} {j : Nat} {l : LineAcc} (hl : l.s.Inv) :
    LineResInv (copyElem pd d w priv e j l) := by
  unfold copyElem
  extract_lets +onlyGivenNames _ _ _ _ src
  have read : src.2.Inv := sndInv_ite (agentEach_inv hl) hl
  clear_value src
  split
  · exact hl
  · split
    · exact read
    · exact read
    · have written {da n : Nat} := agentEach_inv (pd := pd) (w := w) (a := da) (x := .write) (n := n) read
      extract_lets +onlyGivenNames _ _
      split
      · rename_i e2
        exact snd_inv written e2
      · rename_i e2
        exact snd_inv written e2
      · rename_i e2
        exact snd_inv written e2

theorem copyElems_inv {pd d : Nat} {w : Who} {priv : Bool} {e : CEnt} {n j : Nat} {l : LineAcc} (hl : l.s.Inv) :
    LineResInv (copyElems pd d w priv e n j l) := by
  induction n generalizing j l with
  | zero => exact hl
  | succ n ih =>
    have i1 := copyElem_inv (pd := pd) (d := d) (w := w) (priv := priv) (e := e) (j := j) hl
    unfold copyElems
    split
    · rename_i e1
      exact ih (lineResInv_eq e1 i1)
    · exact i1

theorem modChan_inv {cx d ch : Nat} {f : Chan → Chan} (h : s.Inv) : (s.modChan cx d ch f).Inv := modDie_inv h

theorem copyStart_inv {cx d ch : Nat} (h : s.Inv) : (s.copyStart cx d ch).Inv := by
  unfold State.copyStart
  refine ite_inv h ?_
  split
  · exact h
  · split
    · exact h
    · exact ite_inv (modChan_inv h) h

theorem copyLine_inv {cx d ch : Nat} (h : s.Inv) : (s.copyLine cx d ch).Inv := by
  unfold State.copyLine
  extract_lets +onlyGivenNames _
  split
  · split
    · exact h
    · refine ite_inv h ?_
      extract_lets +onlyGivenNames _ _ _ _
      split
      · rename_i e3
        exact lineResInv_eq e3 (copyElems_inv h)
      · rename_i e3
        exact report_inv (modChan_inv (lineResInv_eq e3 (copyElems_inv h)))
      · rename_i e3
        extract_lets +onlyGivenNames _ s2
        have i2 : s2.Inv := engineStore_inv (ite_inv (lineResInv_eq e3 (copyElems_inv h))
          (sampleEverywhere_inv (lineResInv_eq e3 (copyElems_inv h))))
        clear_value s2
        extract_lets +onlyGivenNames _ s4
        have i4 : s4.Inv := modChan_inv (inv_of_mem i2)
        extract_lets +onlyGivenNames s5
        have i5 : s5.Inv := by
          unfold s5
          split
          · exact ite_inv i4 (report_inv i4)
          · exact i4
        exact ite_inv (postNotice_inv i5) i5
  · exact h

theorem dropSched_inv {cx d id : Nat} (h : s.Inv) : (s.dropSched cx d id).Inv := modDie_inv h

theorem copyDone_inv {cx d ch : Nat} (h : s.Inv) : (s.copyDone cx d ch).Inv := by
  unfold State.copyDone
  extract_lets +onlyGivenNames _
  split
  · split
    · exact h
    · exact ite_inv h (ite_inv (dropSched_inv (modChan_inv h)) (modDie_inv (modChan_inv h)))
  · exact h

theorem copyRestart_inv {cx d ch : Nat} {abandon : Bool} (h : s.Inv) : (s.copyRestart cx d ch abandon).Inv := by
  unfold State.copyRestart
  refine ite_inv h ?_
  refine ite_inv (modChan_inv h) ?_
  split
  · exact h
  · exact ite_inv (dropSched_inv (modChan_inv h)) (modDie_inv (modChan_inv h))

theorem onChan_inv {a : Spec} {rsvOk : Word → Bool} {f : Nat → Nat → Sched → Body} {x : SlotRef} {t : Slot}
    (hf : ∀ n n1 x1 x2 t1 u, State.Inv u → ResInv (f n n1 x1 x2 t1 u)) (h : s.Inv) : ResInv (onChan a rsvOk f x t s) := by
  unfold onChan
  extract_lets +onlyGivenNames _ _
  split
  · exact trivial
  · exact resInv_ite (hf _ _ _ _ _ _ h) trivial

theorem bodyCadv_inv {a b : Spec} {x : SlotRef} {t : Slot} (h : s.Inv) : ResInv (bodyCadv a b x t s) :=
  onChan_inv (fun _ _ _ _ _ _ h' => resInv_ite trivial (ite_inv (modDie_inv h') (modSlot_inv (modDie_inv h')))) h

theorem bodyCwm_inv {d a : Spec} {x : SlotRef} {t : Slot} (h : s.Inv) : ResInv (bodyCwm d a x t s) :=
  onChan_inv (fun _ _ _ _ _ _ h' => fly_inv h') h

theorem bodyCwait_inv {a b : Spec} {x : SlotRef} {t : Slot} (h : s.Inv) : ResInv (bodyCwait a b x t s) :=
  resInv_ite h (resInv_ite trivial (onChan_inv (fun _ _ _ _ _ _ h' => resInv_ite trivial (resInv_ite h' trivial)) h))

theorem bodyCstat_inv {d a : Spec} {x : SlotRef} {t : Slot} (h : s.Inv) : ResInv (bodyCstat d a x t s) :=
  onChan_inv (fun _ _ _ _ _ _ h' => fly_inv h') h

/-! ## Groups -/

theorem outKeys_inv {pd : Nat} {w : Who} {out n i : Nat} (h : s.Inv) : (s.outKeys pd w out n i).2.Inv := by
  induction n generalizing s i with
  | zero => exact h
  | succ n ih =>
    unfold State.outKeys
    split
    · rename_i e
      exact snd_inv (agentGet_inv h) e
    · rename_i e
      exact snd_inv (agentGet_inv h) e
    · rename_i e
      have i1 := ih (i := i + 1) (snd_inv (agentGet_inv h) e)
      split
      · rename_i e2
        exact snd_inv i1 e2
      · rename_i e2
        exact snd_inv i1 e2

theorem writeOut_inv {cx d g : Nat} (h : s.Inv) : (s.writeOut cx d g).Inv := by
  unfold State.writeOut
  split
  · exact h
  · refine ite_inv h ?_
    extract_lets +onlyGivenNames _
    split
    · rename_i e2
      exact snd_inv (outKeys_inv h) e2
    · rename_i e2
      extract_lets +onlyGivenNames s1
      have i1 : s1.Inv := foldl_inv (fun _ _ h' => store_inv h') (snd_inv (outKeys_inv h) e2)
      extract_lets +onlyGivenNames s2
      have i2 : s2.Inv := by
        unfold s2
        split
        · exact report_inv i1
        · exact i1
      exact freeGroup_inv (modGroup_inv i2)

theorem resolveGroup_inv {cx d g : Nat} (h : s.Inv) : (s.resolveGroup cx d g).Inv := by
  unfold State.resolveGroup
  split
  · exact h
  · exact ite_inv h (writeOut_inv (freeGroup_inv (modGroup_inv h)))

theorem groupDeadline_inv {cx d g : Nat} (h : s.Inv) : (s.groupDeadline cx d g).Inv := by
  unfold State.groupDeadline
  split
  · exact h
  · exact ite_inv h (foldl_inv (fun _ _ h' => cancelSibling_inv h') (modGroup_inv h))

theorem groupTick_inv {cx d g : Nat} (h : s.Inv) : (s.groupTick cx d g).Inv := by
  unfold State.groupTick
  split
  · exact h
  · refine ite_inv (writeOut_inv h) ?_
    extract_lets +onlyGivenNames _ s1
    have i1 : s1.Inv := ite_inv (modGroup_inv h) h
    exact resolveGroup_inv (ite_inv (groupDeadline_inv i1) i1)

theorem groupsTick_inv (h : s.Inv) : s.groupsTick.Inv :=
  foldl_inv (fun _ _ h' => ite_inv h' (foldl_inv (fun _ _ h2 => groupTick_inv h2) h')) h

/-! ## Crossings and samples -/

theorem crossVar_inv {k : CoreRef} {v : Nat} {e : XEnt} (h : s.Inv) : (s.crossVar k v e).Inv := store_inv h

theorem setVar_inv {k : CoreRef} {v : Nat} {e : XEnt} (h : s.Inv) : (s.setVar k v e).Inv := store_inv h

theorem makeRoom_inv {k : CoreRef} {n : Nat} (h : s.Inv) : (s.makeRoom k n).Inv := ite_inv (flush_inv h) h

theorem setUnit_inv {k : CoreRef} {u : XUnit} (h : s.Inv) : (s.setUnit k u).Inv := by
  unfold State.setUnit
  refine ite_inv (modCore_inv h) ?_
  refine ite_inv (modCore_inv h) ?_
  extract_lets +onlyGivenNames s2
  have i2 : s2.Inv := makeRoom_inv (modCore_inv h)
  extract_lets +onlyGivenNames s3
  have i3 : s3.Inv := by
    unfold s3
    split
    · exact count_inv i2
    · exact i2
  split
  · exact count_inv i3
  · exact i3

theorem fireVar_inv {k : CoreRef} {time : Time} {a : State × List Msg × XUnit} {v : Nat} (ha : a.1.Inv) :
    (fireVar k time a v).1.Inv := by
  obtain ⟨s, ms, u⟩ := a
  unfold fireVar
  dsimp only
  split
  · exact ha
  · exact crossVar_inv (ite_inv (postNotice_inv ha) ha)

theorem unitSend_inv {k : CoreRef} {ms : List Msg} {u : XUnit} (h : s.Inv) : (s.unitSend k ms u).Inv := by
  unfold State.unitSend
  extract_lets +onlyGivenNames _ _ _ _ s3
  have i3 : s3.Inv := flush_inv (setUnit_inv (foldl_inv (fun _ _ h' => count_inv h') (makeRoom_inv h)))
  clear_value s3
  exact modCore_inv (inv_of_mem i3)

theorem fire_inv {k : CoreRef} (h : s.Inv) : (s.fire k).Inv := by
  unfold State.fire
  split
  · exact h
  · split
    · exact h
    · refine ite_inv h (unitSend_inv ?_)
      exact List.foldlRecOn (motive := fun a : State × List Msg × XUnit => a.1.Inv) _ _ h fun a ha v _ => fireVar_inv ha

theorem fireOne_inv {k : CoreRef} (h : s.Inv) : (s.fireOne k).Inv := by
  unfold State.fireOne
  split
  · exact h
  · split
    · exact h
    · extract_lets +onlyGivenNames _
      split
      · exact ite_inv h (modCore_inv (fireVar_inv h))
      · exact fire_inv h

theorem installVar_inv {r : SlotRef} {t : Slot} {u : XUnit} {v : Nat} {p : XVar × XEnt} (h : s.Inv) :
    ResInv (installVar r t s u v p) :=
  resInv_ite trivial (resInv_ite trivial (setUnit_inv (setVar_inv (sampleLines_inv h))))

theorem bodyQdef_inv {a b : Spec} {x : SlotRef} {t : Slot} (h : s.Inv) : ResInv (bodyQdef a b x t s) := by
  unfold bodyQdef
  refine resInv_ite (notYet_inv h) ?_
  refine resInv_ite trivial ?_
  refine resInv_ite trivial ?_
  split
  · rename_i e
    exact recInv_eq e (taskRec_inv h)
  · refine resInv_ite trivial ?_
    refine resInv_ite trivial ?_
    split
    · exact trivial
    · exact resInv_ite trivial (installVar_inv h)

theorem bodyQchange_inv {quant : Bool} {a b : Spec} {x : SlotRef} {t : Slot} (h : s.Inv) :
    ResInv (bodyQchange quant a b x t s) := by
  unfold bodyQchange
  extract_lets +onlyGivenNames _ _ _ _
  split
  · exact trivial
  · refine resInv_ite trivial ?_
    split
    · exact trivial
    · exact resInv_ite trivial (resInv_ite trivial (installVar_inv h))

theorem bodyQread_inv {d a : Spec} {x : SlotRef} {t : Slot} (h : s.Inv) : ResInv (bodyQread d a x t s) := by
  unfold bodyQread
  refine resInv_ite trivial ?_
  refine resInv_ite trivial ?_
  split
  · exact trivial
  · exact resInv_ite trivial (fly_inv h)

theorem bodyQstat_inv {d a : Spec} {x : SlotRef} {t : Slot} (h : s.Inv) : ResInv (bodyQstat d a x t s) := by
  unfold bodyQstat
  extract_lets +onlyGivenNames _ _
  split
  · exact trivial
  · exact resInv_ite trivial (fly_inv h)

theorem bodyQsnap_inv {d a b : Spec} {x : SlotRef} {t : Slot} (h : s.Inv) : ResInv (bodyQsnap d a b x t s) := by
  unfold bodyQsnap
  extract_lets +onlyGivenNames _ _ _ _ _
  split
  · exact resInv_ite trivial (resInv_ite trivial (resInv_ite trivial (resInv_ite trivial
      (resInv_ite trivial (modCtx_inv (count_inv (inv_of_mem h)))))))
  · exact trivial
  · exact trivial

/-- Unfolded by `delta`, with the access left unknown: the kernel, to match on the access, would write the number of a variable's word, a
multiple of a large power of two, out in unary. -/
theorem snapRun_inv {pd : Nat} {w : Who} {l : List (CoreRef × Nat)} {q : Snap} (h : s.Inv) : (snapRun pd w l q s).2.2.Inv := by
  have found {s : State} {a : Nat} (h : s.Inv) : (s.agentGet pd w a 4 .write).2.Inv := agentGet_inv h
  delta snapRun snapRun._f
  obtain ⟨get, hget⟩ : ∃ get, @State.agentGet = get := ⟨_, rfl⟩
  rw [hget] at found ⊢
  induction l generalizing q s with
  | nil => exact h
  | cons x l ih =>
    dsimp only
    split
    · rename_i e
      exact snd_inv (found h) e
    · rename_i e
      exact ih (snd_inv (found h) e)
    · rename_i e
      exact ih (store_inv (snd_inv (found h) e))

theorem sampleSnap_inv {cx i : Nat} (h : s.Inv) : (s.sampleSnap cx i).Inv := by
  unfold State.sampleSnap
  split
  · exact h
  · refine ite_inv h ?_
    extract_lets +onlyGivenNames _ _ x q s1
    have i1 : s1.Inv := modCtx_inv (snapRun_inv h)
    clear_value s1
    refine ite_inv i1 ?_
    split
    · rename_i e
      exact snd_inv (agentGet_inv i1) e
    · rename_i e
      have i2 := snd_inv (agentGet_inv i1) e
      extract_lets +onlyGivenNames rep s3 s4 s5
      have reported {u : State} (hu : u.Inv) (tr : Option Trap) : (rep u tr).Inv := by
        cases tr with
        | none => exact hu
        | some tr => exact report_inv hu
      clear_value rep
      have i3 : s3.Inv := reported i2 _
      have i4 : s4.Inv := by
        unfold s4
        split
        · exact setFullIf_inv (store_inv i3)
        · exact reported i3 _
        · exact i3
      exact count_inv (modCtx_inv i4)

/-! ## The arrays -/

theorem modArr_inv {q : QuadRef} {f : Arr → Arr} (h : s.Inv) : (s.modArr q f).Inv := modQuad_inv h

theorem pushCmd_inv {q : QuadRef} {c : ArrCmd} (h : s.Inv) : (s.pushCmd q c).Inv := modArr_inv h

theorem place_inv {kind : Nat} {keep : Bool} {tile : Nat} {shape : W32} {lim : Word} {x : SlotRef} {t : Slot} (h : s.Inv) :
    ResInv (place kind keep tile shape lim x t s) := by
  unfold place
  extract_lets +onlyGivenNames _ _
  split
  · exact trivial
  · refine resInv_ite trivial ?_
    refine resInv_ite (notYet_inv h) ?_
    extract_lets +onlyGivenNames _ s1
    have i1 : s1.Inv := pushCmd_inv (perform_inv h)
    clear_value s1
    extract_lets +onlyGivenNames s2
    have i2 : s2.Inv := inv_of_mem i1
    exact ite_inv (modSlot_inv i2) i2

theorem bodyMset_inv {a : Spec} {i : BitVec 9} {x : SlotRef} {t : Slot} (h : s.Inv) : ResInv (bodyMset a i x t s) :=
  resInv_ite trivial (modSlot_inv h)

theorem bodyTcfg_inv {d a b : Spec} {x : SlotRef} {t : Slot} (h : s.Inv) : ResInv (bodyTcfg d a b x t s) :=
  resInv_ite trivial (resInv_ite trivial (resInv_ite trivial (place_inv h)))

theorem reportOr_inv {r : SlotRef} {t : Slot} {q : QuadRef} {remote : Bool} (h : s.Inv) : ResInv (reportOr r t s q remote) := by
  unfold reportOr
  split
  · exact takeFault_inv (setSlot_inv h)
  · exact acquire_inv h

theorem bodyMwait_inv {a : Spec} {x : SlotRef} {t : Slot} (h : s.Inv) : ResInv (bodyMwait a x t s) :=
  resInv_ite trivial (reportOr_inv h)

theorem tellFail_inv {c : ArrCmd} {f : MatFail} (h : s.Inv) : (s.tellFail c f).Inv := ite_inv (setSlot_inv h) (modCtx_inv h)

theorem arrRead_inv {pd : Nat} {w : Who} {a n : Nat} (h : s.Inv) : FetchedInv (s.arrRead pd w a n) := by
  unfold State.arrRead
  split
  · rename_i e
    exact snd_inv (agentEach_inv h) e
  · rename_i e
    exact snd_inv (agentEach_inv h) e
  · rename_i e
    split <;> exact snd_inv (agentEach_inv h) e

theorem runWld_inv {q : QuadRef} {c : ArrCmd} (h : s.Inv) : CmdInv (s.runWld q c) := by
  unfold State.runWld
  extract_lets +onlyGivenNames _ _ _ _ _ _ _ _ stop
  split
  · rename_i e
    exact cmdInv_none (fetchedInv_eq e (arrRead_inv h))
  · rename_i e
    exact cmdInv_some (modArr_inv (fetchedInv_eq e (arrRead_inv h)))
  · rename_i e
    have i1 := fetchedInv_eq e (arrRead_inv h)
    split
    · rename_i e2
      exact cmdInv_none (fetchedInv_eq e2 (arrRead_inv i1))
    · rename_i e2
      exact cmdInv_some (modArr_inv (fetchedInv_eq e2 (arrRead_inv i1)))
    · rename_i e2
      have i2 := fetchedInv_eq e2 (arrRead_inv i1)
      split
      · rename_i e3
        exact cmdInv_none (fetchedInv_eq e3 (arrRead_inv i2))
      · rename_i e3
        exact cmdInv_some (modArr_inv (fetchedInv_eq e3 (arrRead_inv i2)))
      · rename_i e3
        exact cmdInv_some (modArr_inv (fetchedInv_eq e3 (arrRead_inv i2)))

theorem xRow_inv {pd : Nat} {w : Who} {mc : List Word} {p : Nat} {l : List (Nat × Nat)} (h : s.Inv) :
    (s.xRow pd w mc p l).2.Inv := by
  induction l generalizing s with
  | nil => exact h
  | cons x l ih =>
    refine sndInv_ite (ih h) ?_
    split
    · rename_i e
      exact fetchedInv_eq e (arrRead_inv h)
    · rename_i e
      exact fetchedInv_eq e (arrRead_inv h)
    · rename_i e
      have i1 := fetchedInv_eq e (arrRead_inv h)
      split
      · rename_i e2
        exact fetchedInv_eq e2 (arrRead_inv i1)
      · rename_i e2
        exact fetchedInv_eq e2 (arrRead_inv i1)
      · rename_i e2
        extract_lets +onlyGivenNames _
        have i2 := ih (fetchedInv_eq e2 (arrRead_inv i1))
        split
        · rename_i e3
          exact snd_inv i2 e3
        · exact i2

theorem hurtRow_inv {q : QuadRef} {shape : W32} {r : Nat} (h : s.Inv) : (s.hurtRow q shape r).Inv := inv_of_mem h

theorem streamRow_inv {q : QuadRef} {c : ArrCmd} {m : Nat} (h : s.Inv) : RowResInv (s.streamRow q c m) := by
  unfold State.streamRow
  extract_lets +onlyGivenNames _ _ _
  split
  · rename_i e
    exact snd_inv (xRow_inv h) e
  · rename_i e
    exact snd_inv (xRow_inv h) e
  · rename_i e
    refine rowResInv_ite (snd_inv (xRow_inv h) e) ?_
    extract_lets +onlyGivenNames _ _ s1
    have i1 : s1.Inv := store_inv (snd_inv (xRow_inv h) e)
    exact ite_inv (hurtRow_inv i1) i1

theorem toutRow_inv {q : QuadRef} {c : ArrCmd} {r : Nat} {g : Map W32} (h : s.Inv) : RowResInv (s.toutRow q c r g).1 := by
  unfold State.toutRow
  extract_lets +onlyGivenNames _ _ _ _ _ _ _ _ _ _ _ _ _
  split
  · rename_i e
    exact snd_inv (agentEach_inv h) e
  · rename_i e
    exact snd_inv (agentEach_inv h) e
  · rename_i e
    have i1 := snd_inv (agentEach_inv h) e
    split
    · rename_i e2
      exact snd_inv (agentEach_inv i1) e2
    · rename_i e2
      exact snd_inv (agentEach_inv i1) e2
    · rename_i e2
      have i2 := snd_inv (agentEach_inv i1) e2
      extract_lets +onlyGivenNames _ s3 s4
      have i4 : s4.Inv := store_inv (ite_inv (sampleEverywhere_inv i2) i2)
      exact ite_inv (inv_of_mem i4) i4

theorem dropToken_inv {q : QuadRef} (h : s.Inv) : (s.dropToken q).Inv := ite_inv h (modPdie_inv (modArr_inv h))

theorem doneToken_inv {q : QuadRef} (h : s.Inv) : (s.doneToken q).Inv := ite_inv h (dropToken_inv h)

theorem arrStart_inv {q : QuadRef} (h : s.Inv) : (s.arrStart q).Inv := by
  unfold State.arrStart
  refine ite_inv h ?_
  split
  · exact h
  · split
    · exact h
    · exact ite_inv (modArr_inv h) (ite_inv (doneToken_inv (tellFail_inv (modArr_inv h))) (modArr_inv (modArr_inv h)))

theorem zeroTile_inv {q : QuadRef} {shape : W32} (h : s.Inv) : (s.zeroTile q shape).Inv := wipe_inv h

theorem runCmd_inv {q : QuadRef} {c : ArrCmd} (h : s.Inv) : CmdInv (s.runCmd q c) := by
  unfold State.runCmd
  split
  · exact runWld_inv h
  · exact cmdInv_some (modArr_inv h)
  · exact cmdInv_some (ite_inv (modArr_inv h) (zeroTile_inv (modArr_inv h)))
  · exact cmdInv_some (zeroTile_inv h)
  · exact cmdInv_some h

theorem arrEnd_inv {q : QuadRef} {c : ArrCmd} {f : Option (Trap × Nat)} (h : s.Inv) : (s.arrEnd q c f).Inv := by
  unfold State.arrEnd
  extract_lets +onlyGivenNames _ s2
  have i2 : s2.Inv := by
    unfold s2
    split
    · exact tellFail_inv (modArr_inv h)
    · exact modArr_inv h
  exact doneToken_inv i2

theorem modRun_inv {q : QuadRef} {id : Nat} {f : ArrRun → ArrRun} (h : s.Inv) : (s.modRun q id f).Inv := modArr_inv h

theorem landRows_inv {q : QuadRef} {c : ArrCmd} {n m : Nat} (h : s.Inv) : (s.landRows q c n m).Inv := by
  induction n generalizing s m with
  | zero => exact h
  | succ n ih =>
    unfold State.landRows
    split
    · rename_i e
      exact rowResInv_eq e (streamRow_inv h)
    · rename_i e
      exact arrEnd_inv (rowResInv_eq e (streamRow_inv h))
    · rename_i e
      exact ih (modRun_inv (rowResInv_eq e (streamRow_inv h)))

theorem arrTick_inv {q : QuadRef} (h : s.Inv) : (s.arrTick q).Inv := by
  unfold State.arrTick
  split
  · exact h
  · exact ite_inv (landRows_inv h) (ite_inv (modRun_inv h) (landRows_inv h))

theorem outRows_inv {q : QuadRef} {c : ArrCmd} {n r : Nat} {g : Map W32} {hurt : Option Trap} (h : s.Inv) :
    (s.outRows q c n r g hurt).Inv := by
  induction n generalizing s r g hurt with
  | zero => exact arrEnd_inv h
  | succ n ih =>
    have i1 := toutRow_inv (q := q) (c := c) (r := r) (g := g) h
    unfold State.outRows
    extract_lets +onlyGivenNames _ _
    split
    · rename_i e
      exact rowResInv_eq (congrArg Prod.fst e) i1
    · rename_i e
      exact arrEnd_inv (rowResInv_eq (congrArg Prod.fst e) i1)
    · rename_i e
      exact ih (modRun_inv (rowResInv_eq (congrArg Prod.fst e) i1))

theorem arrComplete_inv {q : QuadRef} (h : s.Inv) : (s.arrComplete q).Inv := by
  unfold State.arrComplete
  refine ite_inv h ?_
  split
  · exact h
  · split
    · exact arrEnd_inv h
    · exact outRows_inv h
    · obtain ⟨ended, left⟩ := runCmd_inv (q := q) h
      split
      · rename_i e
        exact snd_inv left e
      · rename_i e
        exact arrEnd_inv (ended _ (congrArg Prod.fst e))

theorem rampDown_inv {q : QuadRef} (h : s.Inv) : (s.rampDown q).Inv := ite_inv (modArr_inv h) h

theorem holdEnds_inv {q : QuadRef} (h : s.Inv) : (s.holdEnds q).Inv := by
  unfold State.holdEnds
  extract_lets +onlyGivenNames _
  split
  · exact h
  · exact ite_inv h (ite_inv (modArr_inv h) (dropToken_inv (modArr_inv (modArr_inv h))))

theorem returnTokens_inv {pd : Nat} (h : s.Inv) : (s.returnTokens pd).Inv := by
  unfold State.returnTokens
  refine foldl_inv (fun _ _ h' => ?_) h
  split
  · exact ite_inv (dropToken_inv h') h'
  · exact h'

theorem passTokens_inv {pd : Nat} (h : s.Inv) : (s.passTokens pd).Inv := by
  unfold State.passTokens
  refine foldl_inv (fun _ _ h' => ?_) (modPdie_inv (returnTokens_inv h))
  split
  · exact ite_inv (modArr_inv h') (modPdie_inv h')
  · exact modPdie_inv h'

theorem bodyMsend_inv {d a b : Spec} {x : SlotRef} {t : Slot} (h : s.Inv) : ResInv (bodyMsend d a b x t s) := by
  unfold bodyMsend
  extract_lets +onlyGivenNames _ _ _ _ _ _ _
  split
  · exact resInv_ite (resInv_ite (reportOr_inv (modSlot_inv h)) (modSlot_inv h)) (resInv_ite (setSlot_inv h) trivial)
  · refine resInv_ite trivial ?_
    refine resInv_ite trivial ?_
    refine resInv_ite trivial ?_
    split
    · exact trivial
    · exact resInv_ite trivial (resInv_ite trivial (resInv_ite (notYet_inv h)
        (modCtx_inv (perform_inv (setSlot_inv (inv_of_mem h))))))

theorem cmdArrives_inv {cx i : Nat} (h : s.Inv) : (s.cmdArrives cx i).Inv := by
  unfold State.cmdArrives
  split
  · exact h
  · refine ite_inv h ?_
    refine ite_inv (report_inv (modCtx_inv h)) ?_
    refine ite_inv (ite_inv h (modCtx_inv h)) ?_
    refine ite_inv h ?_
    extract_lets +onlyGivenNames _ s1
    have i1 : s1.Inv := modCtx_inv (pushCmd_inv h)
    exact ite_inv (modSlot_inv i1) i1

theorem replyArrives_inv {cx i : Nat} (h : s.Inv) : (s.replyArrives cx i).Inv := by
  unfold State.replyArrives
  split
  · exact h
  · exact modSlot_inv (modCtx_inv h)

theorem bodyMburst_inv {a : Spec} {x : SlotRef} {t : Slot} (h : s.Inv) : ResInv (bodyMburst a x t s) :=
  resInv_ite trivial (modArr_inv h)

theorem execMstat_inv {c : Ctl} {d : Spec} (h : s.Inv) : OutInv (execMstat c d s) :=
  issue_inv (fun _ _ _ h' => okBody_inv (fun _ _ _ h2 => fly_inv h2) h') h

/-! ## Events of tasks -/

theorem noteServed_inv {r : SlotRef} (h : s.Inv) : (s.noteServed r).Inv := modQuad_inv h

theorem serveOver_inv {q : QuadRef} (h : s.Inv) : (s.serveOver q).Inv := ite_inv h (modQuad_inv h)

theorem servesOver_inv (h : s.Inv) : s.servesOver.Inv := foldl_inv (fun _ _ h' => ite_inv h' (serveOver_inv h')) h

theorem bindTask_inv {r : SlotRef} (h : s.Inv) : (s.bindTask r).Inv := by
  unfold State.bindTask
  split
  · exact h
  · refine ite_inv h ?_
    extract_lets +onlyGivenNames s1
    have i1 : s1.Inv := modQuad_inv (noteServed_inv h)
    split
    · exact bindRecord_inv i1
    · exact bindSibling_inv i1
    · exact bindSwapped_inv i1
    · exact i1

theorem zeroSlot_inv {r : SlotRef} (h : s.Inv) : (s.zeroSlot r).Inv := by
  unfold State.zeroSlot
  split
  · exact h
  · exact modSlot_inv (wipe_inv h)

theorem handlerBind_inv {r : SlotRef} (h : s.Inv) : (s.handlerBind r).Inv := by
  unfold State.handlerBind
  refine ite_inv h ?_
  split
  · exact bindHandler_inv h
  · exact h

theorem stageBind_inv {r : SlotRef} (h : s.Inv) : (s.stageBind r).Inv := by
  unfold State.stageBind
  refine ite_inv h ?_
  split
  · exact h
  · extract_lets +onlyGivenNames _
    split
    · exact h
    · exact ite_inv h (bindStage_inv (modQuad_inv h))

theorem refreshQueue_inv {pd q : Nat} (h : s.Inv) : (s.refreshQueue pd q).Inv := by
  unfold State.refreshQueue
  extract_lets +onlyGivenNames _ _ _ s1
  have i1 : s1.Inv := by
    unfold s1
    split
    · exact ite_inv (modCtx_inv h) h
    · exact h
  exact modPdie_inv i1

theorem refreshQueues_inv {pd : Nat} (h : s.Inv) : (s.refreshQueues pd).Inv := foldl_inv (fun _ _ h' => refreshQueue_inv h') h

theorem dealChunk_inv {pd : Nat} (h : s.Inv) : (s.dealChunk pd).Inv := by
  unfold State.dealChunk
  refine ite_inv h ?_
  extract_lets +onlyGivenNames s1
  have i1 : s1.Inv := refreshQueues_inv h
  split
  · exact i1
  · split
    · exact i1
    · split
      · exact i1
      · exact refreshQueues_inv (modPdie_inv (modCtx_inv (ite_inv (ite_inv (modQuad_inv i1) i1) (modQuad_inv i1))))

theorem requeueEnter_inv {q : QuadRef} (h : s.Inv) : (s.requeueEnter q).Inv := ite_inv (modQuad_inv h) h

theorem siblingsEnter_inv {q : QuadRef} (h : s.Inv) : (s.siblingsEnter q).Inv := by
  unfold State.siblingsEnter
  split
  · exact h
  · split
    · exact h
    · exact foldl_inv (fun _ _ h' => endUnbound_inv h') (modQuad_inv h)

theorem shipFrom_inv {cx d q dest n : Nat} (h : s.Inv) : (s.shipFrom cx d q dest n).Inv :=
  ite_inv h (modCtx_inv (modQuad_inv (inv_of_mem h)))

theorem level_inv {cx d : Nat} (h : s.Inv) : (s.level cx d).Inv :=
  ite_inv h (foldl_inv (fun _ _ h' => shipFrom_inv h') (modDie_inv h))

theorem shipArrives_inv {cx i : Nat} (h : s.Inv) : (s.shipArrives cx i).Inv := by
  unfold State.shipArrives
  split
  · exact h
  · exact ite_inv h (ite_inv (modCtx_inv (modQuad_inv h)) (modCtx_inv h))

theorem shipAck_inv {cx i : Nat} (h : s.Inv) : (s.shipAck cx i).Inv := by
  unfold State.shipAck
  split
  · exact h
  · exact ite_inv h (modCtx_inv (modQuad_inv h))

theorem shipBounce_inv {cx i : Nat} (h : s.Inv) : (s.shipBounce cx i).Inv := by
  unfold State.shipBounce
  split
  · exact h
  · exact ite_inv h (modCtx_inv (modQuad_inv h))

theorem levelAll_inv (h : s.Inv) : s.levelAll.Inv :=
  ite_inv h (foldl_inv (fun _ _ h' => foldl_inv (fun _ _ h2 => level_inv h2) h') h)

theorem govern_inv {q : QuadRef} (h : s.Inv) : (s.govern q).Inv := by
  unfold State.govern
  extract_lets +onlyGivenNames _
  split
  · exact h
  · exact ite_inv h (modQuad_inv h)

theorem governAll_inv (h : s.Inv) : s.governAll.Inv := ite_inv h (foldl_inv (fun _ _ h' => ite_inv (govern_inv h') h') h)

theorem endCancelled_inv {r : SlotRef} (h : s.Inv) : (s.endCancelled r).Inv := ite_inv (finish_inv h) h

theorem deadlineNow_inv {cx d g : Nat} (h : s.Inv) : (s.deadlineNow cx d g).Inv := by
  unfold State.deadlineNow
  split
  · exact h
  · exact ite_inv (resolveGroup_inv (groupDeadline_inv h)) h

/-! ## Events of the mesh -/

theorem modSend_inv {cx id : Nat} {f : SendEnt → Option SendEnt} (h : s.Inv) : (s.modSend cx id f).Inv := by
  unfold State.modSend
  extract_lets +onlyGivenNames _ s1
  have i1 : s1.Inv := inv_of_mem h
  clear_value s1
  exact modCtx_inv (inv_of_mem i1)

theorem copies_inv {cx : Nat} {from_ : Option SlotRef} {id more less : Nat} (h : s.Inv) :
    (s.copies cx from_ id more less).Inv :=
  ite_inv h (modSend_inv h)

theorem inject_inv {r : SlotRef} {i : Nat} (h : s.Inv) : (s.inject r i).Inv := by
  unfold State.inject
  extract_lets +onlyGivenNames _
  split
  · exact h
  · exact ite_inv h (modCtx_inv (modSend_inv h))

theorem regrant_inv {cx : Nat} {f : Flit} (h : s.Inv) : (s.regrant cx f).Inv := modCtx_inv h

theorem unmesh_inv {cx i : Nat} (h : s.Inv) : (s.unmesh cx i).Inv := modCtx_inv h

theorem arriveMsg_inv {cx i : Nat} (h : s.Inv) : (s.arriveMsg cx i).Inv := by
  unfold State.arriveMsg
  split
  · exact h
  · refine ite_inv h ?_
    refine ite_inv (ite_inv (linkGood_inv (copies_inv (unmesh_inv (regrant_inv h)))) (regrant_inv h)) ?_
    extract_lets +onlyGivenNames _
    split
    · rename_i e2
      exact copies_inv (unmesh_inv ((deliver_inv (regrant_inv h)) _ e2))
    · exact ite_inv (regrant_inv h) (modSend_inv (unmesh_inv (regrant_inv h)))

theorem reoffer_inv {r : SlotRef} {i : Nat} (h : s.Inv) : (s.reoffer r i).Inv := by
  unfold State.reoffer
  split
  · exact h
  · refine ite_inv h ?_
    split
    · exact h
    · exact modCtx_inv (modSend_inv h)

theorem forward_inv {cx : Nat} {f : Flit} {ms : List Msg} {m : Nat} (h : s.Inv) : (s.forward cx f ms m).Inv :=
  copies_inv (modCtx_inv (foldl_inv (fun _ _ h' => deadLetter_inv h') h))

theorem combine_inv {cx i : Nat} {f : Flit} {grp op imask emask : Nat} (h : s.Inv) :
    (s.combine cx i f grp op imask emask).Inv := by
  unfold State.combine
  extract_lets +onlyGivenNames _ _ _ s1 go
  have gone (j : Nat) (c : Comb) : (go j c).Inv := by
    have i1 : s1.Inv := copies_inv (unmesh_inv h)
    refine ite_inv ?_ (modCore_inv i1)
    show State.Inv (match Comb.merge _ _ with | some _ => _ | none => _)
    split
    · exact forward_inv (modCore_inv (inv_of_mem i1))
    · exact modCore_inv i1
  clear_value go
  split
  · split
    · exact ite_inv h (gone _ _)
    · exact h
  · exact ite_inv (gone _ _) (forward_inv (unmesh_inv h))

theorem route_inv {cx i : Nat} (h : s.Inv) : (s.route cx i).Inv := by
  unfold State.route
  split
  · exact h
  · split
    · exact h
    · refine ite_inv h ?_
      extract_lets +onlyGivenNames _ _ _ _
      split
      · exact combine_inv (regrant_inv h)
      · exact combine_inv (regrant_inv h)
      · exact forward_inv (unmesh_inv (regrant_inv h))
      · exact forward_inv (unmesh_inv (regrant_inv h))

/-! ## Fetches -/

theorem fetchUnit_inv {r : SlotRef} {va : Nat} (h : s.Inv) : (s.fetchUnit r va).2.Inv := by
  unfold State.fetchUnit
  split
  · exact h
  · refine sndInv_ite h ?_
    split
    · split
      · exact h
      · exact sndInv_ite (bridgeOut_inv h) (modCore_inv (bridgeOut_inv h))
    · exact h
    · exact h
    · exact h

theorem fetchInstr_inv {r : SlotRef} {pc : Nat} (h : s.Inv) : (s.fetchInstr r pc).2.Inv := by
  have i1 := fetchUnit_inv (r := r) (va := pc) h
  unfold State.fetchInstr
  split
  · rename_i e
    have i2 := fetchUnit_inv (r := r) (va := pc + 2) (snd_inv i1 e)
    refine sndInv_ite ?_ (snd_inv i1 e)
    split
    · rename_i e2
      exact snd_inv i2 e2
    · exact i2
  · exact i1

theorem passOver_inv {r : SlotRef} {n : Nat} {pc : Word} (h : s.Inv) : (s.passOver r n pc).2.Inv := by
  induction n generalizing s pc with
  | zero => exact h
  | succ n ih =>
    unfold State.passOver
    split
    · rename_i e
      exact ih (snd_inv (fetchUnit_inv h) e)
    · rename_i e
      exact snd_inv (fetchUnit_inv h) e

theorem bodyRep_inv {a : Spec} {l n : BitVec 4} {x : SlotRef} {t : Slot} (h : s.Inv) : ResInv (bodyRep a l n x t s) := by
  unfold bodyRep
  refine resInv_ite ?_ (modSlot_inv h)
  split
  · rename_i e
    exact modSlot_inv (snd_inv (passOver_inv h) e)
  · rename_i e
    exact startWalk_inv (setSlot_inv (snd_inv (passOver_inv h) e))
  · exact trivial
  · rename_i e
    exact snd_inv (passOver_inv h) e

/-! ## Events of counts -/

theorem ageFlush_inv {k : CoreRef} (h : s.Inv) : (s.ageFlush k).Inv := ite_inv (flush_inv h) h

theorem fullNotice_inv {cx pd : Nat} {root : Bool} (h : s.Inv) : (s.fullNotice cx pd root).Inv :=
  ite_inv h (notice_inv (modPdie_inv h))

theorem tilthAccept_inv {cx d : Nat} (h : s.Inv) : (s.tilthAccept cx d).Inv := by
  unfold State.tilthAccept
  split
  · exact h
  · exact ite_inv (fullNotice_inv h) (dieAccept_inv (modCtx_inv (ite_inv (modPdie_inv h) h)))

theorem underflow_inv {cx : Nat} {b : Batch} {e : Delta} (h : s.Inv) : (s.underflow cx b e).Inv := by
  unfold State.underflow
  extract_lets +onlyGivenNames _
  split
  · refine ite_inv ?_ (report_inv h)
    split
    · exact ite_inv (takeFault_inv (modSlot_inv h)) (report_inv h)
    · exact report_inv h
  · exact report_inv h

theorem podSend_inv {cx : Nat} (h : s.Inv) : (s.podSend cx).Inv := ite_inv h (modCtx_inv h)

theorem podTake_inv {cx : Nat} {es : List Delta} (h : s.Inv) : (s.podTake cx es).Inv :=
  ite_inv h (foldl_inv (fun _ _ h' => report_inv h') (spillRoot_inv (modCtx_inv h)))

theorem rootApply_inv {cx : Nat} (h : s.Inv) : (s.rootApply cx).Inv := by
  unfold State.rootApply
  split
  · exact h
  · refine ite_inv (fullNotice_inv h) ?_
    extract_lets +onlyGivenNames _ _ _ s4
    have i4 : s4.Inv := foldl_inv (fun _ _ h' => underflow_inv h') (spillRoot_inv
      (modCtx_inv (modCtx_inv (ite_inv (modPdie_inv h) h))))
    split
    · exact modSlot_inv i4
    · exact i4

theorem broadcast_inv {cx d : Nat} (h : s.Inv) : (s.broadcast cx d).Inv := by
  unfold State.broadcast
  extract_lets +onlyGivenNames _ _ s1
  have i1 : s1.Inv := ite_inv h (modDie_inv h)
  clear_value s1
  exact ite_inv i1 (inv_of_mem i1)

theorem landResult_inv {r : SlotRef} {i : Nat} (h : s.Inv) : (s.landResult r i).Inv := by
  unfold State.landResult
  extract_lets +onlyGivenNames _
  split
  · exact h
  · refine ite_inv ?_ h
    split
    · exact linkGood_inv (landOne_inv h)
    · exact landOne_inv h

theorem waitBody_inv {i : Instr} {c : Ctl} {regs : Slot → List Reg} {b : Body} (e : waitBody i = some (c, regs, b)) :
    BodyInv b := by
  intro r t s h
  unfold waitBody at e
  extract_lets +onlyGivenNames base at e
  clear_value base
  cases i with
  | ld | ldo => cases e; exact bodyLoad_inv h
  | st | sto => cases e; exact bodyStore_inv h
  | vld => cases e; exact bodyVld_inv h
  | vst => cases e; exact bodyVst_inv h
  | vldx => cases e; exact bodyVldx_inv h
  | vstx => cases e; exact bodyVstx_inv h
  | ldf => cases e; exact bodyLdf_inv h
  | send => cases e; exact bodySend_inv h
  | mcast => cases e; exact bodyMcast_inv h
  | recv => cases e; exact bodyRecv_inv h
  | mprobe => cases e; exact bodyMprobe_inv h
  | hdlr => cases e; exact bodyHdlr_inv h
  | fhold => cases e; exact bodyFhold_inv h
  | fdrop => cases e; exact bodyFdrop_inv h
  | fwait => cases e; exact bodyFwait_inv h
  | bar | barw => cases e; exact bodyBar_inv h
  | racq => cases e; exact bodyRacq_inv h
  | rtake => cases e; exact bodyRtake_inv h
  | jpost => cases e; exact bodyJpost_inv h
  | gfork => cases e; exact bodyGfork_inv h
  | gjoin => cases e; exact bodyGjoin_inv h
  | cwait => cases e; exact bodyCwait_inv h
  | sread | swrite | sflush => cases e; exact bodySilt_inv h
  | tlbsync => cases e; exact bodyTlbsync_inv h
  | park => cases e; exact bodyPark_inv h
  | wld | wswap | xstr | tzero | tout => cases e; exact place_inv h
  | mwait => cases e; exact bodyMwait_inv h
  | tcfg => cases e; exact bodyTcfg_inv h
  | msend => cases e; exact bodyMsend_inv h
  | qdef => cases e; exact bodyQdef_inv h
  | qslope | qquant => cases e; exact bodyQchange_inv h
  | qsnap => cases e; exact bodyQsnap_inv h
  | endTask => cases e; exact bodyEnd_inv h
  | _ => exact absurd e nofun

theorem retryWait_inv {r : SlotRef} {w : Wait} {x : Res} (h : s.Inv) (e : s.retryWait r w = some x) : ResInv x := by
  obtain ⟨b, body, rfl⟩ := Option.map_eq_some_iff.mp e
  exact waitBody_inv body _ _ _ (setSlot_inv h)

theorem staying_inv {s' : State} {r : SlotRef} (hs' : s'.Inv) : (s.staying s' r).Inv := modSlot_inv (inv_of_mem hs')

theorem waitEnds_inv {r : SlotRef} (h : s.Inv) : (s.waitEnds r).Inv := by
  unfold State.waitEnds
  split
  · exact h
  · refine ite_inv h ?_
    split
    · rename_i e
      exact retryWait_inv h e
    · exact takeFault_inv h
    · rename_i e
      exact staying_inv (retryWait_inv h e)
    · exact h

theorem waitOver_inv {r : SlotRef} (h : s.Inv) : (s.waitOver r).Inv := by
  unfold State.waitOver
  split
  · exact h
  · refine ite_inv h ?_
    extract_lets +onlyGivenNames s1 fault
    have i1 : s1.Inv := barMeets_inv h
    have faulted (i : WaitInfo) : (fault i).Inv := takeFault_inv i1
    split
    · rename_i e
      exact retryWait_inv i1 e
    · exact takeFault_inv i1
    · exact faulted _
    · exact faulted _
    · rename_i e
      exact staying_inv (retryWait_inv i1 e)
    · exact faulted _

theorem watchdogFault_inv {r : SlotRef} (h : s.Inv) : (s.watchdogFault r).Inv := ite_inv (takeFault_inv (modSlot_inv h)) h

theorem reofferPacket_inv {pd : Nat} {w : Option SlotRef} (h : s.Inv) : (s.reofferPacket pd w).Inv := by
  unfold State.reofferPacket
  split
  · extract_lets +onlyGivenNames _
    split
    · exact h
    · exact ite_inv h (ite_inv (pushPacket_inv (modSlot_inv h)) (modSlot_inv h))
  · extract_lets +onlyGivenNames _
    split
    · exact h
    · exact ite_inv h (ite_inv (pushPacket_inv (modPdie_inv (modPdie_inv h))) (modPdie_inv h))

theorem walkEnds_inv {r : SlotRef} {va : Word} {x : Access} (h : s.Inv) : (s.walkEnds r va x).Inv := by
  unfold State.walkEnds
  split
  · exact h
  · exact ite_inv (walkDone_inv h) h

theorem drainAll_inv {cx : Nat} (h : s.Inv) : (s.drainAll cx).Inv := foldl_inv (fun _ _ h' => ite_inv h' (drainQuad_inv h')) h

theorem performAll_inv {cx : Nat} (h : s.Inv) : (s.performAll cx).Inv :=
  drainAll_inv (foldl_inv (fun _ _ h' => sampleAll_inv h') h)

theorem ackInv_inv {r : SlotRef} (h : s.Inv) : (s.ackInv r).Inv := by
  unfold State.ackInv
  refine ite_inv h ?_
  extract_lets +onlyGivenNames _ s1
  have i1 : s1.Inv := foldl_inv (fun _ _ h' => performAll_inv h') h
  exact ite_inv i1 (modSlot_inv i1)

theorem storeHome_inv {q : QuadRef} {i : Nat} (h : s.Inv) : (s.storeHome q i).Inv := by
  unfold State.storeHome
  extract_lets +onlyGivenNames _
  split
  · exact h
  · refine ite_inv h ?_
    extract_lets +onlyGivenNames _ s2
    have i2 : s2.Inv := modQuad_inv (store_inv (ite_inv h (bridgeOut_inv h)))
    exact ite_inv (linkGood_inv i2) i2

/-! ## Events of gangs -/

theorem switchRequest_inv {p : Nat} {v : Word} (h : s.Inv) : (s.switchRequest p v).Inv :=
  ite_inv (modPart_inv (modPart_inv h)) (ite_inv (modPart_inv (modPart_inv h))
    (ite_inv (modPart_inv (modPart_inv h)) (modPart_inv (modPart_inv h))))

theorem switchAt_inv {p : Nat} {t v : Word} (h : s.Inv) : (s.switchAt p t v).Inv := switchRequest_inv (modPart_inv h)

theorem whenBooted_inv {u : State} (h : s.Inv) (hu : u.Inv) : (s.whenBooted u).Inv := ite_inv hu h

theorem stopSlot_inv {r : SlotRef} (h : s.Inv) : (s.stopSlot r).Inv := modSlot_inv (landSlot_inv (atomicsHome_inv h))

theorem settleCounts_inv {cx : Nat} (h : s.Inv) : (s.settleCounts cx).Inv :=
  iter_inv (fun _ _ h' => rootApply_inv h') (foldl_inv (fun _ _ h' => iter_inv (fun _ _ h2 => tilthAccept_inv h2) h') h)

theorem writeFallout_inv {p : Nat} {es : List (List Byte × Bool)} (h : s.Inv) : (s.writeFallout p es).Inv :=
  foldl_inv (fun _ _ h' => ite_inv (storeHurt_inv h') h') h

theorem fallOut_inv {p cx : Nat} (h : s.Inv) : (s.fallOut p cx).Inv := modCtx_inv (writeFallout_inv (inv_of_mem h))

theorem rest_inv {cx : Nat} (h : s.Inv) : (s.rest cx).Inv :=
  settleCounts_inv (foldl_inv (fun _ _ h' => flush_inv h') (foldl_inv (fun _ _ h' => stopSlot_inv h') h))

theorem stopPart_inv {p : Nat} (h : s.Inv) : (s.stopPart p).Inv :=
  ite_inv (modPart_inv h) (modCtx_inv (fallOut_inv (rest_inv (modPart_inv h))))

theorem switchStart_inv {p : Nat} (h : s.Inv) : (s.switchStart p).Inv := by
  unfold State.switchStart
  extract_lets +onlyGivenNames _
  split
  · exact h
  · exact ite_inv (stopPart_inv h) h

theorem saveHalts_inv {cx : Nat} {pl : Place} (h : s.Inv) : (s.saveHalts cx pl).Inv :=
  foldl_inv (fun _ _ h' => foldl_inv (fun _ _ h2 => ite_inv (modPdie_inv (modCtx_inv h2)) (modCtx_inv h2)) h') h

theorem saveJobs_inv {cx d pd : Nat} (h : s.Inv) : (s.saveJobs cx d pd).Inv := modPdie_inv (modCtx_inv h)

theorem saveOver_inv {cx d pd : Nat} (h : s.Inv) : (s.saveOver cx d pd).Inv := modDie_inv (writeOver_inv h)

theorem retarget_inv {p : Nat} (h : s.Inv) : (s.retarget p).Inv := by
  unfold State.retarget
  extract_lets +onlyGivenNames _
  split
  · exact h
  · exact notice_inv (modPart_inv h)

theorem saveNow_inv {p : Nat} (h : s.Inv) : (s.saveNow p).Inv := by
  unfold State.saveNow
  extract_lets +onlyGivenNames _ _ s1
  have i1 : s1.Inv := by
    unfold s1
    split
    · exact h
    · exact ite_inv h (modCtx_inv (writeOver_inv (foldl_inv (fun _ _ h' => saveOver_inv (saveJobs_inv h')) (saveHalts_inv h))))
  exact retarget_inv (modPart_inv i1)

theorem dropTokens_inv {cx : Nat} (h : s.Inv) : (s.dropTokens cx).Inv := foldl_inv (fun _ _ h' => dropToken_inv h') h

theorem switchSave_inv {p : Nat} (h : s.Inv) : (s.switchSave p).Inv := by
  unfold State.switchSave
  refine ite_inv (saveNow_inv h) ?_
  refine ite_inv h ?_
  refine ite_inv (modPart_inv h) ?_
  extract_lets +onlyGivenNames s1
  have i1 : s1.Inv := performAll_inv (rest_inv h)
  exact ite_inv i1 (modPart_inv (dropTokens_inv i1))

theorem shiftCtx_inv {cx n m : Nat} (h : s.Inv) : (s.shiftCtx cx n m).Inv := by
  unfold State.shiftCtx
  extract_lets +onlyGivenNames s1
  have i1 : s1.Inv := inv_of_mem h
  clear_value s1
  extract_lets +onlyGivenNames s2
  have i2 : s2.Inv := inv_of_mem i1
  clear_value s2
  exact inv_of_mem i2

theorem loadJobs_inv {cx d pd : Nat} (h : s.Inv) : (s.loadJobs cx d pd).Inv := by
  unfold State.loadJobs
  extract_lets +onlyGivenNames s1
  have i1 : s1.Inv := by
    unfold s1
    split
    · exact modPdie_inv h
    · exact h
  refine foldl_inv (fun _ _ h' => ?_) i1
  split
  · exact h'
  · exact ite_inv h' (modCtx_inv (modPdie_inv h'))

theorem loadHalts_inv {cx : Nat} {pl : Place} (h : s.Inv) : (s.loadHalts cx pl).Inv :=
  foldl_inv (fun _ _ h' => modPdie_inv h') h

theorem released_inv {ks : List CoreRef} {what : Nat} {since : Word} (h : s.Inv) : (s.released ks what since).Inv :=
  foldl_inv (fun _ _ h' => ite_inv (postService_inv h') h') (foldl_inv
    (fun _ _ h' => foldl_inv (fun _ _ h2 => unspillBox_inv h2) h') h)

theorem lateReleases_inv {cx : Nat} {pl : Place} (h : s.Inv) : (s.lateReleases cx pl).Inv :=
  foldl_inv (fun _ _ h' => released_inv h') (modCtx_inv h)

theorem reinject_inv {cx p : Nat} (h : s.Inv) : (s.reinject cx p).Inv := ite_inv h (notice_inv (modCtx_inv h))

theorem enter_inv {p cx : Nat} {pl : Place} (h : s.Inv) : (s.enter p cx pl).Inv := by
  unfold State.enter
  extract_lets +onlyGivenNames _ _ _ s2
  have i2 : s2.Inv := modPart_inv (modCtx_inv h)
  extract_lets +onlyGivenNames _ _ _ _ _ s8
  have i8 : s8.Inv := lateReleases_inv (reinject_inv (loadHalts_inv
    (spillRoot_inv (foldl_inv (fun _ _ h' => spillDie_inv h') (foldl_inv (fun _ _ h' => loadJobs_inv h')
    (ite_inv (shiftCtx_inv i2) i2))))))
  exact ite_inv (foldl_inv (fun _ _ h' => postService_inv h') i8) i8

theorem switchRestore_inv {p : Nat} (h : s.Inv) : (s.switchRestore p).Inv := by
  unfold State.switchRestore
  extract_lets +onlyGivenNames _
  split
  · exact ite_inv h (modPart_inv (ite_inv (enter_inv h) h))
  · exact h

theorem noteRelease_inv {pd g : Nat} (h : s.Inv) : (s.noteRelease pd g).Inv := inv_of_mem h

theorem haltRelease_inv {pd g : Nat} (h : s.Inv) : (s.haltRelease pd g).Inv := by
  unfold State.haltRelease
  extract_lets +onlyGivenNames _ s1
  have i1 : s1.Inv := noteRelease_inv h
  exact ite_inv i1 (released_inv (modPdie_inv i1))

theorem dctlDone_inv {pd k sl : Nat} (h : s.Inv) : (s.dctlDone pd k sl).Inv := inv_of_mem h

theorem dropPoisoned_inv {r : SlotRef} (h : s.Inv) : (s.dropPoisoned r).Inv := by
  unfold State.dropPoisoned
  refine ite_inv (modSlot_inv (retireMsg_inv h)) ?_
  split
  · extract_lets +onlyGivenNames _
    split
    · exact ite_inv (retireMsg_inv (freeEntry_inv h)) h
    · exact h
  · exact h

theorem dctlResume_inv {pd k sl : Nat} (h : s.Inv) : (s.dctlResume pd k sl).Inv := by
  unfold State.dctlResume
  split
  · exact ite_inv (dctlDone_inv (unfreeze_inv (modSlot_inv h))) h
  · exact h

theorem dctlRestart_inv {pd k sl : Nat} (h : s.Inv) : (s.dctlRestart pd k sl).Inv := by
  unfold State.dctlRestart
  split
  · exact ite_inv (dctlDone_inv (unfreeze_inv (modSlot_inv (dropPoisoned_inv h)))) h
  · exact h

theorem dctlKill_inv {pd k sl : Nat} (h : s.Inv) : (s.dctlKill pd k sl).Inv := by
  unfold State.dctlKill
  split
  · exact ite_inv (dctlDone_inv (finish_inv h)) (ite_inv (dctlDone_inv (finish_inv (dropPoisoned_inv h))) h)
  · exact h

theorem swResult_inv {pd res : Nat} (h : s.Inv) : (s.swResult pd res).Inv := modPdie_inv h

theorem swCommand_inv {pd : Nat} {a : Word} {kill : Bool} (h : s.Inv) : (s.swCommand pd a kill).Inv := by
  unfold State.swCommand
  split
  · exact swResult_inv h
  · exact ite_inv (swResult_inv h) (ite_inv (swResult_inv (killSwapped_inv h)) (swResult_inv (requeue_inv h)))

theorem dropPart_inv {p : Nat} (h : s.Inv) : (s.dropPart p).Inv := modPart_inv h

theorem fenceQuad_inv {pd q : Nat} (h : s.Inv) : (s.fenceQuad pd q).Inv := by
  unfold State.fenceQuad
  refine ite_inv h ?_
  extract_lets +onlyGivenNames fence
  have fenced {u : State} (hu : u.Inv) : (fence u).Inv := ucieSend_inv (notice_inv (inv_of_mem hu))
  split
  · exact ite_inv (fenced (dropPart_inv h)) (modPart_inv h)
  · exact fenced h

/-! ## Events of the host -/

theorem formPart_inv {p : Nat} (h : s.Inv) : (s.formPart p).Inv := ite_inv h (modPart_inv h)

theorem dissolvePart_inv {p : Nat} (h : s.Inv) : (s.dissolvePart p).Inv := ite_inv h (ite_inv (modPart_inv h) (dropPart_inv h))

theorem forgetCtx_inv {cx : Nat} (h : s.Inv) : (s.forgetCtx cx).Inv := forgetCtx_wf _ h

theorem createCtx_inv {cx : Nat} (h : s.Inv) : (s.createCtx cx).Inv := by
  unfold State.createCtx
  refine ite_inv h ?_
  refine ite_inv (inv_of_mem h) ?_
  extract_lets +onlyGivenNames s1
  have i1 : s1.Inv := modCtx_inv (forgetCtx_inv h)
  clear_value s1
  exact inv_of_mem i1

theorem destroyCtx_inv {cx : Nat} (h : s.Inv) : (s.destroyCtx cx).Inv := by
  unfold State.destroyCtx
  refine ite_inv (inv_of_mem h) ?_
  refine ite_inv (inv_of_mem h) ?_
  extract_lets +onlyGivenNames s1
  have i1 : s1.Inv := forgetCtx_inv h
  clear_value s1
  exact inv_of_mem i1

theorem loadGraph_inv {cx : Nat} (h : s.Inv) : (s.loadGraph cx).Inv := by
  unfold State.loadGraph
  refine ite_inv (inv_of_mem h) ?_
  refine ite_inv (inv_of_mem h) ?_
  split
  · exact inv_of_mem h
  · extract_lets +onlyGivenNames _ _ s2
    have i2 : s2.Inv := foldl_inv (fun _ _ h' => modDie_inv h') (modCtx_inv h)
    clear_value s2
    exact inv_of_mem i2

theorem writeRouter_inv {ag : Agent} {pd k g : Nat} {v : W32} (h : s.Inv) : (s.writeRouter ag pd k g v).Inv := by
  unfold State.writeRouter
  split
  · exact ite_inv (setSel_inv (modCore_inv h)) (setSel_inv h)
  · exact setSel_inv h

theorem writeReach_inv {ag : Agent} {pd k g : Nat} {v : Word} (h : s.Inv) : (s.writeReach ag pd k g v).Inv := by
  unfold State.writeReach
  split
  · exact modCore_inv h
  · exact h

theorem writeCap_inv {ag : Agent} {pd q e : Nat} {lo hi : Word} (h : s.Inv) : (s.writeCap ag pd q e lo hi).Inv := by
  unfold State.writeCap
  split
  · exact ite_inv (setSel_inv (modQuad_inv h)) (setSel_inv h)
  · exact setSel_inv h

theorem discard_inv {cx a n : Nat} (h : s.Inv) : OptInv (s.discard cx a n) := by
  unfold State.discard
  split
  · refine optInv_ite optInv_none ?_
    split
    · exact optInv_none
    · exact optInv_ite (optInv_some (commit_inv (setRing_inv h))) optInv_none
  · exact optInv_none

theorem discardBy_inv {ag : Agent} {cx a n : Nat} (h : s.Inv) : (s.discardBy ag cx a n).Inv := by
  unfold State.discardBy
  split
  · rename_i e
    exact setSel_inv (discard_inv h _ e)
  · exact setSel_inv h

theorem deadHead_inv {pd k : Nat} {v : W32} (h : s.Inv) : (s.deadHead pd k v).Inv := ite_inv (modPdie_inv h) h

theorem supHead_inv {pd : Nat} {v : W32} (h : s.Inv) : (s.supHead pd v).Inv := ite_inv (modPdie_inv h) h

theorem frameTail_inv {pd k : Nat} {v : W32} (h : s.Inv) : (s.frameTail pd k v).Inv := ite_inv h (lowNotice_inv (modFree_inv h))

theorem frameZeroed_inv {tier a len : Nat} (h : s.Inv) : (s.frameZeroed tier a len).Inv := by
  unfold State.frameZeroed
  refine ite_inv h ?_
  extract_lets +onlyGivenNames _ s1
  have i1 : s1.Inv := wipe_inv h
  clear_value s1
  exact inv_of_mem i1

theorem assignQueue_inv {pd q : Nat} {v bs : Word} (h : s.Inv) : (s.assignQueue pd q v bs).Inv := ite_inv h (modPdie_inv h)

theorem modHostq_inv {q : Nat} {f : HostQ → HostQ} (h : s.Inv) : (s.modHostq q f).Inv := inv_of_mem h

theorem hostConfig_inv {q : Nat} {v : Word} (h : s.Inv) : (s.hostConfig q v).Inv := ite_inv h (modHostq_inv h)

theorem doorbell_inv {q : Nat} {v : W32} (h : s.Inv) : (s.doorbell q v).Inv := ite_inv h (modHostq_inv h)

theorem hostRec_inv {pd : Nat} {w : Who} {a n al : Nat} (h : s.Inv) : RecInv (hostRec s pd w a n al) := by
  unfold hostRec
  refine recInv_ite trivial ?_
  refine recInv_ite trivial ?_
  split
  · rename_i e
    exact snd_inv (agentEach_inv h) e
  · rename_i e
    exact snd_inv (agentEach_inv h) e
  · rename_i e
    split <;> exact trivial

theorem hostPoster_inv {n : Nat} {q : HostQ} (h : s.Inv) : PosterInv (hostPoster s n q) :=
  ⟨fun _ _ _ => hostRec_inv h, fun _ => trivial⟩

theorem hostNext_inv {n : Nat} (h : s.Inv) : (s.hostNext n).Inv := modHostq_inv h

theorem hostRefuse_inv {n : Nat} {card : Word} {idx : W32} {st cause : Nat} (h : s.Inv) :
    (s.hostRefuse n card idx st cause).Inv :=
  hostNext_inv (hostComplete_inv h)

theorem hostAccept_inv {n : Nat} {q : HostQ} {a : Word} {p : Posted} (h : s.Inv) : (s.hostAccept n q a p).Inv := by
  unfold State.hostAccept
  extract_lets +onlyGivenNames _ _ _ _ s2
  have i2 : s2.Inv := addCard_inv (addSched_inv (sndInv_ite h (dieCount_inv h)))
  exact hostNext_inv (ite_inv i2 (hostComplete_inv i2))

theorem hostEntry_inv {n : Nat} (h : s.Inv) : (s.hostEntry n).Inv := by
  unfold State.hostEntry
  extract_lets +onlyGivenNames q
  refine ite_inv h ?_
  extract_lets +onlyGivenNames a
  have read {x : Except Res Posted} (e : s.readCard q.ctx (hostPoster s n q) a.toNat = x) : ExcInv x :=
    e ▸ readCard_inv (hostPoster_inv h)
  split
  · rename_i e
    exact read e _ rfl
  · rename_i e
    exact hostRefuse_inv (read e _ rfl)
  · exact hostRefuse_inv h
  · exact h
  · exact ite_inv (hostRefuse_inv h) (ite_inv (hostRefuse_inv h) (ite_inv h (hostAccept_inv h)))

theorem hostHead_inv {q : Nat} {v : W32} (h : s.Inv) : (s.hostHead q v).Inv := ite_inv h (hostRetry_inv (modHostq_inv h))

theorem hostWindow_inv {wr : Bool} {off : Nat} {v : Word} (h : s.Inv) : (s.hostWindow wr off v).Inv :=
  ite_inv h (ite_inv h (storeLE_inv h))

/-! ## Events of the device -/

theorem remoteRequest_inv {p sq : Nat} {f : Aop} {key : Nat} {a b : W32} (h : s.Inv) : (s.remoteRequest p sq f key a b).Inv :=
  ite_inv h (modPeer_inv (storeLE_inv h))

theorem requestOver_inv {p sq : Nat} (h : s.Inv) : (s.requestOver p sq).Inv := sendAtomics_inv (modPeer_inv h)

theorem remoteReply_inv {p sq : Nat} {v : W32} (h : s.Inv) : (s.remoteReply p sq v).Inv := by
  unfold State.remoteReply
  split
  · exact h
  · exact ite_inv (linkGood_inv (requestOver_inv (modSlot_inv h))) h

theorem linkFault_inv {r : SlotRef} {p sq tries : Nat} (h : s.Inv) : (s.linkFault r p sq tries).Inv := modSlot_inv h

theorem takeLink_inv {r : SlotRef} (h : s.Inv) : (s.takeLink r).Inv := by
  unfold State.takeLink
  extract_lets +onlyGivenNames _
  split
  · exact h
  · exact ite_inv (takeFault_inv (modSlot_inv h)) h

theorem resend_inv {p sq : Nat} (h : s.Inv) : (s.resend p sq).Inv := by
  unfold State.resend
  split
  · exact h
  · exact ite_inv h (ite_inv (modPeer_inv h) (requestOver_inv (linkFault_inv (modSlot_inv h))))

theorem linkFails_inv {l : Nat} (h : s.Inv) : (s.linkFails l).Inv := ite_inv h (inv_of_mem (s := s) h)

theorem dropFar_inv {r : SlotRef} {p : Nat} (h : s.Inv) : (s.dropFar r p).Inv := modQuad_inv (modSlot_inv h)

theorem replay_inv {l : Nat} (h : s.Inv) : (s.replay l).Inv := by
  unfold State.replay
  refine ite_inv h ?_
  refine ite_inv (inv_of_mem h) ?_
  extract_lets +onlyGivenNames s1
  have i1 : s1.Inv := inv_of_mem h
  split
  · exact linkFault_inv (dropFar_inv i1)
  · exact i1

theorem poisonAt_inv {key : Nat} (h : s.Inv) : (s.poisonAt key).Inv := by
  unfold State.poisonAt
  refine ite_inv (modCtx_inv h) ?_
  refine ite_inv h ?_
  extract_lets +onlyGivenNames s1
  have i1 : s1.Inv := sampleEverywhere_inv h
  clear_value s1
  extract_lets +onlyGivenNames s2
  have i2 : s2.Inv := inv_of_mem i1
  exact ite_inv (foldl_inv (fun _ _ h' => hurtRow_inv h') i2) i2

theorem corrected_inv {pd q : Nat} (h : s.Inv) : (s.corrected pd q).Inv :=
  ite_inv (fenceQuad_inv (modPdie_inv h)) (modPdie_inv h)

theorem sense_inv {tj pw : Nat} (h : s.Inv) : (s.sense tj pw).Inv := inv_of_mem h

theorem throttle_inv {tj pw : Nat} (h : s.Inv) : (s.throttle tj pw).Inv := by
  unfold State.throttle
  refine ite_inv ?_ h
  extract_lets +onlyGivenNames s1
  have i1 : s1.Inv := sense_inv h
  clear_value s1
  exact inv_of_mem i1

theorem throttleEnd_inv {tj pw : Nat} (h : s.Inv) : (s.throttleEnd tj pw).Inv := by
  unfold State.throttleEnd
  refine ite_inv ?_ h
  extract_lets +onlyGivenNames s1
  have i1 : s1.Inv := sense_inv h
  clear_value s1
  exact inv_of_mem i1

theorem thermalTrip_inv (h : s.Inv) : s.thermalTrip.Inv := ite_inv h (ucieSend_inv (inv_of_mem h))

theorem setPower_inv {v : Word} (h : s.Inv) : (s.setPower v).Inv :=
  ite_inv h (foldl_inv (fun _ _ h' => modPdie_inv h') (inv_of_mem h))

theorem selfTest_inv {n : Nat} (h : s.Inv) : (s.selfTest n).Inv :=
  foldl_inv (fun _ _ h' => foldl_inv (fun _ _ h2 => ite_inv (fenceQuad_inv h2) h2) h') h

theorem bootFrom_inv (h : s.Inv) : s.bootFrom.Inv := ite_inv (selfTest_inv (inv_of_mem h)) (inv_of_mem h)

theorem startLoad_inv (h : s.Inv) : s.startLoad.Inv := ite_inv h (inv_of_mem h)

theorem verified_inv (h : s.Inv) : s.verified.Inv := ite_inv (bootFrom_inv h) h

theorem loadFirmware_inv (h : s.Inv) : s.loadFirmware.Inv := ite_inv h (bootFrom_inv h)

theorem deviceReset_inv (h : s.Inv) : s.deviceReset.Inv := bootFrom_inv (inv_of_wf (filter_wf _ h))

theorem attestAsk_inv (h : s.Inv) : s.attestAsk.Inv := inv_of_mem h

theorem attestDone_inv (h : s.Inv) : s.attestDone.Inv := ite_inv (inv_of_mem h) h

theorem writePart_inv {p o : Nat} {v : Word} (h : s.Inv) : OptInv (s.writePart p o v) := by
  unfold State.writePart
  split
  · exact optInv_some (modPart_inv h)
  · exact optInv_some (modPart_inv h)
  · exact optInv_some (modPart_inv h)
  · exact optInv_some (modPart_inv h)
  · exact optInv_none

theorem writeHostq_inv {q o : Nat} {v : Word} (h : s.Inv) : OptInv (s.writeHostq q o v) := by
  unfold State.writeHostq
  extract_lets +onlyGivenNames _
  split
  · exact optInv_some (ite_inv h (modHostq_inv h))
  · exact optInv_some (ite_inv h (modHostq_inv h))
  · exact optInv_none

theorem writeCtx_inv {cx o : Nat} {v : Word} (h : s.Inv) : OptInv (s.writeCtx cx o v) := by
  unfold State.writeCtx
  extract_lets +onlyGivenNames _
  split
  · exact optInv_some (ite_inv (modCtx_inv h) h)
  · exact optInv_some (ite_inv (modCtx_inv h) h)
  · exact optInv_some (ite_inv (modCtx_inv h) h)
  · exact optInv_some (ite_inv (modCtx_inv h) h)
  · exact optInv_some (ite_inv (modCtx_inv h) h)
  · exact optInv_some (ite_inv (modCtx_inv h) h)
  · exact optInv_some (ite_inv (modCtx_inv h) h)
  · exact optInv_some (ite_inv (modCtx_inv h) h)
  · exact optInv_some (ite_inv (modCtx_inv h) h)
  · exact optInv_some (ite_inv (modCtx_inv h) h)
  · exact optInv_none

theorem modHalt_inv {ag : Agent} {f : Halt → Halt} (h : s.Inv) : (s.modHalt ag f).Inv := modPdie_inv h

theorem writeDie_inv {ag : Agent} {o : Nat} {v : Word} (h : s.Inv) : OptInv (s.writeDie ag o v) := by
  unfold State.writeDie
  extract_lets +onlyGivenNames _ _
  split
  · exact optInv_some (modPdie_inv h)
  · exact optInv_some (modPdie_inv h)
  · exact optInv_some (modPdie_inv h)
  · exact optInv_some (setSel_inv h)
  · exact optInv_some (modPdie_inv h)
  · exact optInv_some (setSel_inv h)
  · exact optInv_some (modHalt_inv h)
  · exact optInv_some (modHalt_inv h)
  · exact optInv_some (modHalt_inv h)
  · exact optInv_some (modHalt_inv h)
  · exact optInv_some (modHalt_inv h)
  · exact optInv_some (modHalt_inv h)
  · exact optInv_some (setSel_inv h)
  · exact optInv_some (writeReach_inv h)
  · exact optInv_some (setSel_inv h)
  · exact optInv_some (setSel_inv h)
  · exact optInv_some (setSel_inv h)
  · exact optInv_some (modPdie_inv h)
  · exact optInv_some (setSel_inv h)
  · exact optInv_some (setSel_inv h)
  · exact optInv_some (setSel_inv h)
  · exact optInv_some (modPdie_inv h)
  · refine optInv_ite ?_ optInv_none
    extract_lets +onlyGivenNames _
    split
    · exact optInv_some (ite_inv h (modFree_inv h))
    · exact optInv_some (lowNotice_inv (modFree_inv h))
    · exact optInv_none

theorem plainWrite_inv {ag : Agent} {off : Nat} {v : Word} (h : s.Inv) : OptInv (s.plainWrite ag off v) := by
  unfold State.plainWrite
  refine optInv_ite optInv_none ?_
  refine optInv_ite (optInv_some h) ?_
  refine optInv_ite (optInv_ite (optInv_some (ite_inv (inv_of_mem h) h))
    (optInv_ite (optInv_some (modPdie_inv h)) (optInv_ite (optInv_some (inv_of_mem h)) optInv_none))) ?_
  refine optInv_ite (writePart_inv h) ?_
  refine optInv_ite (optInv_some (inv_of_mem h)) ?_
  refine optInv_ite (optInv_some (inv_of_mem h)) ?_
  refine optInv_ite (writeHostq_inv h) ?_
  refine optInv_ite (optInv_some (inv_of_mem h)) ?_
  refine optInv_ite (optInv_some (setSel_inv h)) ?_
  refine optInv_ite (writeCtx_inv h) ?_
  refine optInv_ite (optInv_some (setSel_inv h)) ?_
  refine optInv_ite (writeDie_inv h) ?_
  refine optInv_ite ?_ optInv_none
  split
  · exact optInv_none
  · exact optInv_some (debugWrite_inv h)

theorem writeSw_inv {pd : Nat} {v : Word} (h : s.Inv) : (s.writeSw pd v).Inv := by
  unfold State.writeSw
  extract_lets +onlyGivenNames _ _
  split
  · exact swCommand_inv (modPdie_inv h)
  · exact swCommand_inv (modPdie_inv h)
  · exact modPdie_inv h

theorem commandDie_inv {ag : Agent} {o : Nat} {v : Word} (h : s.Inv) : (s.commandDie ag o v).Inv := by
  unfold State.commandDie
  extract_lets +onlyGivenNames _ _ _ _ _
  split
  · exact supHead_inv h
  · exact assignQueue_inv h
  · exact ite_inv (haltGroups_inv h) (ite_inv (haltRelease_inv h) h)
  · exact writeRouter_inv h
  · exact writeCap_inv h
  · exact deadHead_inv h
  · exact ite_inv (discardBy_inv h) h
  · exact ite_inv (frameTail_inv h) h

theorem commandHostq_inv {q o : Nat} {v : Word} (h : s.Inv) : (s.commandHostq q o v).Inv := by
  unfold State.commandHostq
  split
  · exact hostConfig_inv h
  · exact doorbell_inv h
  · exact hostHead_inv h
  · exact h

theorem command_inv {ag : Agent} {off : Nat} {v : Word} (h : s.Inv) : (s.command ag off v).Inv := by
  unfold State.command
  refine ite_inv (writeSw_inv h) ?_
  refine ite_inv ?_ (ite_inv (setPower_inv h) (ite_inv (ite_inv (startLoad_inv h) h)
    (ite_inv (ite_inv (attestAsk_inv h) h) (ite_inv (commandHostq_inv h)
    (ite_inv (ite_inv (createCtx_inv h) (ite_inv (destroyCtx_inv h) (ite_inv (loadGraph_inv h) h)))
    (ite_inv (commandDie_inv h) (ite_inv (hostWindow_inv h) h)))))))
  extract_lets +onlyGivenNames _
  split
  · exact ite_inv (formPart_inv h) (ite_inv (dissolvePart_inv h) h)
  · exact switchRequest_inv h
  · exact h

theorem ctlWrite_inv {ag : Agent} {off : Nat} {v : Word} (h : s.Inv) : (s.ctlWrite ag off v).Inv := by
  unfold State.ctlWrite
  split
  · rename_i e
    exact plainWrite_inv h _ e
  · exact ite_inv (command_inv h) h

/-! ## Vector instructions -/

theorem vlanes_inv {i : Instr} {c : Ctl} {len : Nat} {d : Spec} {reads : Slot → List Reg} {lat : Nat}
    {f : Slot → Nat → W32 × Flags} (h : s.Inv) : OutInv (vlanes i c len d reads lat f s) :=
  issueLanes_inv (fun _ _ _ h' => okBody_inv (fun _ _ _ h2 => flag_inv (later_inv h2)) h') h

theorem lanes2_inv {i : Instr} {c : Ctl} {len : Nat} {d a b : Spec} {lat : Nat} {f : Slot → LaneOp} (h : s.Inv) :
    OutInv (lanes2 i c len d a b lat f s) :=
  vlanes_inv h

theorem lanes1_inv {i : Instr} {c : Ctl} {d a : Spec} {lat : Nat} {f : Slot → W32 → W32 × Flags} (h : s.Inv) :
    OutInv (lanes1 i c d a lat f s) :=
  vlanes_inv h

theorem lanes3_inv {i : Instr} {c : Ctl} {d a b : Spec} {f : Slot → W32 → W32 → W32 → W32 × Flags} (h : s.Inv) :
    OutInv (lanes3 i c d a b f s) :=
  vlanes_inv h

theorem vdraw_inv {i : Instr} {c : Ctl} {d : Spec} {reads : Slot → List Reg} {n : Nat}
    {f : Slot → Nat → RMode → RMode → W32 × Flags} (h : s.Inv) : OutInv (vdraw i c d reads n f s) :=
  issueLanes_inv (fun _ _ _ h' => okBody_inv (fun _ _ _ h2 => flag_inv (later_inv (ite_inv (modSlot_inv h2) h2))) h') h

theorem vpack_inv {i : Instr} {c : Ctl} {d a b : Spec} {f : Fmt} (h : s.Inv) : OutInv (vpack i c d a b f s) := vdraw_inv h

theorem vreduce_inv {i : Instr} {c : Ctl} {d a : Spec} {f : Slot → List (Nat × W32) → Word × Flags} (h : s.Inv) :
    OutInv (vreduce i c d a f s) :=
  issue_inv (fun _ _ _ h' => okBody_inv (fun _ _ _ h2 => flag_inv (later_inv h2)) h') h

theorem vcompare_inv {i : Instr} {c : Ctl} {p e : PSpec} {a b : Spec} {lat : Nat} {f : W32 → W32 → Bool × Flags} (h : s.Inv) :
    OutInv (vcompare i c p e a b lat f s) :=
  issueLanes_inv (fun _ _ _ h' => okBody_inv (fun _ _ _ h2 => flag_inv (later_inv h2)) h') h

theorem vperm_inv {i : Instr} {c : Ctl} {len : Nat} {d : Spec} {reads : Slot → List Reg} {f : Slot → Nat → W32} (h : s.Inv) :
    OutInv (vperm i c len d reads f s) :=
  vlanes_inv h

theorem execVins_inv {c : Ctl} {d a b : Spec} (h : s.Inv) : OutInv (execVins c d a b s) :=
  issueLanes_inv (fun _ _ _ h' => okBody_inv (fun _ _ _ h2 => later_inv h2) h') h

theorem execVext_inv {c : Ctl} {d a b : Spec} (h : s.Inv) : OutInv (execVext c d a b s) :=
  issueLanes_inv (fun _ _ _ h' => okBody_inv (fun _ _ _ h2 => later_inv h2) h') h

/-! ## Every instruction and event -/

theorem exec_inv {i : Instr} (h : s.Inv) : OutInv (exec i s) := by
  unfold exec
  cases i with
  | add | sub | and | or | xor | andn | shl | shr | sra | mul | mulh | mulhu | min | max | minu | maxu | rol | addw =>
    exact alu_inv h
  | div | divu | rem | remu => exact aluVar_inv h
  | clz | ctz | popc | brev | sext8 | sext16 | sext32 | zext32 | bswap | addi | andi | ori | xori | shli | shri
  | srai => exact alu1_inv h
  | li => exact execLi_inv h
  | lis => exact execLis_inv h
  | adpc => exact execAdpc_inv h
  | pcmp => exact execPcmp_inv h
  | pand | por | pxor | pandn | pnot | pset => exact plog_inv h
  | pget | pcnt | pfirst => exact pscalar_inv h
  | vcmpf | vcmpi => exact vcompare_inv h
  | br => exact execBr_inv h
  | call => exact issue_inv (fun _ _ _ h' => callTo_inv h') h
  | jr => exact execJr_inv h
  | callr => exact execCallr_inv h
  | ret => exact execRet_inv h
  | endTask => exact issue_inv (fun _ _ _ h' => bodyEnd_inv h') h
  | brk => exact issue_inv (fun _ _ _ _ => trivial) h
  | park => exact issue_inv (fun _ _ _ h' => bodyPark_inv h') h
  | rsync => exact execRsync_inv h
  | rep => exact issue_inv (fun _ _ _ h' => bodyRep_inv h') h
  | ld | ldo => exact issue_inv (fun _ _ _ h' => bodyLoad_inv h') h
  | st | sto => exact issue_inv (fun _ _ _ h' => bodyStore_inv h') h
  | vld => exact issue_inv (fun _ _ _ h' => bodyVld_inv h') h
  | vst => exact issue_inv (fun _ _ _ h' => bodyVst_inv h') h
  | vldx => exact issue_inv (fun _ _ _ h' => bodyVldx_inv h') h
  | vstx => exact issue_inv (fun _ _ _ h' => bodyVstx_inv h') h
  | ldf => exact issue_inv (fun _ _ _ h' => bodyLdf_inv h') h
  | fset | fclr | fprobe => exact issue_inv (fun _ _ _ h' => feWord_inv h') h
  | stf => exact issue_inv (fun _ _ _ h' => bodyStf_inv h') h
  | amo => exact issue_inv (fun _ _ _ h' => bodyAmo_inv h') h
  | fence => exact issue_inv (fun _ _ _ h' => fenceMem_inv h') h
  | fenceE => exact issue_inv (fun _ _ _ h' => fenceEng_inv h') h
  | fenceI => exact execFenceI_inv h
  | fenceT => exact execFenceT_inv h
  | vaddI32 | vsubI32 | vmulI32 | vmulhI32 | vand | vor | vxor | vandn | vshl | vshr | vsra | vminI32 | vmaxI32
  | vminN32 | vmaxN32 | vaddF32 | vsubF32 | vmulF32 | vminF32 | vmaxF32 | vcopysignF32 | vaddF16x2 | vsubF16x2
  | vmulF16x2 | vmaxF16x2 | vminF16x2 | vaddBf16x2 | vsubBf16x2 | vmulBf16x2 | vmaxBf16x2 | vminBf16x2 | vaddF32_16
  | vsubF32_16 | vmulF32_16 | vmaxF32_16 | vminF32_16 | vaddI32_16 | vsubI32_16 | vand16 | vor16 | vxor16
  | vaddF16x2_16 | vmulF16x2_16 | vaddBf16x2_16 | vmulBf16x2_16 | vshl16 => exact lanes2_inv h
  | vabsI32 | vabsF32 | vnegF32 | vsqrtF32 | vrcpF32 | vrsqF32 | vexp2F32 | vlog2F32 | vfloorF32 | vceilF32
  | vrintF32 | vcvtF32I32 | vcvtI32F32 | vcvtF32N32 | vcvtN32F32 | vcvtF32F16 | vcvtF32Bf16 | vcvtF32B8
  | vcvtF32E5m3 => exact lanes1_inv h
  | vfmaF32 | vfmsF32 | vfnmaF32 | vfmaF16x2 | vfmaBf16x2 | vdot2F16 | vdot2Bf16 | vdot4I8 | vdot4N8 => exact lanes3_inv h
  | vpackF16x2 | vpackBf16x2 => exact vpack_inv h
  | vcvtB8F32 | vcvtE5m3F32 => exact vdraw_inv h
  | vmov | vbcast | vshuf | vrot | vzlo | vzhi | viota | vmov16 => exact vperm_inv h
  | vins => exact execVins_inv h
  | vext => exact execVext_inv h
  | vsumI32 | vsumF32 | vmaxrF32 | vminrF32 | vmaxrI32 | vminrI32 | vargmaxF32 | vorr => exact vreduce_inv h
  | mset => exact issue_inv (fun _ _ _ h' => bodyMset_inv h') h
  | wld | wswap | xstr | tzero | tout => exact issue_inv (fun _ _ _ h' => place_inv h') h
  | mwait => exact issue_inv (fun _ _ _ h' => bodyMwait_inv h') h
  | tcfg => exact issue_inv (fun _ _ _ h' => bodyTcfg_inv h') h
  | msend => exact issue_inv (fun _ _ _ h' => bodyMsend_inv h') h
  | mburst => exact issue_inv (fun _ _ _ h' => bodyMburst_inv h') h
  | mstat => exact execMstat_inv h
  | send => exact issue_inv (fun _ _ _ h' => bodySend_inv h') h
  | mcast => exact issue_inv (fun _ _ _ h' => bodyMcast_inv h') h
  | recv => exact issue_inv (fun _ _ _ h' => bodyRecv_inv h') h
  | mprobe => exact issue_inv (fun _ _ _ h' => bodyMprobe_inv h') h
  | hdlr => exact issue_inv (fun _ _ _ h' => bodyHdlr_inv h') h
  | fhold => exact issue_inv (fun _ _ _ h' => bodyFhold_inv h') h
  | fdrop => exact issue_inv (fun _ _ _ h' => bodyFdrop_inv h') h
  | fwait => exact issue_inv (fun _ _ _ h' => bodyFwait_inv h') h
  | fread => exact issue_inv (fun _ _ _ h' => bodyFread_inv h') h
  | bar | barn | barw => exact issue_inv (fun _ _ _ h' => bodyBar_inv h') h
  | racq => exact issue_inv (fun _ _ _ h' => bodyRacq_inv h') h
  | rpub => exact issue_inv (fun _ _ _ h' => bodyRpub_inv h') h
  | rtake => exact issue_inv (fun _ _ _ h' => bodyRtake_inv h') h
  | rrel => exact issue_inv (fun _ _ _ h' => bodyRrel_inv h') h
  | rstat => exact issue_inv (fun _ _ _ h' => bodyRstat_inv h') h
  | jpost => exact issue_inv (fun _ _ _ h' => bodyJpost_inv h') h
  | gfork => exact issue_inv (fun _ _ _ h' => bodyGfork_inv h') h
  | grwd => exact issue_inv (fun _ _ _ h' => bodyGrwd_inv h') h
  | gjoin => exact issue_inv (fun _ _ _ h' => bodyGjoin_inv h') h
  | gcancel => exact issue_inv (fun _ _ _ h' => bodyGcancel_inv h') h
  | gstat => exact issue_inv (fun _ _ _ h' => bodyGstat_inv h') h
  | cadv => exact issue_inv (fun _ _ _ h' => bodyCadv_inv h') h
  | cwm => exact issue_inv (fun _ _ _ h' => bodyCwm_inv h') h
  | cwait => exact issue_inv (fun _ _ _ h' => bodyCwait_inv h') h
  | cstat => exact issue_inv (fun _ _ _ h' => bodyCstat_inv h') h
  | sread | swrite | sflush => exact issue_inv (fun _ _ _ h' => bodySilt_inv h') h
  | sstat => exact execSstat_inv h
  | qdef => exact issue_inv (fun _ _ _ h' => bodyQdef_inv h') h
  | qslope | qquant => exact issue_inv (fun _ _ _ h' => bodyQchange_inv h') h
  | qread => exact issue_inv (fun _ _ _ h' => bodyQread_inv h') h
  | qsnap => exact issue_inv (fun _ _ _ h' => bodyQsnap_inv h') h
  | qstat => exact issue_inv (fun _ _ _ h' => bodyQstat_inv h') h
  | mfc => exact execMfc_inv h
  | mtc => exact execMtc_inv h
  | tlbinv => exact issue_inv (fun _ _ _ h' => bodyTlbinv_inv h') h
  | tlbsync => exact issue_inv (fun _ _ _ h' => bodyTlbsync_inv h') h
  | wdog => exact execWdog_inv h
  | dstop => exact execDstop_inv h
  | bindTask => exact outInv_next (bindTask_inv h)
  | taskLocalZeroing => exact outInv_next (zeroSlot_inv h)
  | handlerBind => exact outInv_next (handlerBind_inv h)
  | stageBind => exact outInv_next (stageBind_inv h)
  | dealChunk => exact outInv_next (dealChunk_inv h)
  | requeueListEntry => exact outInv_next (requeueEnter_inv h)
  | gforkSiblingsEnter => exact outInv_next (siblingsEnter_inv h)
  | neighbourLevelling => exact outInv_next (level_inv h)
  | levellingShipment => exact outInv_next (shipArrives_inv h)
  | shipmentAcknowledge => exact outInv_next (shipAck_inv h)
  | shipmentBounce => exact outInv_next (shipBounce_inv h)
  | stageGovernor => exact outInv_next (govern_inv h)
  | messageInjection => exact outInv_next (inject_inv h)
  | messageDelivery => exact outInv_next (arriveMsg_inv h)
  | refusedMessageReoffer => exact outInv_next (reoffer_inv h)
  | routerGroupMessage => exact outInv_next (route_inv h)
  | deltaFlushAge => exact outInv_next (ageFlush_inv h)
  | tilthBatchAccept => exact outInv_next (ite_inv (tilthAccept_inv h) h)
  | rootBatchApply => exact outInv_next (ite_inv (rootApply_inv h) h)
  | frontierBroadcast => exact outInv_next (ite_inv (broadcast_inv h) h)
  | resultLanding => exact outInv_next (landResult_inv h)
  | waitSatisfied => exact outInv_next (waitEnds_inv h)
  | waitExpiry => exact outInv_next (waitOver_inv h)
  | watchdogExpiry => exact outInv_next (watchdogFault_inv h)
  | faultPacketReoffer => exact outInv_next (reofferPacket_inv h)
  | pageWalk => exact outInv_next (walkEnds_inv h)
  | siltSubmission => exact outInv_next (siltSubmit_inv h)
  | nvmeCompletion => exact outInv_next (siltComplete_inv h)
  | tlbinvAcknowledge => exact outInv_next (ackInv_inv h)
  | copyEntryRelease => exact outInv_next (copyStart_inv h)
  | copyLineWritten => exact outInv_next (copyLine_inv h)
  | copyEntryComplete => exact outInv_next (copyDone_inv h)
  | arrayCommandStart => exact outInv_next (arrStart_inv h)
  | arrayCommandComplete => exact outInv_next (arrComplete_inv h)
  | msendCommandArrival => exact outInv_next (cmdArrives_inv h)
  | msendReply => exact outInv_next (replyArrives_inv h)
  | arrayRampDown => exact outInv_next (rampDown_inv h)
  | tokenPass => exact outInv_next (passTokens_inv h)
  | crossingFiring => exact outInv_next (fire_inv h)
  | qsnapSample => exact outInv_next (sampleSnap_inv h)
  | groupDeadline => exact outInv_next (deadlineNow_inv h)
  | cancelledSiblingEnd => exact outInv_next (endCancelled_inv h)
  | barrierCompletion => exact outInv_next (barDone_inv h)
  | scaleupAtomicRequest => exact outInv_next (remoteRequest_inv h)
  | scaleupAtomicReply => exact outInv_next (remoteReply_inv h)
  | scaleupRetransmit => exact outInv_next (resend_inv h)
  | linkFailure => exact outInv_next (linkFails_inv h)
  | gangSwitchRequest => exact outInv_next (whenBooted_inv h (switchAt_inv h))
  | gangSwitchStart => exact outInv_next (switchStart_inv h)
  | gangSwitchSave => exact outInv_next (switchSave_inv h)
  | gangSwitchRestore => exact outInv_next (switchRestore_inv h)
  | haltStopCommand => exact outInv_next (whenBooted_inv h (haltGroups_inv h))
  | haltRelease => exact outInv_next (whenBooted_inv h (haltRelease_inv h))
  | dctlResume => exact outInv_next (dctlResume_inv h)
  | dctlRestart => exact outInv_next (dctlRestart_inv h)
  | dctlKill => exact outInv_next (dctlKill_inv h)
  | swcmdRequeue | swcmdKill => exact outInv_next (whenBooted_inv h (swCommand_inv h))
  | partitionForm => exact outInv_next (formPart_inv h)
  | partitionDissolve => exact outInv_next (whenBooted_inv h (dissolvePart_inv h))
  | contextCreate => exact outInv_next (createCtx_inv h)
  | contextDestroy => exact outInv_next (whenBooted_inv h (destroyCtx_inv h))
  | graphLoad => exact outInv_next (whenBooted_inv h (loadGraph_inv h))
  | routerEntryWrite => exact outInv_next (whenBooted_inv h (writeRouter_inv h))
  | capabilityEntryWrite => exact outInv_next (whenBooted_inv h (writeCap_inv h))
  | ringEntryDiscard => exact outInv_next (whenBooted_inv h (discardBy_inv h))
  | deadLetterHeadWrite => exact outInv_next (whenBooted_inv h (deadHead_inv h))
  | hostQueueConfig => exact outInv_next (hostConfig_inv h)
  | hostQueueDoorbell => exact outInv_next (doorbell_inv h)
  | hostQueueEntry => exact outInv_next (hostEntry_inv h)
  | hostHbmAccess => exact outInv_next (hostWindow_inv h)
  | firmwareLoad => exact outInv_next (loadFirmware_inv h)
  | attestationRequest => exact outInv_next (attestAsk_inv h)
  | attestationReady => exact outInv_next (attestDone_inv h)
  | powerConfigWrite => exact outInv_next (setPower_inv h)
  | registerWrite => exact outInv_next (optInv_getD (plainWrite_inv h) h)
  | deviceReset => exact outInv_next (deviceReset_inv h)
  | uncorrectableError => exact outInv_next (poisonAt_inv h)
  | correctedError => exact outInv_next (corrected_inv h)
  | quadFence => exact outInv_next (fenceQuad_inv h)
  | thermalThrottle => exact outInv_next (throttle_inv h)
  | thermalTrip => exact outInv_next (thermalTrip_inv h)
  | storeReachesHome => exact outInv_next (storeHome_inv h)
  | copyChannelRestart => exact outInv_next (copyRestart_inv h)
  | hostCompletionHeadWrite => exact outInv_next (hostHead_inv h)
  | supervisorQueueHeadWrite => exact outInv_next (whenBooted_inv h (supHead_inv h))
  | freeFrameTailWrite => exact outInv_next (frameTail_inv h)
  | jobQueueAssign => exact outInv_next (assignQueue_inv h)
  | frameZeroingComplete => exact outInv_next (frameZeroed_inv h)
  | burstHoldExpiry => exact outInv_next (holdEnds_inv h)
  | linkLevelReplay => exact outInv_next (replay_inv h)
  | thermalThrottleEnd => exact outInv_next (throttleEnd_inv h)

/-! ## A step -/

theorem runBytes_inv {r : SlotRef} {bs : List Byte} (h : s.Inv) : OutInv (s.runBytes r bs) := by
  unfold State.runBytes
  extract_lets +onlyGivenNames _ _ s1
  have i1 : s1.Inv := setSlot_inv (inv_of_mem h)
  split
  · exact outInv_next (takeFault_inv i1)
  · exact exec_inv i1

theorem startsWalk_inv {r : SlotRef} {before : State} {o : Host.Outcome State Fault Refusal} (ho : OutInv o) :
    OptInv (startsWalk r before o) := by
  unfold startsWalk
  split
  · exact optInv_ite (optInv_some (ho _ rfl)) optInv_none
  · exact optInv_none

theorem sentStores_inv {before : State} {o : Host.Outcome State Fault Refusal} (ho : OutInv o) :
    OptInv (sentStores before o) := by
  unfold sentStores
  split
  · exact optInv_ite (optInv_some (ho _ rfl)) optInv_none
  · exact optInv_none

theorem attempt_inv {r : SlotRef} (h : s.Inv) : AttemptInv (s.attempt r) := by
  unfold State.attempt
  refine attemptInv_ite trivial ?_
  split
  · rename_i e
    exact startWalk_inv (snd_inv (fetchInstr_inv h) e)
  · rename_i e
    exact outInv_next (takeFault_inv (modSlot_inv (snd_inv (fetchInstr_inv h) e)))
  · rename_i e
    have ran {bs : List Byte} := runBytes_inv (r := r) (bs := bs) (snd_inv (fetchInstr_inv h) e)
    refine attemptInv_ite ?_ ?_
    · split
      · rename_i e2
        exact sentStores_inv ran _ e2
      · exact trivial
    · split
      · rename_i e2
        exact startsWalk_inv ran _ e2
      · exact ran

theorem beginWalks_inv {k : CoreRef} (h : s.Inv) : (s.beginWalks k).Inv := by
  unfold State.beginWalks
  refine foldl_inv (fun _ _ h' => ?_) h
  split
  · rename_i e
    exact attemptInv_eq e (attempt_inv h')
  · exact h'

theorem boundary_inv {k : CoreRef} (h : s.Inv) : (s.boundary k).Inv :=
  foldl_inv (fun _ _ h' => ite_inv (takeLink_inv h') (ite_inv (watchdogFault_inv h') (ite_inv (endCancelled_inv h') h'))) h

theorem waitCount_inv {r : SlotRef} {ready : Bool} (h : s.Inv) : (s.waitCount r ready).Inv := ite_inv h (modSlot_inv h)

theorem prepared_inv {k : CoreRef} (h : s.Inv) : (s.prepared k).Inv := ite_inv h (beginWalks_inv (boundary_inv h))

theorem issueCycle_inv {k : CoreRef} {o : Host.Outcome State Fault Refusal} (h : s.Inv) (e : s.issueCycle k = some o) :
    OutInv o := by
  unfold State.issueCycle at e
  split at e
  · cases e
  · extract_lets +onlyGivenNames _ _ at e
    obtain ⟨n, -, issued⟩ := Option.bind_eq_some_iff.mp e
    extract_lets +onlyGivenNames s1 s2 at issued
    have i2 : s2.Inv := modCore_inv (foldl_inv (fun _ _ h' => waitCount_inv h') h)
    clear_value s2
    split at issued
    · rename_i tried
      cases issued
      exact attemptInv_eq tried (attempt_inv i2)
    · cases issued

theorem slotCycle_inv {r : SlotRef} (h : s.Inv) : (s.slotCycle r).Inv := by
  unfold State.slotCycle
  extract_lets +onlyGivenNames s1
  have i1 : s1.Inv := ite_inv (freezeLate_inv h) h
  extract_lets +onlyGivenNames s2
  have i2 : s2.Inv := ite_inv (zeroSlot_inv i1) i1
  extract_lets +onlyGivenNames _
  split
  · exact i2
  · exact ite_inv (takeLink_inv i2) (ite_inv (watchdogFault_inv i2) (ite_inv (waitOver_inv i2) i2))

theorem countIdle_inv (h : s.Inv) : s.countIdle.Inv := foldl_inv (fun _ _ h' => ite_inv h' (waitCount_inv h')) h

theorem arraysTick_inv (h : s.Inv) : s.arraysTick.Inv := foldl_inv (fun _ _ h' => ite_inv h' (arrTick_inv h')) h

theorem groupStopped_inv {pd g : Nat} (h : s.Inv) : (s.groupStopped pd g).Inv := by
  unfold State.groupStopped
  refine ite_inv h ?_
  extract_lets +onlyGivenNames _ s1
  have i1 : s1.Inv := foldl_inv (fun _ _ h' => landBusy_inv h') h
  exact ite_inv (modPdie_inv i1) i1

theorem haltsStopped_inv (h : s.Inv) : s.haltsStopped.Inv :=
  foldl_inv (fun _ _ h' => foldl_inv (fun _ _ h2 => ite_inv (groupStopped_inv h2) h2) h') h

theorem tick_inv (h : s.Inv) : s.tick.Inv := by
  unfold State.tick
  extract_lets +onlyGivenNames s1
  have i1 : s1.Inv := countIdle_inv h
  clear_value s1
  extract_lets +onlyGivenNames s2
  have i2 : s2.Inv := inv_of_mem i1
  clear_value s2
  exact foldl_inv (fun _ _ h' => refreshQueues_inv h') (haltsStopped_inv
    (servesOver_inv (verified_inv (governAll_inv (levelAll_inv (foldl_inv (fun _ _ h' => ite_inv h' (ageFlush_inv h'))
    (foldl_inv (fun _ _ h' => slotCycle_inv h') (arraysTick_inv (groupsTick_inv (inv_of_mem i2))))))))))

theorem firstChange_inv {l : List State} (hl : ∀ t ∈ l, State.Inv t) : OptInv (s.firstChange l) :=
  fun t e => hl t (List.mem_of_find?_eq_some e)

theorem idle_inv {k : CoreRef} (h : s.Inv) : (s.idle k).Inv := by
  unfold State.idle
  extract_lets +onlyGivenNames rs walks lands
  have walked : ∀ t ∈ walks, State.Inv t := by
    intro t ht
    obtain ⟨r, -, hr⟩ := List.mem_filterMap.mp ht
    obtain ⟨w, -, rfl⟩ := Option.map_eq_some_iff.mp hr
    exact walkEnds_inv h
  have landed : ∀ t ∈ lands, State.Inv t := by
    intro t ht
    obtain ⟨r, -, hr⟩ := List.mem_flatMap.mp ht
    obtain ⟨i, -, rfl⟩ := List.mem_map.mp hr
    exact landResult_inv h
  split
  · rename_i e
    exact firstChange_inv walked _ e
  · split
    · rename_i e
      exact firstChange_inv landed _ e
    · exact foldl_inv (fun _ _ h' => waitEnds_inv h') h

theorem fillCache_inv {q : QuadRef} {va line : Nat} (h : s.Inv) : (s.fillCache q va line).Inv := ite_inv (modQuad_inv h) h

theorem dctlCommand_inv {pd k n cmd : Nat} (h : s.Inv) : (s.dctlCommand pd k n cmd).Inv := by
  unfold State.dctlCommand
  split
  · exact dctlResume_inv h
  · exact dctlRestart_inv h
  · exact dctlKill_inv h
  · exact h

theorem issueMove_inv {k : CoreRef} (h : s.Inv) : OutInv (s.issueMove k) := by
  unfold State.issueMove
  extract_lets s1
  have i1 : s1.Inv := prepared_inv h
  cases e : s1.issueCycle k with
  | none => exact outInv_next i1
  | some o => exact issueCycle_inv i1 e

theorem makeMove_inv {m : Move} (h : s.Inv) : OutInv (s.makeMove m) := by
  unfold State.makeMove
  split
  · exact outInv_ite (outInv_next h) (exec_inv h)
  · exact issueMove_inv h
  · exact outInv_next (tick_inv h)
  · exact outInv_next (ctlWrite_inv h)
  · exact outInv_next (dctlCommand_inv h)
  · exact outInv_next (modQuad_inv h)
  · exact outInv_next (modQuad_inv h)
  · exact outInv_next (fillCache_inv h)
  · exact outInv_next (modCore_inv h)
  · exact outInv_next (fireOne_inv h)
  · exact outInv_next (podSend_inv h)
  · exact outInv_next (podTake_inv h)
  · exact outInv_next (sense_inv h)
  · exact outInv_next (inv_of_mem h)

theorem ownMove_inv (h : s.Inv) : OutInv s.ownMove := by
  unfold State.ownMove
  extract_lets +onlyGivenNames k s1
  have i1 : s1.Inv := prepared_inv h
  split
  · rename_i e
    exact outInv_next (tick_inv (issueCycle_inv i1 e _ rfl))
  · rename_i e
    exact issueCycle_inv i1 e
  · exact outInv_next (tick_inv (idle_inv i1))

/-- Settles O9: the memory changes only by the stores, wipes, copies and filters that keep the canonical form, in a move of the
agenda as in a move of the package's own. -/
theorem stepKeepsMemoryCanonical : Obligations.StepKeepsMemoryCanonical := by
  unfold Obligations.StepKeepsMemoryCanonical
  intro s t h e
  refine (?_ : OutInv (step s)) t e
  unfold step
  split
  · exact makeMove_inv (inv_of_mem h)
  · exact ownMove_inv h

end Sys2Proof.Machine
end

section
/-! SUPPORT. Stage rings: an operation that reaches a well-formed ring acts on it at its home, and there on the entry that it names (06
R137 to R139; 13 R294). -/

namespace Sys2Proof.Machine

open Sys2Proof

/-! ## Reaching a ring -/

/-- The lines that the header and the entry states of a ring at a key may take (06 R137). -/
def ringSpan (k : Nat) : List Nat := (List.range 66).map fun i => lineOf k + i

/-- The package in which an operation of a slot meets a ring: the quad's stores to the ring's lines are at their home (log 9). -/
def State.ringHome (s : State) (r : SlotRef) (k : Nat) : State :=
  (s.sampleLines r (ringSpan k)).drainLines r.quadRef (ringSpan k)

/-- A ring operation reaches a ring: no acquire of the slot is in flight, the address names a place where a ring may lie, the ring there
is well formed, neither its header nor its entry states are poisoned (06 R137, R138; 10 R210). -/
def State.ReachesRing (s : State) (r : SlotRef) (t : Slot) (a : Spec) (ks : List Nat) (g : RingView) : Prop :=
  let ad := addrM t a
  let k := ks.getD 0 0
  acquiring t = false ∧ s.access r ad 128 128 .atomic = .keys ks ∧ ringPlace k = true ∧ region false ad ≠ .trans ∧
    (∀ o, region false ad ≠ .inter o) ∧ (s.ringHome r k).ringAt k = some g ∧
    poisonTrap (s.ringHome r k) ad (keysFrom k 64) (fun _ => true) = none ∧
    poisonTrap (s.ringHome r k) (ad + 64) (keysFrom (k + 64) g.slots) (fun _ => true) = none

section
variable {s : State} {r : SlotRef} {t : Slot} {d a b : Spec} {ks : List Nat} {g : RingView}
  (reach : s.ReachesRing r t a ks g)
include reach

/-- An operation that reaches its ring acts on it at its home. -/
theorem onRing_of_reaches (f : Nat → RingView → Body) :
    onRing a f r t s = f (addrM t a) g r t (s.ringHome r (ks.getD 0 0)) := by
  obtain ⟨still, access, place, notTrans, notInter, ring, header, entries⟩ := reach
  unfold State.ringHome ringSpan at ring header entries ⊢
  have direct : (false || !ringPlace (ks.getD 0 0) || region false (addrM t a) == .trans) = false := by
    rw [place, beq_eq_false_iff_ne.mpr notTrans]
    rfl
  simp only [onRing, still, access, direct, header, ring, entries, Bool.false_eq_true, if_false]

/-! ## What each operation does there -/

theorem bodyRacq_of_room (isOpen : g.closed = false) (room : g.anext - g.fnext ≠ g.slots) :
    bodyRacq d a b r t s =
      .ok ((((s.ringHome r (ks.getD 0 0)).setRing g g.anext 1).storeLE g.k 8 (g.anext + 1)).fly r
        (.value (writePair t d (toW g.anext) (g.slotAddr (addrM t a) g.anext)))) := by
  rw [bodyRacq, onRing_of_reaches reach]
  simp only [isOpen, room, Bool.false_eq_true, if_false]

theorem bodyRtake_of_published (more : g.tnext ≠ g.anext) (published : (s.ringHome r (ks.getD 0 0)).ringState g g.tnext = 2) :
    bodyRtake d a b r t s =
      .ok (((((s.ringHome r (ks.getD 0 0)).setRing g g.tnext 3).storeLE (g.k + 8) 8 (g.tnext + 1)).modSlot r fun u =>
        { u with held := u.held ++ [.ring (toW (addrM t a)) (toW g.tnext)] }).fly r
          (.acquired (writePair t d (toW g.tnext) (g.slotAddr (addrM t a) g.tnext)) (ringScope r g.k))) := by
  rw [bodyRtake, onRing_of_reaches reach]
  simp only [more, published, ne_eq, not_true_eq_false, if_false]

theorem bodyRtake_of_ended (none_ : g.tnext = g.anext) (closed : g.closed = true) :
    bodyRtake d a b r t s =
      .ok ((s.ringHome r (ks.getD 0 0)).fly r (.value (writePair t d (BitVec.allOnes 64) 0))) := by
  rw [bodyRtake, onRing_of_reaches reach]
  simp only [none_, closed, if_true]

theorem bodyRpub_of_acquired {cl : Bool} (low : g.fnext ≤ (readX t b).toNat) (high : (readX t b).toNat < g.anext)
    (acquired : (s.ringHome r (ks.getD 0 0)).ringState g (readX t b).toNat = 1)
    (may : (s.ringHome r (ks.getD 0 0)).mayRelease r (ringScope r g.k) = true) :
    let s3 := ((s.ringHome r (ks.getD 0 0)).release r (ringScope r g.k)).setRing g (readX t b).toNat 2
    bodyRpub cl a b r t s =
      .ok (if cl then s3.storeLE (g.k + 32) 1 (s3.loadLE (g.k + 32) 1 / 2 * 2 + 1) else s3) := by
  rw [bodyRpub, onRing_of_reaches reach]
  simp only [low, high, acquired, withRelease, may, decide_true, Bool.and_self, beq_self_eq_true, Bool.not_true,
    Bool.false_eq_true, if_false, if_true]

theorem bodyRrel_of_taken (low : g.fnext ≤ (readX t b).toNat) (high : (readX t b).toNat < g.tnext)
    (taken : (s.ringHome r (ks.getD 0 0)).ringState g (readX t b).toNat = 3) :
    bodyRrel a b r t s =
      .ok (commit g g.tnext g.slots g.fnext (((s.ringHome r (ks.getD 0 0)).modSlot r fun u =>
        { u with held := u.held.filter fun h => h != .ring (toW (addrM t a)) (toW (readX t b).toNat) }).setRing g
          (readX t b).toNat 4)) := by
  rw [bodyRrel, onRing_of_reaches reach]
  simp only [low, high, taken, decide_true, Bool.and_self, beq_self_eq_true, Bool.not_true, Bool.false_eq_true, if_false]

theorem bodyRstat_zero :
    bodyRstat d a 0 r t s =
      .ok ((s.ringHome r (ks.getD 0 0)).fly r (.value (writePair t d (toW g.anext) (toW g.tnext)))) :=
  onRing_of_reaches reach _

theorem bodyRstat_one :
    bodyRstat d a 1 r t s =
      .ok ((s.ringHome r (ks.getD 0 0)).fly r (.value (writePair t d (toW g.fnext) (if g.closed then 1 else 0)))) := by
  rw [bodyRstat, onRing_of_reaches reach]
  cases g.closed <;> rfl

end

/-! ## The instructions -/

/-- An instruction that executes and that no fence holds back answers what its body answers. -/
theorem issue_of_body {s u : State} {i : Instr} {c : Ctl} {len : Nat} {fb : Bool} {reads writes : Slot → List Reg} {on : Slot → Bool}
    {body : Body} (executes : Executes s c fb reads writes on = true) (free : Unfenced s i = true)
    (acts : body s.cur (s.slot s.cur) (s.issued c len (writes (s.slot s.cur))) = .ok u) :
    issue i c len fb reads writes on body s = .next u := by
  rw [issue_runs executes (by simpa [Unfenced] using free), acts]
  rfl

/-- Settles O51: each operation reaches the ring at its home and does there what its entry's state asks for. -/
theorem stageRingOperations : Obligations.StageRingOperations := by
  unfold Obligations.StageRingOperations
  intro s c d a b ks g r t ad k n lines home onRing
  refine ⟨?acquireOrTake, ?publishOrRelease, ?status⟩
  case acquireOrTake =>
    intro executes s1 s2 reach
    refine ⟨fun free isOpen room => ?_, fun free more published => ?_, fun free none_ closed => ?_⟩
    · exact issue_of_body executes free (bodyRacq_of_room reach isOpen room)
    · exact issue_of_body executes free (bodyRtake_of_published reach more published)
    · exact issue_of_body executes free (bodyRtake_of_ended reach none_ closed)
  case publishOrRelease =>
    intro executes s1 s2 reach
    refine ⟨fun cl free low high acquired may => ?_, fun free low high taken => ?_⟩
    · exact issue_of_body executes free (bodyRpub_of_acquired reach low high acquired may)
    · exact issue_of_body executes free (bodyRrel_of_taken reach low high taken)
  case status =>
    intro executes s1 reach free
    refine ⟨issue_of_body executes free (bodyRstat_zero reach), ?_⟩
    exact issue_of_body executes free (bodyRstat_one reach)

end Sys2Proof.Machine
end

section
/-! SUPPORT. The mesh: a buffered message enters it, its ports grant it by class, and it is delivered, refused and offered again, or
forwarded by routers (06 R132 to R136; 07 R155). -/

namespace Sys2Proof.Machine

open Sys2Proof

variable {s : State}

/-! ## Send buffers -/

theorem exec_messageInjection (r : SlotRef) (i : Nat) : exec (.messageInjection r i) s = .next (s.inject r i) := rfl

theorem exec_refusedMessageReoffer (r : SlotRef) (i : Nat) :
    exec (.refusedMessageReoffer r i) s = .next (s.reoffer r i) := rfl

/-- The flit of a copy of a buffered message that leaves its own core for one destination or a group. -/
def SendEnt.flit (e : SendEnt) (r : SlotRef) : Flit :=
  { from_ := some r, ent := e.id, msg := e.msg, group := e.group, die := r.die, core := r.core, port := 4 }

/-- 06 R135: what was sent before it in its buffer has gone and nothing of the buffer holds it back. -/
theorem inject_of_enabled {r : SlotRef} {i : Nat} {e : SendEnt} (at_ : (s.sendBuf r)[i]? = some e) (unsent : e.sent = false)
    (before : ((s.sendBuf r).take i).all SendEnt.sent = true) (up : s.enginesUp r.ctx = true) (known : s.countKnown r e = true)
    (free : ((s.sendBuf r).take i).any (s.sameDest r · e) = false) :
    s.inject r i = (s.modSend r.ctx e.id fun e => some { e with sent := true }).modCtx r.ctx fun c =>
      { c with mesh := c.mesh ++ [e.flit r] } := by
  have passed : (((s.sendBuf r).take i).zipIdx.all fun x => x.1.sent || s.heldBack r (s.sendBuf r) x.2) = true := by
    rw [List.all_eq_true] at before ⊢
    intro x hx
    simp [before x.1 (List.fst_mem_of_mem_zipIdx hx)]
  have notHeld : s.heldBack r (s.sendBuf r) i = false := by simp only [State.heldBack, at_, free]
  simp only [State.inject, at_, unsent, passed, up, known, notHeld, Bool.not_true, Bool.or_self, Bool.false_eq_true, if_false]
  rfl

/-- 06 R135: 64 cycles after its first refusal a message for one mailbox is offered again. -/
theorem reoffer_of_due {r : SlotRef} {i : Nat} {e : SendEnt} {x : Nat × Nat} {rest : List (Nat × Nat)}
    (at_ : (s.sendBuf r)[i]? = some e) (up : s.enginesUp r.ctx = true) (refused : e.refused = x :: rest) (due : x.2 + 64 ≤ s.now)
    (single : e.group = none) :
    s.reoffer r i = (s.modSend r.ctx e.id fun e => some { e with refused := e.refused.erase x }).modCtx r.ctx fun c =>
      { c with mesh := c.mesh ++ [e.flit r] } := by
  have found : (e.refused.find? fun x => decide (x.2 + Config.reofferAge ≤ s.now)) = some x := by
    rw [refused, List.find?_cons_of_pos (by simpa using due)]
  simp only [State.reoffer, at_, up, found, single, SendEnt.flit, Option.isNone_none, Bool.not_true, Bool.false_eq_true, if_false,
    if_true]

/-! ## The class that a port owes a grant -/

/-- The earlier of two refusals, each with its cycle and its class; of equals the lower class (06 R136). -/
def earlierRefusal (a : Option (Nat × Nat)) (x : Nat × Nat) : Option (Nat × Nat) :=
  match a with
  | none => some x
  | some y => if x.1 < y.1 ∨ (x.1 = y.1 ∧ x.2 < y.2) then some x else some y

/-- The earliest of some refusals. -/
def firstRefusal (l : List (Nat × Nat)) : Option (Nat × Nat) := l.foldl earlierRefusal none

/-- The refusals among messages that have lasted for 64 fabric cycles (06 R136). -/
def State.lateRefusals (s : State) (here : List Flit) : List (Nat × Nat) :=
  here.filterMap fun g => g.since.bind fun n => if n + refusedSpan ≤ s.now then some (n, dCls g.msg.dst) else none

theorem owed_eq (here : List Flit) : s.owed here = (firstRefusal (s.lateRefusals here)).map Prod.snd := rfl

theorem mem_lateRefusals_iff {here : List Flit} {n c : Nat} :
    (n, c) ∈ s.lateRefusals here ↔ ∃ g ∈ here, g.since = some n ∧ n + 32 ≤ s.now ∧ dCls g.msg.dst = c := by
  simp only [State.lateRefusals, List.mem_filterMap, Option.bind_eq_some_iff, Option.ite_none_right_eq_some, Option.some.injEq,
    Prod.mk.injEq, refusedSpan]
  constructor
  · rintro ⟨g, hg, m, since, late, rfl, rfl⟩
    exact ⟨g, hg, since, late, rfl⟩
  · rintro ⟨g, hg, since, late, rfl⟩
    exact ⟨g, hg, n, since, late, rfl, rfl⟩

/-- A refusal comes no later than another, of equals with no higher class. -/
def NoLater (y x : Nat × Nat) : Prop := y.1 < x.1 ∨ (y.1 = x.1 ∧ y.2 ≤ x.2)

/-- The earlier of two refusals is one of them and comes no later than either. -/
theorem earlierRefusal_some (y x : Nat × Nat) :
    ∃ z, earlierRefusal (some y) x = some z ∧ (z = y ∨ z = x) ∧ NoLater z y ∧ NoLater z x := by
  by_cases earlier : x.1 < y.1 ∨ (x.1 = y.1 ∧ x.2 < y.2)
  · exact ⟨x, if_pos earlier, .inr rfl, by unfold NoLater; omega, by simp [NoLater]⟩
  · exact ⟨y, if_neg earlier, .inl rfl, by simp [NoLater], by unfold NoLater; omega⟩

theorem NoLater.trans {x y z : Nat × Nat} (hxy : NoLater x y) (hyz : NoLater y z) : NoLater x z := by
  unfold NoLater at *
  omega

/-- The earliest of a refusal and some others is one of them and comes no later than any. -/
theorem foldl_earlierRefusal (l : List (Nat × Nat)) (y : Nat × Nat) :
    ∃ z ∈ y :: l, l.foldl earlierRefusal (some y) = some z ∧ ∀ x ∈ y :: l, NoLater z x := by
  induction l generalizing y with
  | nil => exact ⟨y, List.mem_cons_self, rfl, fun x hx => by simp [List.mem_singleton.mp hx, NoLater]⟩
  | cons x l ih =>
    obtain ⟨u, earlier, which, uy, ux⟩ := earlierRefusal_some y x
    obtain ⟨z, mem, first, least⟩ := ih u
    have zu : NoLater z u := least u List.mem_cons_self
    refine ⟨z, ?_, by rw [List.foldl_cons, earlier, first], fun w hw => ?_⟩
    · obtain rfl | rest := List.mem_cons.mp mem
      · obtain rfl | rfl := which
        · exact List.mem_cons_self
        · exact List.mem_cons_of_mem _ List.mem_cons_self
      · exact List.mem_cons_of_mem _ (List.mem_cons_of_mem _ rest)
    · obtain rfl | hw := List.mem_cons.mp hw
      · exact zu.trans uy
      · obtain rfl | rest := List.mem_cons.mp hw
        · exact zu.trans ux
        · exact least w (List.mem_cons_of_mem _ rest)

theorem firstRefusal_spec {l : List (Nat × Nat)} (h : l ≠ []) : ∃ y ∈ l, firstRefusal l = some y ∧ ∀ x ∈ l, NoLater y x := by
  cases l with
  | nil => exact absurd rfl h
  | cons x l => exact foldl_earlierRefusal l x

theorem firstRefusal_eq_none_iff {l : List (Nat × Nat)} : firstRefusal l = none ↔ l = [] := by
  refine ⟨fun none_ => Decidable.byContradiction fun h => ?_, fun h => h ▸ rfl⟩
  obtain ⟨y, -, first, -⟩ := firstRefusal_spec h
  simp [none_] at first

theorem least_of_firstRefusal {l : List (Nat × Nat)} {y : Nat × Nat} (h : firstRefusal l = some y) :
    y ∈ l ∧ ∀ x ∈ l, NoLater y x := by
  obtain ⟨z, mem, first, least⟩ := firstRefusal_spec (l := l) fun empty => by simp [firstRefusal_eq_none_iff.mpr empty] at h
  obtain rfl := Option.some.inj (first.symm.trans h)
  exact ⟨mem, least⟩

/-- 06 R136: a port owes no grant while no refusal has lasted for 64 fabric cycles. -/
theorem owed_eq_none_iff {here : List Flit} :
    s.owed here = none ↔ ∀ g ∈ here, ∀ n, g.since = some n → s.now < n + 32 := by
  rw [owed_eq, Option.map_eq_none_iff, firstRefusal_eq_none_iff, List.eq_nil_iff_forall_not_mem]
  constructor
  · intro none_ g hg n since
    exact Nat.lt_of_not_le fun late => none_ _ (mem_lateRefusals_iff.mpr ⟨g, hg, since, late, rfl⟩)
  · rintro early ⟨n, c⟩ mem
    obtain ⟨g, hg, since, late, -⟩ := mem_lateRefusals_iff.mp mem
    exact absurd (early g hg n since) (Nat.not_lt.mpr late)

/-- 06 R136: the class owed is that of the first refusal that has lasted for 64 fabric cycles. -/
theorem first_of_owed {here : List Flit} {c : Nat} (owed : s.owed here = some c) :
    ∃ g ∈ here, ∃ n, dCls g.msg.dst = c ∧ g.since = some n ∧ n + 32 ≤ s.now ∧
      ∀ h ∈ here, ∀ m, h.since = some m → m + 32 ≤ s.now → n < m ∨ (n = m ∧ c ≤ dCls h.msg.dst) := by
  rw [owed_eq, Option.map_eq_some_iff] at owed
  obtain ⟨⟨n, _⟩, first, rfl⟩ := owed
  obtain ⟨mem, least⟩ := least_of_firstRefusal first
  obtain ⟨g, hg, since, late, cls⟩ := mem_lateRefusals_iff.mp mem
  exact ⟨g, hg, n, cls, since, late, fun h hh m since late =>
    least (m, dCls h.msg.dst) (mem_lateRefusals_iff.mpr ⟨h, hh, since, late, rfl⟩)⟩

/-! ## Grants -/

theorem mem_readyAt_iff {cx p : Nat} {g : Flit} : g ∈ s.readyAt cx p ↔ g ∈ (s.ctx cx).mesh ∧ p ∈ s.outPorts cx g := by
  simp [State.readyAt]

/-- 06 R136: a message is granted a port that owes its class a grant, or owes none and has no message of a lower class. -/
theorem granted_iff {cx : Nat} {f : Flit} :
    s.granted cx f = true ↔ ∀ p ∈ s.outPorts cx f, s.owed (s.readyAt cx p) = some (dCls f.msg.dst) ∨
      (s.owed (s.readyAt cx p) = none ∧ ∀ g ∈ (s.ctx cx).mesh, p ∈ s.outPorts cx g → dCls f.msg.dst ≤ dCls g.msg.dst) := by
  rw [State.granted, List.all_eq_true]
  refine forall₂_congr fun p _ => ?_
  dsimp only
  cases owed : s.owed (s.readyAt cx p) with
  | none => simp [mem_readyAt_iff]
  | some c => simp

/-- 06 R136: a port that owes another class a grant, or owes none and has a message of a lower class, grants a message nothing. -/
theorem not_granted {cx : Nat} {f : Flit} {p : Nat} (at_ : p ∈ s.outPorts cx f)
    (other : (∃ c, s.owed (s.readyAt cx p) = some c ∧ c ≠ dCls f.msg.dst) ∨ (s.owed (s.readyAt cx p) = none ∧
      ∃ g ∈ (s.ctx cx).mesh, p ∈ s.outPorts cx g ∧ dCls g.msg.dst < dCls f.msg.dst)) : s.granted cx f = false := by
  refine Bool.eq_false_iff.mpr fun granted => ?_
  obtain own | ⟨owesNone, lowest⟩ := granted_iff.mp granted p at_
  · obtain ⟨c, owed, ne⟩ | ⟨owesNone, -⟩ := other
    · exact ne (Option.some.inj (owed.symm.trans own))
    · simp [own] at owesNone
  · obtain ⟨c, owed, -⟩ | ⟨-, g, mem, here, lower⟩ := other
    · simp [owed] at owesNone
    · exact absurd (lowest g mem here) (by omega)

/-- What a grant to a message makes of another: at none of its ports it stays, of its class it is refused no more, of another class it is
refused from now on, where it was not before (06 R136). -/
theorem mesh_regrant {cx j : Nat} {f g : Flit} (at_ : (s.ctx cx).mesh[j]? = some g) :
    ((s.regrant cx f).ctx cx).mesh[j]? = some
      (if (∀ p ∈ s.outPorts cx g, p ∉ s.outPorts cx f) then g else if dCls g.msg.dst = dCls f.msg.dst then { g with since := none }
        else { g with since := some (g.since.getD s.now) }) := by
  have apart : ((s.outPorts cx g).any (s.outPorts cx f).contains) = false ↔ ∀ p ∈ s.outPorts cx g, p ∉ s.outPorts cx f := by simp
  simp only [State.regrant, ctx_modCtx, List.getElem?_map, at_, Option.map_some, ← apart, Bool.not_eq_true', beq_iff_eq]

/-! ## Delivery -/

theorem exec_messageDelivery (cx i : Nat) : exec (.messageDelivery cx i) s = .next (s.arriveMsg cx i) := rfl

section
variable {cx i : Nat} {f : Flit} (at_ : (s.ctx cx).mesh[i]? = some f)
include at_

theorem arriveMsg_of_not_granted (no : s.granted cx f = false) : s.arriveMsg cx i = s := by
  simp only [State.arriveMsg, at_, no, Bool.not_false, Bool.or_true, if_true]

variable (single : f.group = none) (up : s.enginesUp cx = true) (granted : s.granted cx f = true)
include single up granted

/-- 06 R132: a message for this package that its mailbox takes leaves the mesh. -/
theorem arriveMsg_of_taken {t : State} (own : dPkg f.msg.dst = s.pkg)
    (taken : (s.regrant cx f).deliver ⟨cx, dDie f.msg.dst, dCore f.msg.dst⟩ (dBox f.msg.dst) f.msg = some t) :
    s.arriveMsg cx i = (t.unmesh cx i).copies cx f.from_ f.ent 0 1 := by
  have here : dPkg f.msg.dst = (s.regrant cx f).pkg := own
  simp only [State.arriveMsg, at_, single, up, granted, here, taken, ne_eq, not_true_eq_false, Option.isSome_none, Bool.not_true,
    Bool.or_self, Bool.false_eq_true, if_false]

/-- 06 R135: one that its mailbox refuses leaves the mesh too, and its buffer notes the core and the time. -/
theorem arriveMsg_of_refused (own : dPkg f.msg.dst = s.pkg)
    (refused : (s.regrant cx f).deliver ⟨cx, dDie f.msg.dst, dCore f.msg.dst⟩ (dBox f.msg.dst) f.msg = none)
    (buffered : f.from_.isSome = true) :
    s.arriveMsg cx i = ((s.regrant cx f).unmesh cx i).modSend cx f.ent fun e =>
      some { e with refused := e.refused ++ [(coreKey ⟨cx, dDie f.msg.dst, dCore f.msg.dst⟩, s.now)] } := by
  have here : dPkg f.msg.dst = (s.regrant cx f).pkg := own
  have from_ : f.from_.isNone = false := by simpa using buffered
  simp only [State.arriveMsg, at_, single, up, granted, here, refused, from_, ne_eq, not_true_eq_false, Option.isSome_none,
    Bool.not_true, Bool.or_self, Bool.false_eq_true, if_false]
  rfl

/-- 06 R132: a message for another package goes out where its link sends. -/
theorem arriveMsg_of_other_package (other : dPkg f.msg.dst ≠ s.pkg) (sends : s.sendsTo (dPkg f.msg.dst) = true) :
    s.arriveMsg cx i =
      (((s.regrant cx f).unmesh cx i).copies cx f.from_ f.ent 0 1).linkGood (dPkg f.msg.dst) := by
  have there : dPkg f.msg.dst ≠ (s.regrant cx f).pkg := other
  have open_ : (s.regrant cx f).sendsTo (dPkg f.msg.dst) = true := sends
  simp only [State.arriveMsg, at_, single, up, granted, there, open_, ne_eq, not_false_eq_true, Option.isSome_none, Bool.not_true,
    Bool.or_self, Bool.false_eq_true, if_false, if_true]

end

/-! ## Routers -/

theorem exec_routerGroupMessage (cx i : Nat) : exec (.routerGroupMessage cx i) s = .next (s.route cx i) := rfl

/-- What the operation of a group's entry makes of a message at its router (07 R155). -/
def State.applyEntry (s : State) (cx i : Nat) (f : Flit) (grp : Nat) (e : W32) : State :=
  match bits e 5 3 with
  | 1 => s.combine cx i f grp 1 (bits e 8 5) (bits e 0 5)
  | 2 => s.combine cx i f grp 2 (bits e 8 5) (bits e 0 5)
  | 3 => (s.unmesh cx i).forward cx f (if f.port = 4 then dropZeros f.msg else [f.msg]) (bits e 0 5)
  | _ => (s.unmesh cx i).forward cx f [f.msg] (bits e 0 5)

/-- A router whose ports grant a group message applies its group's entry to it (06 R136; 07 R155). -/
theorem route_of_granted {cx i grp : Nat} {f : Flit} (at_ : (s.ctx cx).mesh[i]? = some f) (group : f.group = some grp)
    (up : s.enginesUp cx = true) (granted : s.granted cx f = true) :
    s.route cx i =
      (s.regrant cx f).applyEntry cx i { f with since := none } grp (mget 0 grp (s.core ⟨cx, f.die, f.core⟩).groups) := by
  unfold State.route
  simp only [at_, group, up, granted, Bool.not_true, Bool.or_self, Bool.false_eq_true, if_false] <;> rfl

section
variable {cx i grp : Nat} {f : Flit} {e : W32}

theorem applyEntry_copy (op : bits e 5 3 = 0) :
    s.applyEntry cx i f grp e = (s.unmesh cx i).forward cx f [f.msg] (bits e 0 5) := by
  simp only [State.applyEntry, op]

theorem applyEntry_sum (op : bits e 5 3 = 1) :
    s.applyEntry cx i f grp e = s.combine cx i f grp 1 (bits e 8 5) (bits e 0 5) := by
  simp only [State.applyEntry, op]

theorem applyEntry_dropZero (op : bits e 5 3 = 3) (local_ : f.port = 4) :
    s.applyEntry cx i f grp e = (s.unmesh cx i).forward cx f (dropZeros f.msg) (bits e 0 5) := by
  simp only [State.applyEntry, op, local_, if_true]

end

end Sys2Proof.Machine
end

section
/-! SUPPORT. Counts on their way: a delta buffer's batch goes to its die's tilth unit, from there to the root, whose frontiers come back to
the dies; a barrier's phase (08 R171 to R176; 13 R293). -/

namespace Sys2Proof.Machine

open Sys2Proof

variable {s : State}

/-! ## Delta buffers -/

theorem exec_deltaFlushAge (k : CoreRef) : exec (.deltaFlushAge k) s = .next (s.ageFlush k) := rfl

/-- 08 R171, R174: a delta buffer whose oldest entry has waited 128 cycles goes out, while the unit is not full. -/
theorem ageFlush_of_due {k : CoreRef} (some_ : (s.core k).delta ≠ []) (due : (s.core k).deltaAt + 128 ≤ s.now)
    (room : s.tilthFull k.ctx k.die = false) (up : s.enginesUp k.ctx = true) : s.ageFlush k = s.flush k none :=
  if_pos ⟨some_, due, by simp [room], up⟩

section
variable {k : CoreRef} {owner : Option (SlotRef × Nat × Time)}

theorem delta_flush : ((s.flush k owner).core k).delta = [] := by
  by_cases empty : (s.core k).delta = []
  · simp only [State.flush, empty, if_true]
  · simp only [State.flush, if_neg empty, core_modCtx, core_modCore]

/-- A flush sends the entries of the buffer as one batch (08 R171). -/
theorem inflight_flush (some_ : (s.core k).delta ≠ []) :
    ((s.flush k owner).ctx k.ctx).inflight = (s.ctx k.ctx).inflight ++
      [{ id := s.ids, die := k.die, entries := (s.core k).delta, owner := owner, core := k.core,
         stuck := s.tilthFull k.ctx k.die }] := by
  simp only [State.flush, if_neg some_, ctx_modCtx]
  rfl

end

/-! ## Overflow tables -/

/-- Entries written to an overflow table change memory alone. -/
theorem writeOver_keeps {α : Type} (p : State → α) (store : ∀ (u : State) (ps : List (Nat × Byte)), p (u.store ps) = p u)
    (pd : Nat) (old new : Map Delta) : p (s.writeOver pd old new) = p s := by
  unfold State.writeOver
  refine List.foldlRecOn (motive := fun u : State => p u = p s) new _ ?_ fun u hu x _ => ?_
  · refine List.foldlRecOn (motive := fun u : State => p u = p s) old _ rfl fun u hu x _ => ?_
    split
    · exact (store u _).trans hu
    · exact hu
  · split
    · exact hu
    · exact (store u _).trans hu

/-- Entries of a die's unit that move to its overflow table or back leave the contexts alone. -/
theorem ctx_spillDie (pd cx : Nat) : (s.spillDie pd).ctx cx = s.ctx cx := by
  unfold State.spillDie
  extract_lets l l' s1
  split
  · rfl
  · exact List.foldlRecOn (motive := fun u : State => u.ctx cx = s.ctx cx) l' _
      (writeOver_keeps (fun u : State => u.ctx cx) (fun _ _ => rfl) ..) fun u hu x _ => hu

/-- A die's counts stay where only the places of its entries change. -/
theorem counts_modDie_moved (a b cx d : Nat) (m : Map Delta) :
    ((s.modDie a b fun y => { y with moved := m }).die cx d).counts = (s.die cx d).counts := by
  by_cases h : dieKey cx d = dieKey a b
  · simp [State.die, State.modDie, h]
  · simp [State.die, State.modDie, mget_mput_ne _ h]

theorem counts_spillDie (pd cx d : Nat) : ((s.spillDie pd).die cx d).counts = (s.die cx d).counts := by
  unfold State.spillDie
  extract_lets l l' s1
  split
  · rfl
  · exact List.foldlRecOn (motive := fun u : State => (u.die cx d).counts = (s.die cx d).counts) l' _
      (congrArg Die.counts (writeOver_keeps (fun u : State => u.die cx d) (fun _ _ => rfl) ..)) fun u hu x _ =>
        (counts_modDie_moved ..).trans hu

/-- Entries of the root that move to the overflow table or back change a context's record of them alone. -/
theorem ctx_spillRoot (cx : Nat) : ∃ m, s.spillRoot.ctx cx = { s.ctx cx with moved := m } := by
  unfold State.spillRoot
  extract_lets l l' s1
  split
  · exact ⟨_, rfl⟩
  · refine List.foldlRecOn (motive := fun u : State => ∃ m, u.ctx cx = { s.ctx cx with moved := m }) l' _ ?_ ?_
    · exact ⟨_, writeOver_keeps (fun u : State => u.ctx cx) (fun _ _ => rfl) ..⟩
    · rintro u ⟨m, hu⟩ x -
      by_cases h : cx = x.key
      · subst h
        exact ⟨x.moved, by rw [ctx_modCtx, hu]⟩
      · exact ⟨m, by rw [ctx_modCtx_ne h, hu]⟩

/-! ## Tilth units and the root -/

theorem exec_tilthBatchAccept {cx : Nat} (up : s.enginesUp cx = true) (d : Nat) :
    exec (.tilthBatchAccept cx d) s = .next (s.tilthAccept cx d) :=
  congrArg Host.Outcome.next (if_pos up)

/-- A batch that a die's unit accepts goes on to the root. -/
theorem ctx_dieAccept (cx : Nat) (b : Batch) :
    (s.dieAccept cx b).ctx cx = { s.ctx cx with toRoot := (s.ctx cx).toRoot ++ [b] } := by
  rw [State.dieAccept, ctx_modCtx, ctx_spillDie, ctx_modDie]

/-- A die's unit takes the entries of a batch into its table (08 R174). -/
theorem counts_dieAccept (cx : Nat) (b : Batch) :
    ((s.dieAccept cx b).die cx b.die).counts = addBatch (s.die cx b.die).counts b.entries := by
  rw [State.dieAccept, die_modCtx, counts_spillDie, die_modDie]

/-- The package once a die's unit takes a batch: when it is full again it is told of again (06 R141; 08 R174). -/
def State.dieTakesAgain (s : State) (pd : Nat) : State :=
  if (s.pdie pd).toldDie then s.modPdie pd fun y => { y with toldDie := false } else s

theorem ctx_dieTakesAgain (pd cx : Nat) : (s.dieTakesAgain pd).ctx cx = s.ctx cx := by
  unfold State.dieTakesAgain
  split <;> rfl

theorem die_dieTakesAgain (pd cx d : Nat) : (s.dieTakesAgain pd).die cx d = s.die cx d := by
  unfold State.dieTakesAgain
  split <;> rfl

/-- 08 R174: a die's unit with room for its oldest batch accepts that. -/
theorem tilthAccept_of_oldest {cx : Nat} {b : Batch} {rest : List Batch} (oldest : (s.ctx cx).inflight = b :: rest)
    (takes : s.tilthTakes cx b = true) : s.tilthAccept cx b.die =
      ((s.dieTakesAgain (s.physDie cx b.die)).modCtx cx fun x =>
        { x with inflight := x.inflight.filter fun y => y.id != b.id }).dieAccept cx b := by
  have found : ((s.ctx cx).inflight.find? fun y => y.die == b.die) = some b := by
    rw [oldest]
    exact List.find?_cons_of_pos (beq_self_eq_true _)
  unfold State.tilthAccept
  rw [found]
  dsimp only
  rw [if_neg (by simp [takes])]
  rfl

theorem filter_id_ne_oldest {b : Batch} {rest : List Batch} (others : ∀ y ∈ rest, y.id ≠ b.id) :
    ((b :: rest).filter fun y => y.id != b.id) = rest := by
  rw [List.filter_cons_of_neg (by simp), List.filter_eq_self]
  intro y hy
  simpa using others y hy

theorem exec_rootBatchApply {cx : Nat} (up : s.enginesUp cx = true) : exec (.rootBatchApply cx) s = .next (s.rootApply cx) :=
  congrArg Host.Outcome.next (if_pos up)

/-- What the root keeps of a context after a batch of no owner without an underflow, but for the places of its entries and what it has
still to forward: the counts, and the frontiers computed anew (08 R175). -/
theorem ctx_rootApply {cx : Nat} {b : Batch} {rest : List Batch} (oldest : (s.ctx cx).toRoot = b :: rest)
    (takes : s.rootTakes cx (applyBatch (s.ctx cx).counts b.entries).1 = true)
    (whole : (applyBatch (s.ctx cx).counts b.entries).2 = []) (free : b.owner = none) :
    ∃ pod m, (s.rootApply cx).ctx cx =
      { ({ s.ctx cx with toRoot := rest, counts := dropZero (applyBatch (s.ctx cx).counts b.entries).1 } : Ctx).recompute with
        pod := pod, moved := m } := by
  simp only [State.rootApply, oldest, takes, whole, free, Bool.not_true, Bool.false_eq_true, if_false, List.foldl_nil]
  obtain ⟨m, spilled⟩ := ctx_spillRoot cx
  rw [spilled, ctx_modCtx, ctx_modCtx]
  split <;> exact ⟨_, m, rfl⟩

/-! ## Frontiers and barriers -/

theorem exec_frontierBroadcast {cx : Nat} (up : s.enginesUp cx = true) (d : Nat) :
    exec (.frontierBroadcast cx d) s = .next (s.broadcast cx d) :=
  congrArg Host.Outcome.next (if_pos up)

/-- A broadcast makes a die's copies of the frontiers the root's (08 R176). -/
theorem frontiers_broadcast (cx d : Nat) :
    ((s.broadcast cx d).die cx d).f = (s.ctx cx).f ∧ ((s.broadcast cx d).die cx d).fset = (s.ctx cx).fset := by
  unfold State.broadcast
  extract_lets x old s1
  have copies : (s1.die cx d).f = x.f ∧ (s1.die cx d).fset = x.fset := by
    by_cases same : old.f = x.f ∧ old.fset = x.fset
    · rwa [show s1 = s from if_pos same]
    · rw [show s1 = s.modDie cx d fun y => { y with f := x.f, fset := x.fset } from if_neg same, die_modDie]
      exact ⟨rfl, rfl⟩
  split <;> exact copies

theorem exec_barrierCompletion (cx : Nat) (sc : Scope) (x id : Nat) :
    exec (.barrierCompletion cx sc x id) s = .next (s.barDone cx sc x id) := rfl

/-- 13 R293: a barrier turns its phase once every core that it is for has arrived. -/
theorem barDone_of_all {cx x id : Nat} {sc : Scope} {b : BarInst} (found : mfind (barKey sc x id) (s.ctx cx).bars = some b)
    (up : s.enginesUp cx = true) (some_ : b.arrived ≠ []) (name : id ≤ 3) (all : (s.barCores cx sc x).all b.coreIn = true) :
    s.barDone cx sc x id =
      s.modCtx cx fun c => { c with bars := mput (barKey sc x id) { parity := !b.parity, arrived := [] } c.bars } := by
  have arrived : (b.arrived == []) = false := beq_eq_false_iff_ne.mpr some_
  have known : decide (id > 3) = false := decide_eq_false (by omega)
  simp only [State.barDone, found, up, arrived, known, all, Bool.not_true, Bool.or_self, Bool.false_eq_true, if_false]

end Sys2Proof.Machine
end

section
/-! SUPPORT. Crossing units and snapshots where their events are enabled (15 R324, R328). -/

namespace Sys2Proof.Machine

open Sys2Proof

variable {s : State}

theorem exec_crossingFiring (k : CoreRef) : exec (.crossingFiring k) s = .next (s.fire k) := rfl

/-- 15 R324: a unit fires the variables due at its count, when the frontier at its location is its count's time. -/
theorem fire_of_due {k : CoreRef} {u : XUnit} {h : Time} (unit : (s.core k).xunit = some u) (count : u.count = some h)
    (reached : s.frontierAt k.ctx k.die (s.unitLoc k.ctx u) = h) (up : s.enginesUp k.ctx = true)
    (room : s.fireBlocked k u h = false) :
    let a := (u.due h).foldl (fireVar k h) (s, u.part, u)
    s.fire k = a.1.unitSend k a.2.1 a.2.2 := by
  simp only [State.fire, unit, count, reached, up, room, ne_eq, not_true_eq_false, Bool.not_true, Bool.false_eq_true, or_self,
    if_false]

/-- 15 R328: a sample whose page is there is written. Unfolded by `delta`, with the list and the access unknown: the kernel, to match on
them, would write the number of the variable's word, a multiple of a large power of two, out in unary. -/
theorem snapRun_of_keys {pd v : Nat} {w : Who} {k : CoreRef} {l : List (CoreRef × Nat)} {q : Snap} {ks : List Nat} {s1 : State}
    (one : l = [(k, v)]) (page : s.agentGet pd w (q.base.toNat + 4 * (s.varId k v % 2 ^ 20)) 4 .write = (.keys ks, s1)) :
    snapRun pd w l q s = (false, { q with next := q.next + 1, wrote := q.wrote + 1 },
      s1.store (ks.zip (leBytes 4 ((s1.var k v).at_ (s1.neverVar k v) q.tick).toNat))) := by
  delta snapRun snapRun._f
  obtain ⟨get, hget⟩ : ∃ get, @State.agentGet = get := ⟨_, rfl⟩
  rw [hget] at page ⊢
  subst one
  dsimp only
  rw [page]

theorem exec_qsnapSample (cx i : Nat) : exec (.qsnapSample cx i) s = .next (s.sampleSnap cx i) := rfl

/-- For whom a snapshot's accesses are made. -/
def Snap.agent (q : Snap) (cx : Nat) : Who := ⟨cx, q.poster, q.who, q.pc, q.iword, workOf 5 q.id⟩

/-- The package with a snapshot kept as its samples have left it. -/
def State.keepSnap (s : State) (cx i : Nat) (q : Snap) : State :=
  s.modCtx cx fun c => { c with snaps := lmod i (fun _ => q) c.snaps }

section
variable {cx i : Nat} {q : Snap} {x : Bool × Snap × State} (at_ : (s.ctx cx).snaps[i]? = some q)
  (reached : snapTime q.tick ≤ s.frontierAt cx q.poster.die q.loc) (up : s.enginesUp cx = true)
  (room : s.countBlocked q.poster.coreRef q.loc (snapTime q.tick) = false)
  (ran : snapRun (s.physDie cx q.poster.die) (q.agent cx) ((s.snapVars cx q.loc).drop q.next) q s = x)
include at_ reached up room ran

/-- 05 R385: a snapshot with a page on its way keeps its place. -/
theorem sampleSnap_of_pending (waits : x.1 = true) : s.sampleSnap cx i = x.2.2.keepSnap cx i x.2.1 := by
  unfold Snap.agent at ran
  unfold State.sampleSnap
  rw [at_]
  dsimp only
  rw [if_neg (by simp [reached, up, room]), ran, if_pos waits]
  rfl

/-- 15 R328: at its end a snapshot writes its count and takes its hold away. -/
theorem sampleSnap_of_end {s2 : State} {ks : List Nat} (done : x.1 = false) (good : x.2.1.bad = none)
    (page : (x.2.2.keepSnap cx i x.2.1).agentGet (s.physDie cx q.poster.die) (q.agent cx) x.2.1.cw.toNat 4 .write = (.keys ks, s2)) :
    s.sampleSnap cx i =
      (((s2.store (ks.zip (leBytes 4 x.2.1.wrote))).setFullIf (s2.carriesFull x.2.1.poster x.2.1.cw.toNat (ks.getD 0 0))
        (ks.getD 0 0)).modCtx cx fun c => { c with snaps := c.snaps.eraseIdx i }).count q.poster.coreRef x.2.1.loc
          (snapTime x.2.1.tick) false (-1) := by
  unfold Snap.agent at ran page
  unfold State.keepSnap at page
  unfold State.sampleSnap
  rw [at_]
  dsimp only
  rw [if_neg (by simp [reached, up, room]), ran, if_neg (by simp [done]), page]
  dsimp only
  rw [good]

end

end Sys2Proof.Machine
end

section
/-! SUPPORT. Injection, delivery, routers, counts, frontiers, crossings and snapshots, together (06 R132 to R136; 08 R171 to R176; 15
R324, R328). -/

namespace Sys2Proof.Machine

open Sys2Proof

/-- Settles O57, each event by what its rule does where it is enabled. -/
theorem meshCountAndFrontierEvents : Obligations.MeshCountAndFrontierEvents := by
  unfold Obligations.MeshCountAndFrontierEvents
  intro s
  refine ⟨?injection, ?delivery, ?owed, ?reoffer, ?routing, ?flush, ?unit, ?root, ?broadcast, ?barrier, ?firing, ?sample, ?snapshot⟩
  case injection =>
    intro r i e at_ unsent before up known free
    rw [exec_messageInjection, inject_of_enabled at_ unsent before up known free]
    rfl
  case delivery =>
    intro cx i f at_ single up k s1
    refine ⟨fun granted own => ⟨fun t taken => ?_, fun refused buffered => ?_⟩, fun granted other sends => ?_,
      fun p port other => ?_, granted_iff.mpr, fun j g there => ?_⟩
    · rw [exec_messageDelivery, arriveMsg_of_taken at_ single up granted own taken]
    · rw [exec_messageDelivery, arriveMsg_of_refused at_ single up granted own refused buffered]
    · rw [exec_messageDelivery, arriveMsg_of_other_package at_ single up granted other sends]
    · rw [exec_messageDelivery, arriveMsg_of_not_granted at_ (not_granted port other)]
    · rw [mesh_regrant there]
      cases g.since <;> rfl
  case owed => exact fun here => ⟨owed_eq_none_iff, fun c => first_of_owed⟩
  case reoffer =>
    intro r i e x rest at_ up refused due single
    rw [exec_refusedMessageReoffer, reoffer_of_due at_ up refused due single, SendEnt.flit, single]
  case routing =>
    intro cx i grp f at_ group up granted s1 f1 e
    rw [exec_routerGroupMessage, route_of_granted at_ group up granted]
    refine ⟨fun op => ?_, fun op local_ => ?_, fun op => ?_⟩
    · exact congrArg Host.Outcome.next (applyEntry_copy (f := f1) op)
    · exact congrArg Host.Outcome.next (applyEntry_dropZero (f := f1) op local_)
    · exact congrArg Host.Outcome.next (applyEntry_sum (f := f1) op)
  case flush =>
    intro k some_ due room up
    refine ⟨s.flush k none, ?_, delta_flush, ?_⟩
    · rw [exec_deltaFlushAge, ageFlush_of_due some_ due room up]
    · rw [inflight_flush some_, room]
  case unit =>
    rintro cx _ b rest up oldest rfl others takes
    refine ⟨_, exec_tilthBatchAccept up b.die, ?_⟩
    rw [tilthAccept_of_oldest oldest takes, ctx_dieAccept, counts_dieAccept, ctx_modCtx, ctx_dieTakesAgain, die_modCtx, die_dieTakesAgain,
      oldest, filter_id_ne_oldest others]
    exact ⟨rfl, rfl, rfl⟩
  case root =>
    intro cx b rest up oldest takes whole free cs
    obtain ⟨pod, m, applied⟩ := ctx_rootApply oldest takes whole free
    refine ⟨_, exec_rootBatchApply up, ?_⟩
    rw [applied]
    exact ⟨rfl, rfl, rfl, rfl⟩
  case broadcast => exact fun cx d up => ⟨_, exec_frontierBroadcast up d, frontiers_broadcast cx d⟩
  case barrier =>
    intro cx sc x id b found up some_ name all
    rw [exec_barrierCompletion, barDone_of_all found up some_ name all]
  case firing =>
    intro k u h unit count reached up room due a
    rw [exec_crossingFiring, fire_of_due unit count reached up room]
    rfl
  case sample => exact fun pd w k v q ks s1 page => snapRun_of_keys rfl page
  case snapshot =>
    intro cx i q at_ reached up room pd w x q1 s1
    -- What the samples come to is left unknown: to compare it, Lean would compute the numbers of the variables' words.
    have ran : snapRun pd w ((s.snapVars cx q.loc).drop q.next) q s = x := rfl
    clear_value x
    refine ⟨fun waits => ?_, fun ks s2 done good page => ?_⟩
    · exact congrArg Host.Outcome.next (sampleSnap_of_pending at_ reached up room ran waits)
    · exact congrArg Host.Outcome.next (sampleSnap_of_end at_ reached up room ran done good page)

end Sys2Proof.Machine
end

section
/-! SUPPORT. A state whose table of quads lists one quad twice, and what a release makes of that quad's store buffer (05 R112; 09 R187).
A table that mput alone has built has one entry for a key, but the statement is about every value of the state's type. -/

namespace Sys2Proof.Machine

open Sys2Proof

/-- The slot that releases. -/
def releasingSlot : SlotRef := ⟨1, 0, 0, 0⟩

/-- A line of the slot's stores that a bridge of its die carries to HBM. -/
def bridgedLine : SbEnt := { who := releasingSlot, line := lineOf (pkey .hbm 0 64), bytes := [], out := true }

/-- A line of the slot's stores in the store buffer whose home is package 5. -/
def remoteLine : SbEnt := { who := releasingSlot, line := lineOf (pkey .remote 5 64), bytes := [] }

/-- No link of the package works. The first entry of the slot's quad has an empty store buffer; the second, which no read of the table
finds, has a line on a bridge and one for another package. -/
def storesInShadowedEntry : State :=
  { State.reset with
    cur := releasingSlot,
    links := (List.range 32).map fun l => (l, { works := false }),
    quads := [(quadKey releasingSlot.quadRef, {}), (quadKey releasingSlot.quadRef, { sb := [bridgedLine, remoteLine] })] }

theorem sb_storesInShadowedEntry : (storesInShadowedEntry.quad releasingSlot.quadRef).sb = [] := rfl

/-- The release brings home what the die's bridges carry of the slot's stores, in every entry of the table. State.bridgeOut puts an entry
that it finds with such a line back by its key, so the second entry takes the place of the first; the line for package 5, which no link
sends, is then in the quad's store buffer and stays there. -/
theorem sb_release_storesInShadowedEntry :
    ((storesInShadowedEntry.release releasingSlot .pkg).quad releasingSlot.quadRef).sb = [{ remoteLine with rel := some .pkg }] := by
  decide +kernel

/-- Refutes O36: its clause on releases says that one of pkg scope, where the links send every store of the quad, leaves in the store
buffer none that happens before it, which fails where the table of quads lists the quad twice. -/
theorem not_fencesOrderMemory : ¬ Obligations.FencesOrderMemory := by
  unfold Obligations.FencesOrderMemory
  intro h
  obtain ⟨-, -, -, released, -⟩ := h storesInShadowedEntry
  obtain ⟨-, -, -, -, noneLeft⟩ := released .pkg
  have leaving : ∀ e ∈ (storesInShadowedEntry.quad releasingSlot.quadRef).sb, storesInShadowedEntry.canLeave e = true := by
    rw [sb_storesInShadowedEntry]
    exact List.forall_mem_nil _
  have stays : { remoteLine with rel := some .pkg } ∈
      ((storesInShadowedEntry.release releasingSlot .pkg).quad releasingSlot.quadRef).sb := by
    rw [sb_release_storesInShadowedEntry]
    exact List.mem_singleton_self _
  have mine : SbEnt.mine { remoteLine with rel := some .pkg } releasingSlot = true := by decide
  exact Bool.false_ne_true ((noneLeft rfl leaving _ stays).symm.trans mine)

end Sys2Proof.Machine
end

section
/-! SUPPORT. The words of instructions: codes and their bits, a word as its fields one after the other, and the fields of a word that
was put together, by layout (11 R233 to R238). -/

namespace Sys2Proof

open BitVec (extractLsb'_append_extractLsb'_eq_extractLsb' extractLsb'_append_eq_left extractLsb'_append_eq_right extractLsb'_eq_self)

/-! ## Words and their parts -/

/-- A bit is the field of length 1 at its place. -/
theorem ofBool_getLsbD {n : Nat} (x : BitVec n) (i : Nat) : BitVec.ofBool (x.getLsbD i) = x.extractLsb' i 1 := by
  ext j hj
  obtain rfl : j = 0 := by omega
  simp

/-- A field of length 1 that is set or clear, as a bit. -/
theorem eq_extractLsb'_of_getLsbD {n : Nat} {x : BitVec n} {i : Nat} {v : Bool} (h : x.getLsbD i = v) :
    BitVec.ofBool v = x.extractLsb' i 1 := h ▸ ofBool_getLsbD x i

/-- Concatenations of parts of the same widths are equal where the parts are. -/
theorem append_inj {m n : Nat} {x x' : BitVec m} {y y' : BitVec n} : x ++ y = x' ++ y' ↔ x = x' ∧ y = y' := by
  refine ⟨fun h => ⟨?_, ?_⟩, fun ⟨hx, hy⟩ => hx ▸ hy ▸ rfl⟩
  · rw [← extractLsb'_append_eq_left (a := x) (b := y), h, extractLsb'_append_eq_left]
  · rw [← extractLsb'_append_eq_right (a := x) (b := y), h, extractLsb'_append_eq_right]

theorem ofBool_inj {v v' : Bool} : BitVec.ofBool v = BitVec.ofBool v' ↔ v = v' := by
  cases v <;> cases v' <;> decide

/-- The bytes of a 32-bit word, put together again. -/
theorem bytes_append (w : W32) : w.extractLsb' 24 8 ++ w.extractLsb' 16 8 ++ w.extractLsb' 8 8 ++ w.extractLsb' 0 8 = w := by
  simp only [extractLsb'_append_extractLsb'_eq_extractLsb', extractLsb'_eq_self]

/-- The bytes of a 16-bit word, put together again. -/
theorem bytes16_append (w : BitVec 16) : w.extractLsb' 8 8 ++ w.extractLsb' 0 8 = w := by
  simp only [extractLsb'_append_extractLsb'_eq_extractLsb', extractLsb'_eq_self]

/-- Bit 0 of a word is that of its first byte. -/
theorem getLsbD_zero_byte {n : Nat} (w : BitVec n) : (w.extractLsb' 0 8).getLsbD 0 = w.getLsbD 0 := by simp

/-- The bytes of a word with bit 0 set decode as a 32-bit word (11 R233). -/
theorem decode_bytes_w32 {w : W32} (hw : w.getLsbD 0 = true) : decode (Code.w32 w).bytes = (decode32 w).map fun i => (i, 4) := by
  unfold decode Code.bytes
  simp only [getLsbD_zero_byte, hw, if_true]
  rw [bytes_append]

/-- The bytes of a word with bit 0 clear decode as a 16-bit word (11 R233). -/
theorem decode_bytes_w16 {w : BitVec 16} (hw : w.getLsbD 0 = false) : decode (Code.w16 w).bytes = (decode16 w).map fun i => (i, 2) := by
  unfold decode Code.bytes
  simp only [getLsbD_zero_byte, hw, Bool.false_eq_true, if_false]
  rw [bytes16_append]

/-! ## Codes -/

@[simp] theorem Ord.ofBits_bits (o : Ord) : Ord.ofBits o.bits = o := by cases o <;> rfl

@[simp] theorem Ord.bits_ofBits (x : BitVec 2) : (Ord.ofBits x).bits = x := by revert x; decide

@[simp] theorem Scope.ofBits_bits (s : Scope) : Scope.ofBits s.bits = some s := by cases s <;> rfl

theorem Scope.bits_of_ofBits {x : BitVec 3} {s : Scope} (h : Scope.ofBits x = some s) : s.bits = x := by revert x s; decide

@[simp] theorem Aop.ofBits_bits (f : Aop) : Aop.ofBits f.bits = some f := by cases f <;> rfl

theorem Aop.bits_of_ofBits {x : BitVec 4} {f : Aop} (h : Aop.ofBits x = some f) : f.bits = x := by revert x f; decide

@[simp] theorem PCond.ofBits_bits (f : PCond) : PCond.ofBits f.bits = some f := by cases f <;> rfl

theorem PCond.bits_of_ofBits {x : BitVec 3} {f : PCond} (h : PCond.ofBits x = some f) : f.bits = x := by revert x f; decide

@[simp] theorem FCond.ofBits_bits (f : FCond) : FCond.ofBits f.bits = f := by cases f <;> rfl

@[simp] theorem FCond.bits_ofBits (x : BitVec 3) : (FCond.ofBits x).bits = x := by revert x; decide

@[simp] theorem ICond.ofBits_bits (f : ICond) : ICond.ofBits f.bits = f := by cases f <;> rfl

@[simp] theorem ICond.bits_ofBits (x : BitVec 3) : (ICond.ofBits x).bits = x := by revert x; decide

@[simp] theorem XSize.ofBits_bits (e : XSize) : XSize.ofBits e.bits = some e := by cases e <;> rfl

theorem XSize.bits_of_ofBits {x : BitVec 4} {e : XSize} (h : XSize.ofBits x = some e) : e.bits = x := by revert x e; decide

/-! ## A long word and its fields -/

section Upper

variable (w : W32)

/-- The parts of the upper 19 bits of a word in layout R (11 R236). -/
theorem upper_R : fRd w ++ fRa w ++ fRb w ++ fFn w = w.extractLsb' 13 19 := by
  simp only [fRd, fRa, fRb, fFn, extractLsb'_append_extractLsb'_eq_extractLsb']

/-- The same of layout I. -/
theorem upper_I : fRd w ++ fRa w ++ fImm9 w = w.extractLsb' 13 19 := by
  simp only [fRd, fRa, fImm9, extractLsb'_append_extractLsb'_eq_extractLsb']

/-- The same of layout U. -/
theorem upper_U : fRd w ++ fImm14 w = w.extractLsb' 13 19 := by
  simp only [fRd, fImm14, extractLsb'_append_extractLsb'_eq_extractLsb']

/-- The same of layout M. -/
theorem upper_M : fRd w ++ fRa w ++ w.extractLsb' 20 2 ++ w.extractLsb' 17 3 ++ w.extractLsb' 15 2 ++ BitVec.ofBool (w.getLsbD 14) ++
    w.extractLsb' 13 1 = w.extractLsb' 13 19 := by
  simp only [fRd, fRa, ofBool_getLsbD, extractLsb'_append_extractLsb'_eq_extractLsb']

/-- The same of layout O. -/
theorem upper_O : fRd w ++ fRa w ++ w.extractLsb' 20 2 ++ w.extractLsb' 13 7 = w.extractLsb' 13 19 := by
  simp only [fRd, fRa, extractLsb'_append_extractLsb'_eq_extractLsb']

/-- The same of layout A. -/
theorem upper_A : fRd w ++ fRa w ++ w.extractLsb' 18 4 ++ w.extractLsb' 16 2 ++ w.extractLsb' 13 3 = w.extractLsb' 13 19 := by
  simp only [fRd, fRa, extractLsb'_append_extractLsb'_eq_extractLsb']

/-- The same of layout P. -/
theorem upper_P : fPd w ++ fPe w ++ fPra w ++ fPrb w ++ fCc w = w.extractLsb' 13 19 := by
  simp only [fPd, fPe, fPra, fPrb, fCc, extractLsb'_append_extractLsb'_eq_extractLsb']

/-- The same of layout PL. -/
theorem upper_PL : fPd w ++ fPe w ++ w.extractLsb' 23 3 ++ w.extractLsb' 18 5 ++ w.extractLsb' 17 1 ++ fFn w = w.extractLsb' 13 19 := by
  simp only [fPd, fPe, fFn, extractLsb'_append_extractLsb'_eq_extractLsb']

/-- The same of layout FN. -/
theorem upper_FN : w.extractLsb' 30 2 ++ w.extractLsb' 27 3 ++ w.extractLsb' 24 3 ++ w.extractLsb' 13 11 = w.extractLsb' 13 19 := by
  simp only [extractLsb'_append_extractLsb'_eq_extractLsb']

/-- The same of layout BARF. -/
theorem upper_BARF : w.extractLsb' 30 2 ++ w.extractLsb' 27 3 ++ fRa w ++ fRb w ++ w.extractLsb' 13 4 = w.extractLsb' 13 19 := by
  simp only [fRa, fRb, extractLsb'_append_extractLsb'_eq_extractLsb']

/-- The same of layout REP. -/
theorem upper_REP : fRd w ++ w.extractLsb' 23 4 ++ w.extractLsb' 19 4 ++ w.extractLsb' 13 6 = w.extractLsb' 13 19 := by
  simp only [fRd, extractLsb'_append_extractLsb'_eq_extractLsb']

end Upper

/-- The immediate of layout I is three bits over a shift amount (11 R237). -/
theorem fImm9_eq (w : W32) : fImm9 w = w.extractLsb' 19 3 ++ w.extractLsb' 13 6 := by
  simp only [fImm9, extractLsb'_append_extractLsb'_eq_extractLsb']

/-- The lowest bits of a long word are its stall count and guard over bit 0 (11 R234). -/
theorem encCtl_ctlOf {w : W32} (hw : w.getLsbD 0 = true) : encCtl (ctlOf w) = w.extractLsb' 0 7 := by
  have h0 : 1#1 = w.extractLsb' 0 1 := eq_extractLsb'_of_getLsbD hw
  unfold encCtl ctlOf
  simp only [h0, ofBool_getLsbD, extractLsb'_append_extractLsb'_eq_extractLsb']

theorem encCtl_inj {c c' : Ctl} : encCtl c = encCtl c' ↔ c = c' := by
  obtain ⟨s, n, g⟩ := c
  obtain ⟨s', n', g'⟩ := c'
  refine ⟨fun h => ?_, congrArg encCtl⟩
  simpa only [append_inj, ofBool_inj, Ctl.mk.injEq, and_true, and_assoc] using append_inj.1 h

/-- A long word is its upper 19 bits over its major opcode and its control bits, for whatever makes up the 19 bits. -/
theorem upper_append {w : W32} (hw : w.getLsbD 0 = true) {m : BitVec 6} (hm : (fMajor w).toNat = m.toNat) {u : BitVec 19}
    (hu : u = w.extractLsb' 13 19) : u ++ m ++ encCtl (ctlOf w) = w := by
  simp only [hu, ← BitVec.eq_of_toNat_eq hm, fMajor, encCtl_ctlOf hw, extractLsb'_append_extractLsb'_eq_extractLsb', extractLsb'_eq_self]

/-- The parts of a long word that was put together. -/
theorem parts_of_append {w : W32} {u : BitVec 19} {m : BitVec 6} {c : Ctl} (h : u ++ m ++ encCtl c = w) :
    fMajor w = m ∧ ctlOf w = c ∧ w.extractLsb' 13 19 = u := by
  have hw : w.getLsbD 0 = true := h ▸ Laws.long_of_ctl (u ++ m) c
  obtain ⟨hum, hc⟩ := append_inj.1 ((upper_append hw rfl rfl).trans h.symm)
  obtain ⟨hu, hm⟩ := append_inj.1 hum
  exact ⟨hm, encCtl_inj.1 hc, hu⟩

/-! ## The fields of a word that was put together, by layout -/

section Fields

variable {w : W32} {m : BitVec 6} {c : Ctl}

theorem fields_of_encR {d a b fn} (h : encR d a b fn m c = w) :
    fMajor w = m ∧ ctlOf w = c ∧ fRd w = d ∧ fRa w = a ∧ fRb w = b ∧ fFn w = fn := by
  obtain ⟨hm, hc, hu⟩ := parts_of_append h
  refine ⟨hm, hc, ?_⟩
  simpa only [append_inj, and_assoc] using append_inj.1 ((upper_R w).trans hu)

theorem fields_of_encI {d a i} (h : encI d a i m c = w) : fMajor w = m ∧ ctlOf w = c ∧ fRd w = d ∧ fRa w = a ∧ fImm9 w = i := by
  obtain ⟨hm, hc, hu⟩ := parts_of_append h
  refine ⟨hm, hc, ?_⟩
  simpa only [append_inj, and_assoc] using append_inj.1 ((upper_I w).trans hu)

theorem fields_of_encI_shift {d a n} (h : encI d a (0#3 ++ n) m c = w) :
    fMajor w = m ∧ ctlOf w = c ∧ fRd w = d ∧ fRa w = a ∧ w.extractLsb' 19 3 = 0#3 ∧ w.extractLsb' 13 6 = n := by
  obtain ⟨hm, hc, hd, ha, hi⟩ := fields_of_encI h
  exact ⟨hm, hc, hd, ha, append_inj.1 ((fImm9_eq w).symm.trans hi)⟩

theorem fields_of_encU {d i} (h : encU d i m c = w) : fMajor w = m ∧ ctlOf w = c ∧ fRd w = d ∧ fImm14 w = i := by
  obtain ⟨hm, hc, hu⟩ := parts_of_append h
  exact ⟨hm, hc, append_inj.1 ((upper_U w).trans hu)⟩

theorem fields_of_encJ {o} (h : encJ o m c = w) : fMajor w = m ∧ ctlOf w = c ∧ w.extractLsb' 13 19 = o := parts_of_append h

theorem fields_of_encM {d a o s z t} (h : encM d a o s z t m c = w) :
    fMajor w = m ∧ ctlOf w = c ∧ fRd w = d ∧ fRa w = a ∧ w.extractLsb' 20 2 = o.bits ∧ w.extractLsb' 17 3 = s.bits ∧
      w.extractLsb' 15 2 = z ∧ w.getLsbD 14 = t ∧ w.extractLsb' 13 1 = 0#1 := by
  obtain ⟨hm, hc, hu⟩ := parts_of_append h
  refine ⟨hm, hc, ?_⟩
  simpa only [append_inj, ofBool_inj, and_assoc] using append_inj.1 ((upper_M w).trans hu)

/-- The size of an ldf and the bit over it, which is set (11 R240). -/
theorem size_ldf (w : W32) : BitVec.ofBool (w.getLsbD 16) ++ w.extractLsb' 15 1 = w.extractLsb' 15 2 := by
  simp only [ofBool_getLsbD, extractLsb'_append_extractLsb'_eq_extractLsb']

theorem fields_of_encM_full {d a o s z t} (h : encM d a o s (1#1 ++ z) t m c = w) :
    fMajor w = m ∧ ctlOf w = c ∧ fRd w = d ∧ fRa w = a ∧ w.extractLsb' 20 2 = o.bits ∧ w.extractLsb' 17 3 = s.bits ∧
      w.getLsbD 16 = true ∧ w.extractLsb' 15 1 = z ∧ w.getLsbD 14 = t ∧ w.extractLsb' 13 1 = 0#1 := by
  obtain ⟨hm, hc, hd, ha, ho, hs, hz, hrest⟩ := fields_of_encM h
  obtain ⟨hfull, hz⟩ := append_inj.1 ((size_ldf w).trans hz)
  exact ⟨hm, hc, hd, ha, ho, hs, ofBool_inj.1 hfull, hz, hrest⟩

theorem fields_of_encO {d a z f} (h : encO d a z f m c = w) :
    fMajor w = m ∧ ctlOf w = c ∧ fRd w = d ∧ fRa w = a ∧ w.extractLsb' 20 2 = z ∧ w.extractLsb' 13 7 = f := by
  obtain ⟨hm, hc, hu⟩ := parts_of_append h
  refine ⟨hm, hc, ?_⟩
  simpa only [append_inj, and_assoc] using append_inj.1 ((upper_O w).trans hu)

theorem fields_of_encA {d a f o s} (h : encA d a f o s c = w) :
    fMajor w = 0x1E ∧ ctlOf w = c ∧ fRd w = d ∧ fRa w = a ∧ w.extractLsb' 18 4 = f.bits ∧ w.extractLsb' 16 2 = o.bits ∧
      w.extractLsb' 13 3 = s.bits := by
  obtain ⟨hm, hc, hu⟩ := parts_of_append h
  refine ⟨hm, hc, ?_⟩
  simpa only [append_inj, and_assoc] using append_inj.1 ((upper_A w).trans hu)

theorem fields_of_encP {p e a b cc} (h : encP p e a b cc m c = w) :
    fMajor w = m ∧ ctlOf w = c ∧ fPd w = p ∧ fPe w = e ∧ fPra w = a ∧ fPrb w = b ∧ fCc w = cc := by
  obtain ⟨hm, hc, hu⟩ := parts_of_append h
  refine ⟨hm, hc, ?_⟩
  simpa only [append_inj, and_assoc] using append_inj.1 ((upper_P w).trans hu)

theorem fields_of_encPL {p q r a fn} (h : encPL p q r a fn c = w) :
    fMajor w = 0x0D ∧ ctlOf w = c ∧ fPd w = p ∧ fPe w = q ∧ w.extractLsb' 23 3 = r ∧ w.extractLsb' 18 5 = a ∧
      w.extractLsb' 17 1 = 0#1 ∧ fFn w = fn := by
  obtain ⟨hm, hc, hu⟩ := parts_of_append h
  refine ⟨hm, hc, ?_⟩
  simpa only [append_inj, and_assoc] using append_inj.1 ((upper_PL w).trans hu)

theorem fields_of_encFence {o s kind} (h : encFence o s kind c = w) :
    fMajor w = 0x1F ∧ ctlOf w = c ∧ w.extractLsb' 30 2 = o.bits ∧ w.extractLsb' 27 3 = s.bits ∧ w.extractLsb' 24 3 = kind ∧
      w.extractLsb' 13 11 = 0#11 := by
  obtain ⟨hm, hc, hu⟩ := parts_of_append h
  refine ⟨hm, hc, ?_⟩
  simpa only [append_inj, and_assoc] using append_inj.1 ((upper_FN w).trans hu)

theorem fields_of_encBar {kind s a b} (h : encBar kind s a b c = w) :
    fMajor w = 0x2C ∧ ctlOf w = c ∧ w.extractLsb' 30 2 = kind ∧ w.extractLsb' 27 3 = s.bits ∧ fRa w = a ∧ fRb w = b ∧
      w.extractLsb' 13 4 = 0#4 := by
  obtain ⟨hm, hc, hu⟩ := parts_of_append h
  refine ⟨hm, hc, ?_⟩
  simpa only [append_inj, and_assoc] using append_inj.1 ((upper_BARF w).trans hu)

theorem fields_of_encRep {a l s} (h : encRep a l s c = w) :
    fMajor w = 0x13 ∧ ctlOf w = c ∧ fRd w = a ∧ w.extractLsb' 23 4 = l ∧ w.extractLsb' 19 4 = s ∧ w.extractLsb' 13 6 = 0#6 := by
  obtain ⟨hm, hc, hu⟩ := parts_of_append h
  refine ⟨hm, hc, ?_⟩
  simpa only [append_inj, and_assoc] using append_inj.1 ((upper_REP w).trans hu)

end Fields

end Sys2Proof
end

section
/-! SUPPORT. The decoder inverts the encoder and accepts no other word (11 R233 to R241, R250). -/

namespace Sys2Proof

open BitVec (extractLsb'_append_extractLsb'_eq_extractLsb' extractLsb'_eq_self ofNat_toNat setWidth_eq)

/-! ## The majors of layout R -/

/-- The decoder of a major opcode by its function code and its three registers, where the words of the major are of layout R and the
function code picks the instruction (11 R236, R240). -/
def layoutR (m : Nat) : Option (Ctl → Spec → Spec → Spec → Nat → Raw) :=
  match m with
  | 0x00 => some decAlu
  | 0x01 => some decAlu2
  | 0x12 => some decCtl
  | 0x1D => some decFeop
  | 0x20 => some decValu
  | 0x21 => some decVfp
  | 0x22 => some decVfma
  | 0x23 => some decVhalf
  | 0x24 => some decVcvt
  | 0x25 => some decVperm
  | 0x26 => some decVred
  | 0x29 => some decMtx
  | 0x2A => some decMsg
  | 0x2B => some decTime
  | 0x2D => some decRing
  | 0x2E => some decTask
  | 0x2F => some decCopy
  | 0x30 => some decStor
  | 0x31 => some decQss
  | 0x34 => some decSys
  | _ => none

/-- The decoder of a word whose major opcode is of layout R. -/
theorem decodeRaw_layoutR {w : W32} {f} (hf : layoutR (fMajor w).toNat = some f) :
    decodeRaw w = f (ctlOf w) (fRd w) (fRa w) (fRb w) (fFn w).toNat := by
  unfold decodeRaw
  generalize (fMajor w).toNat = m at hf
  unfold layoutR at hf
  split at hf <;> cases hf <;> rfl

/-- A word put together in layout R decodes as its parts say. -/
theorem decodeRaw_of_encR {w : W32} {c d a b fn m f} (h : encR d a b fn m c = w) (hf : layoutR m.toNat = some f) :
    decodeRaw w = f c d a b fn.toNat := by
  obtain ⟨hm, hc, hd, ha, hb, hfn⟩ := fields_of_encR h
  rw [decodeRaw_layoutR (hm ▸ hf), hc, hd, ha, hb, hfn]

/-- The sixteen codes of a field of four bits. -/
theorem eq_of_lt_16 {n : Nat} (h : n < 16) : n = 0 ∨ n = 1 ∨ n = 2 ∨ n = 3 ∨ n = 4 ∨ n = 5 ∨ n = 6 ∨ n = 7 ∨ n = 8 ∨ n = 9 ∨ n = 10 ∨
    n = 11 ∨ n = 12 ∨ n = 13 ∨ n = 14 ∨ n = 15 := by omega

/-- rpub has its flag in bit 0 of rd, over which rd is zero. -/
theorem append_ofBool_of_flag {d : Spec} (h : d.extractLsb' 1 4 = 0#4) : 0#4 ++ BitVec.ofBool d[0] = d := by
  revert d; decide

/-- What a decoder of layout R accepts is encoded with the registers, the function code and the major that it was read from: by the
decoder, and for each by the function code. -/
theorem encode_layoutR {m f} (hf : layoutR m = some f) {c d a b n i z} (hn : n < 16) (h : f c d a b n = .ok (i, z)) (hz : z = true) :
    encode i = .w32 (encR d a b (BitVec.ofNat 4 n) (BitVec.ofNat 6 m) c) := by
  unfold layoutR at hf
  split at hf <;> cases hf
  all_goals
    rcases eq_of_lt_16 hn with rfl | rfl | rfl | rfl | rfl | rfl | rfl | rfl | rfl | rfl | rfl | rfl | rfl | rfl | rfl | rfl <;> cases h
    all_goals simp_all [encode, append_ofBool_of_flag]

/-! ## Decoding what was encoded -/

/-- The word of an instruction decodes to it, every reserved field zero: in layout R by its row of the table, elsewhere by the fields of
its layout. -/
theorem decodeRaw_encode {i : Instr} {w : W32} (h : encode i = .w32 w) : decodeRaw w = .ok (i, true) := by
  cases i with
  | add | sub | and | or | xor | andn | shl | shr | sra | mul | mulh | mulhu | min | max | minu | maxu | div | divu | rem
  | remu | clz | ctz | popc | brev | sext8 | sext16 | sext32 | zext32 | bswap | rol | addw | jr | callr | ret | endTask
  | brk | park | rsync | fset | fclr | stf | fprobe | vaddI32 | vsubI32 | vmulI32 | vmulhI32 | vand | vor | vxor | vandn
  | vshl | vshr | vsra | vminI32 | vmaxI32 | vminN32 | vmaxN32 | vabsI32 | vaddF32 | vsubF32 | vmulF32 | vminF32 | vmaxF32
  | vabsF32 | vnegF32 | vsqrtF32 | vrcpF32 | vrsqF32 | vexp2F32 | vlog2F32 | vfloorF32 | vceilF32 | vrintF32
  | vcopysignF32 | vfmaF32 | vfmsF32 | vfnmaF32 | vfmaF16x2 | vfmaBf16x2 | vdot2F16 | vdot2Bf16 | vdot4I8 | vdot4N8
  | vaddF16x2 | vsubF16x2 | vmulF16x2 | vmaxF16x2 | vminF16x2 | vaddBf16x2 | vsubBf16x2 | vmulBf16x2 | vmaxBf16x2
  | vminBf16x2 | vcvtF32I32 | vcvtI32F32 | vcvtF32N32 | vcvtN32F32 | vpackF16x2 | vpackBf16x2 | vcvtF32F16 | vcvtF32Bf16
  | vcvtB8F32 | vcvtF32B8 | vcvtE5m3F32 | vcvtF32E5m3 | vmov | vbcast | vins | vext | vshuf | vrot | vzlo | vzhi | viota
  | vsumI32 | vsumF32 | vmaxrF32 | vminrF32 | vmaxrI32 | vminrI32 | vargmaxF32 | vorr | wld | wswap | xstr | mwait | tcfg
  | tzero | tout | msend | mburst | mstat | send | mcast | recv | mprobe | hdlr | fhold | fdrop | fwait | fread | racq
  | rtake | rrel | rstat | jpost | gfork | grwd | gjoin | gcancel | gstat | cadv | cwm | cwait | cstat | sread | swrite
  | sflush | sstat | qdef | qslope | qread | qquant | qsnap | qstat | tlbinv | tlbsync | wdog | dstop =>
    exact (decodeRaw_of_encR (Code.w32.inj h) rfl).trans rfl
  | rpub c cl => cases cl <;> exact (decodeRaw_of_encR (Code.w32.inj h) rfl).trans rfl
  | vldx | vstx =>
    simp [decodeRaw, fields_of_encR (Code.w32.inj h)]
  | addi | andi | ori | xori | mset | mfc | mtc =>
    simp [decodeRaw, fields_of_encI (Code.w32.inj h)]
  | shli | shri | srai =>
    simp [decodeRaw, fields_of_encI_shift (Code.w32.inj h)]
  | li | lis | adpc =>
    simp [decodeRaw, fields_of_encU (Code.w32.inj h)]
  | pcmp | vcmpf | vcmpi =>
    simp [decodeRaw, fields_of_encP (Code.w32.inj h)]
  | pand | por | pxor | pandn | pnot | pset | pget | pcnt | pfirst =>
    simp [decodeRaw, decPlog, fields_of_encPL (Code.w32.inj h)]
  | br | call =>
    simp [decodeRaw, fields_of_encJ (Code.w32.inj h)]
  | ld | st | vld | vst =>
    simp [decodeRaw, fields_of_encM (Code.w32.inj h), -BitVec.getLsbD_eq_getElem]
  | ldf =>
    simp [decodeRaw, fields_of_encM_full (Code.w32.inj h), -BitVec.getLsbD_eq_getElem]
  | ldo | sto =>
    simp [decodeRaw, fields_of_encO (Code.w32.inj h)]
  | amo =>
    simp [decodeRaw, fields_of_encA (Code.w32.inj h)]
  | fence | fenceE | fenceI | fenceT =>
    simp [decodeRaw, decFence, fields_of_encFence (Code.w32.inj h)]
  | bar | barn | barw =>
    simp [decodeRaw, decBar, fields_of_encBar (Code.w32.inj h)]
  | rep =>
    simp [decodeRaw, fields_of_encRep (Code.w32.inj h)]
  | _ => cases h

/-- Every long word ends with control bits, so its bit 0 is set (11 R233). -/
theorem getLsbD_zero_of_encode {i : Instr} {w : W32} (h : encode i = .w32 w) : w.getLsbD 0 = true := by
  cases i <;> cases h <;> exact Laws.long_of_ctl ..

/-- A decoded word with its reserved fields zero, whose encoding is allowed, is accepted. -/
theorem finish_ok {i : Instr} (h : i.encFault = none) : finish (.ok (i, true)) = .ok i := by
  simp only [finish, h, if_true]

/-- A decoded word whose encoding is not allowed is refused with its cause, whatever its reserved fields hold. -/
theorem finish_encFault {i : Instr} {z : Bool} {k : Nat} (h : i.encFault = some k) : finish (.ok (i, z)) = .error (.illegal k) := by
  simp only [finish, h]

/-- Only a word with its reserved fields zero is accepted. -/
theorem eq_ok_of_finish {r : Raw} {i : Instr} (h : finish r = .ok i) : r = .ok (i, true) := by
  unfold finish at h
  split at h
  · cases h
  · split at h
    · cases h
    · split at h <;> cases h
      simp_all

/-- Settles O1: the word decodes to the instruction, its fields read one by one, and the checks pass. -/
theorem encodeThenDecode32 : Obligations.EncodeThenDecode32 := by
  unfold Obligations.EncodeThenDecode32
  intro i w h hi
  rw [decode_bytes_w32 (getLsbD_zero_of_encode h), decode32, decodeRaw_encode h, finish_ok hi]
  rfl

/-! ## Encoding what was decoded -/

/-- A long word is a major opcode under whatever makes up its upper 19 bits. -/
theorem w32_eq_of_upper {w : W32} (hw : w.getLsbD 0 = true) {n : Nat} (hm : (fMajor w).toNat = n) {u : BitVec 19}
    (hu : u = w.extractLsb' 13 19) : Code.w32 (u ++ BitVec.ofNat 6 n ++ encCtl (ctlOf w)) = .w32 w := by
  have hmn : fMajor w = BitVec.ofNat 6 n := by rw [← hm, ofNat_toNat, setWidth_eq]
  exact congrArg Code.w32 (upper_append hw (congrArg _ hmn) hu)

/-- The upper bits of a shift by an immediate, its unused bits zero. -/
theorem upper_shift_of {w : W32} (hr : (w.extractLsb' 19 3 == 0) = true) :
    fRd w ++ fRa w ++ (0#3 ++ w.extractLsb' 13 6) = w.extractLsb' 13 19 := by
  rw [← upper_I, fImm9_eq, eq_of_beq hr]
  rfl

/-- The upper bits of layout M, its scope one of the six and its unused bit zero. -/
theorem upper_M_of {w : W32} {s : Scope} (hs : Scope.ofBits (w.extractLsb' 17 3) = some s) (hr : (w.extractLsb' 13 1 == 0) = true) :
    fRd w ++ fRa w ++ (Ord.ofBits (w.extractLsb' 20 2)).bits ++ s.bits ++ w.extractLsb' 15 2 ++ BitVec.ofBool (w.getLsbD 14) ++ 0#1 =
      w.extractLsb' 13 19 := by
  rw [← upper_M, Ord.bits_ofBits, Scope.bits_of_ofBits hs, eq_of_beq hr]
  rfl

/-- What a choice by an optional scope or code answers, if it is no error. -/
theorem elim_eq_ok {α β : Type} {o : Option α} {e : DecErr} {g : α → Except DecErr β} {x : β}
    (h : o.elim (.error e) g = .ok x) : ∃ v, o = some v ∧ g v = .ok x := by
  cases o with
  | none => cases h
  | some v => exact ⟨v, rfl, h⟩

/-- What the decoder of predicate logic accepts, by the function code. -/
theorem encode_decPlog {c p q r a x n i z} (hn : n < 16) (h : decPlog c p q r a x n = .ok (i, z)) (hz : z = true) :
    encode i = .w32 (encPL p q r a (BitVec.ofNat 4 n) c) ∧ x = 0 := by
  rcases eq_of_lt_16 hn with rfl | rfl | rfl | rfl | rfl | rfl | rfl | rfl | rfl | rfl | rfl | rfl | rfl | rfl | rfl | rfl <;> cases h
  all_goals simp_all [encode]

/-- What the decoder of fences accepts, by the kind; kind 2 takes acq only (11 R239). -/
theorem encode_decFence {c o sc x n i z} (h : decFence c o sc x n = .ok (i, z)) (hz : z = true) :
    ∃ s, sc = some s ∧ x = 0 ∧ encode i = .w32 (encFence o s (BitVec.ofNat 3 n) c) := by
  unfold decFence at h
  split at h
  · cases h
  · rename_i hn
    obtain ⟨s, hs, h⟩ := elim_eq_ok h
    refine ⟨s, hs, ?_⟩
    obtain rfl | rfl | rfl | rfl : n = 0 ∨ n = 1 ∨ n = 2 ∨ n = 3 := by omega
    iterate 2 (· cases h; simp_all [encode])
    · simp only at h
      split at h <;> cases h
      simp_all [encode]
    · cases h; simp_all [encode]

/-- What the decoder of barriers accepts, by the kind. -/
theorem encode_decBar {c sc a b x n i z} (h : decBar c sc a b x n = .ok (i, z)) (hz : z = true) :
    ∃ s, sc = some s ∧ x = 0 ∧ encode i = .w32 (encBar (BitVec.ofNat 2 n) s a b c) := by
  unfold decBar at h
  split at h
  · cases h
  · rename_i hn
    obtain ⟨s, hs, h⟩ := elim_eq_ok h
    refine ⟨s, hs, ?_⟩
    obtain rfl | rfl | rfl : n = 0 ∨ n = 1 ∨ n = 2 := by omega
    all_goals
      cases h
      simp_all [encode]

/-- A word of a major of layout R that decodes, its reserved fields zero, is the word of its instruction. -/
theorem encode_of_decodeRaw_layoutR {w : W32} (hw : w.getLsbD 0 = true) {f} (hf : layoutR (fMajor w).toNat = some f) {i z}
    (h : decodeRaw w = .ok (i, z)) (hz : z = true) : encode i = .w32 w := by
  rw [decodeRaw_layoutR hf] at h
  rw [encode_layoutR hf (BitVec.isLt _) h hz, ofNat_toNat, setWidth_eq]
  exact w32_eq_of_upper hw rfl (upper_R w)

/-- A long word that decodes, its reserved fields zero, is the word of its instruction: by its major opcode, and for each by the fields
of its layout. -/
theorem encode_of_decodeRaw {w : W32} (hw : w.getLsbD 0 = true) {i z} (h : decodeRaw w = .ok (i, z)) (hz : z = true) :
    encode i = .w32 w := by
  cases hR : layoutR (fMajor w).toNat with
  | some f => exact encode_of_decodeRaw_layoutR hw hR h hz
  | none =>
    unfold decodeRaw at h
    generalize hm : (fMajor w).toNat = m at h hR
    split at h <;> simp only [layoutR, reduceCtorEq] at hR
    -- addi, andi, ori, xori
    iterate 4 (· cases h; exact w32_eq_of_upper hw hm (upper_I w))
    -- shli, shri, srai
    iterate 3 (· cases h; exact w32_eq_of_upper hw hm (upper_shift_of hz))
    -- li, lis, adpc
    iterate 3 (· cases h; exact w32_eq_of_upper hw hm (upper_U w))
    -- pcmp, predicate logic, vcmpf, vcmpi
    · obtain ⟨f, hf, h⟩ := elim_eq_ok h
      cases h
      exact w32_eq_of_upper hw hm (by rw [PCond.bits_of_ofBits hf, upper_P])
    · obtain ⟨hi, hx⟩ := encode_decPlog (BitVec.isLt _) h hz
      rw [hi]
      exact w32_eq_of_upper hw hm (by rw [← upper_PL, ofNat_toNat, setWidth_eq, hx]; rfl)
    · cases h
      exact w32_eq_of_upper hw hm (by rw [FCond.bits_ofBits, upper_P])
    · cases h
      exact w32_eq_of_upper hw hm (by rw [ICond.bits_ofBits, upper_P])
    -- br, call, rep
    iterate 2 (· cases h; exact w32_eq_of_upper hw hm rfl)
    · cases h
      exact w32_eq_of_upper hw hm (by rw [← upper_REP, eq_of_beq hz]; rfl)
    -- ld, st
    iterate 2
      · obtain ⟨sc, hs, h⟩ := elim_eq_ok h
        cases h
        exact w32_eq_of_upper hw hm (upper_M_of hs hz)
    -- ldo, sto
    iterate 2 (· cases h; exact w32_eq_of_upper hw hm (upper_O w))
    -- vld, vst
    iterate 2
      · obtain ⟨sc, hs, h⟩ := elim_eq_ok h
        cases h
        exact w32_eq_of_upper hw hm (upper_M_of hs hz)
    -- vldx, vstx
    iterate 2
      · obtain ⟨e, he, h⟩ := elim_eq_ok h
        cases h
        exact w32_eq_of_upper hw hm (by rw [XSize.bits_of_ofBits he]; exact upper_R w)
    -- ldf, amo
    · split at h
      · rename_i hfull
        obtain ⟨sc, hs, h⟩ := elim_eq_ok h
        cases h
        exact w32_eq_of_upper hw hm (by rw [← upper_M_of hs hz, ← size_ldf, hfull]; rfl)
      · cases h
    · obtain ⟨f, hf, h⟩ := elim_eq_ok h
      obtain ⟨sc, hs, h⟩ := elim_eq_ok h
      cases h
      exact w32_eq_of_upper hw hm (by rw [Aop.bits_of_ofBits hf, Ord.bits_ofBits, Scope.bits_of_ofBits hs, upper_A])
    -- fences, mset, barriers
    · obtain ⟨sc, hs, hx, hi⟩ := encode_decFence h hz
      rw [hi]
      exact w32_eq_of_upper hw hm (by
        rw [← upper_FN, ofNat_toNat, setWidth_eq, Ord.bits_ofBits, Scope.bits_of_ofBits hs, hx]; rfl)
    · cases h
      exact w32_eq_of_upper hw hm (by rw [← upper_I, eq_of_beq hz])
    · obtain ⟨sc, hs, hx, hi⟩ := encode_decBar h hz
      rw [hi]
      exact w32_eq_of_upper hw hm (by rw [← upper_BARF, ofNat_toNat, setWidth_eq, Scope.bits_of_ofBits hs, hx]; rfl)
    -- mfc, mtc, and the majors that are none
    iterate 2 (· cases h; exact w32_eq_of_upper hw hm (by rw [← upper_I, eq_of_beq hz]))
    · cases h

/-! ## Short words -/

/-- A short word is its fields between its bits 15 and 0. -/
theorem append_between {w : BitVec 16} {x y : BitVec 1} (hx : x = w.extractLsb' 15 1) (hy : y = w.extractLsb' 0 1) :
    x ++ w.extractLsb' 10 5 ++ w.extractLsb' 5 5 ++ w.extractLsb' 1 4 ++ y = w := by
  simp only [hx, hy, extractLsb'_append_extractLsb'_eq_extractLsb', extractLsb'_eq_self]

/-- A short word is its fields between a clear bit 15 and a clear bit 0 (11 R235). -/
theorem enc16_fields {w : BitVec 16} (h0 : w.getLsbD 0 = false) (h15 : w.getLsbD 15 = false) :
    enc16 (w.extractLsb' 10 5) (w.extractLsb' 5 5) (w.extractLsb' 1 4) = w := by
  have hlow : 0#1 = w.extractLsb' 0 1 := eq_extractLsb'_of_getLsbD h0
  have hhigh : 0#1 = w.extractLsb' 15 1 := eq_extractLsb'_of_getLsbD h15
  exact append_between hhigh hlow

theorem fields_of_enc16 {w : BitVec 16} {b d : Spec} {op : BitVec 4} (h : enc16 b d op = w) :
    w.getLsbD 0 = false ∧ w.getLsbD 15 = false ∧ w.extractLsb' 10 5 = b ∧ w.extractLsb' 5 5 = d ∧ w.extractLsb' 1 4 = op := by
  obtain ⟨h0, h15⟩ : w.getLsbD 0 = false ∧ w.getLsbD 15 = false := h ▸ Laws.enc16_short b d op
  have hparts := append_inj.1 ((enc16_fields h0 h15).trans h.symm)
  simp only [append_inj, true_and, and_true, and_assoc] at hparts
  exact ⟨h0, h15, hparts⟩

/-- No short form is one that the encoding checks refuse. -/
theorem encFault_dec16 (d b : Spec) (n : Nat) : (dec16 d b n).encFault = none := by
  unfold dec16
  split <;> rfl

/-- A short word with bit 15 clear is one of the sixteen forms (11 R235). -/
theorem decode16_of_clear {w : BitVec 16} (h : w.getLsbD 15 = false) :
    decode16 w = .ok (dec16 (w.extractLsb' 5 5) (w.extractLsb' 10 5) (w.extractLsb' 1 4).toNat) := by
  rw [decode16, h]
  exact finish_ok (encFault_dec16 ..)

/-- A short word with bit 15 set has a reserved field that is not zero (11 R235, R250). -/
theorem decode16_of_set {w : BitVec 16} (h : w.getLsbD 15 = true) : decode16 w = .error .rsvField := by
  simp only [decode16, h, finish, encFault_dec16, Bool.not_true, Bool.false_eq_true, if_false]

theorem decode16_enc16 (b d : Spec) (op : BitVec 4) : decode16 (enc16 b d op) = .ok (dec16 d b op.toNat) := by
  obtain ⟨-, h15, hb, hd, hop⟩ := fields_of_enc16 (b := b) (d := d) (op := op) rfl
  rw [decode16_of_clear h15, hb, hd, hop]

/-- Each of the sixteen forms is encoded with its own operation. -/
theorem encode_dec16 (b d : Spec) (op : BitVec 4) : encode (dec16 d b op.toNat) = .w16 (enc16 b d op) := by
  obtain ⟨n, hn, rfl⟩ : ∃ n < 16, op = BitVec.ofNat 4 n := ⟨op.toNat, op.isLt, by rw [ofNat_toNat, setWidth_eq]⟩
  rcases eq_of_lt_16 hn with rfl | rfl | rfl | rfl | rfl | rfl | rfl | rfl | rfl | rfl | rfl | rfl | rfl | rfl | rfl | rfl <;> rfl

/-- The bytes of a short form decode to it, with length 2. -/
theorem decode_bytes_enc16 (b d : Spec) (op : BitVec 4) :
    decode (Code.w16 (enc16 b d op)).bytes = .ok (dec16 d b op.toNat, 2) := by
  rw [decode_bytes_w16 (Laws.enc16_short b d op).1, decode16_enc16]
  rfl

/-- Settles O2, for each of the sixteen forms by its operation. -/
theorem encodeThenDecode16 : Obligations.EncodeThenDecode16 := by
  unfold Obligations.EncodeThenDecode16
  intro i w h
  cases i with
  | vaddF32_16 | vsubF32_16 | vmulF32_16 | vmaxF32_16 | vminF32_16 | vaddI32_16 | vsubI32_16 | vand16 | vor16 | vxor16
  | vmov16 | vaddF16x2_16 | vmulF16x2_16 | vaddBf16x2_16 | vmulBf16x2_16 | vshl16 =>
    cases h
    exact decode_bytes_enc16 ..
  | _ => cases h

/-- Settles O3: an accepted word is put together again from the fields that its decoder read. -/
theorem decodeThenEncode : Obligations.DecodeThenEncode := by
  unfold Obligations.DecodeThenEncode
  constructor
  · intro w i hw h
    exact encode_of_decodeRaw hw (eq_ok_of_finish h) rfl
  · intro w i hw h
    cases h15 : w.getLsbD 15 with
    | false =>
      rw [decode16_of_clear h15] at h
      cases h
      rw [encode_dec16, enc16_fields hw h15]
    | true =>
      rw [decode16_of_set h15] at h
      cases h

/-! ## Reserved words -/

/-- A reserved major opcode has no decoder (11 R240, R250). -/
theorem decodeRaw_reserved {w : W32} (h : fMajor w = 0x27 ∨ 0x35 ≤ fMajor w) : decodeRaw w = .error (.illegal 1) := by
  have hm : (fMajor w).toNat = 0x27 ∨ 0x35 ≤ (fMajor w).toNat := h.imp (congrArg BitVec.toNat) BitVec.le_def.1
  unfold decodeRaw
  generalize (fMajor w).toNat = m at hm
  -- each major with a decoder is below 0x35 and is not 0x27
  split <;> simp_all

/-- A store that acquires is no store (11 R239). -/
theorem ordStore_acq {o : Ord} (h : o = .acq ∨ o = .acqrel) (s : Scope) : ordStore o s = some 2 := by
  obtain rfl | rfl := h <;> rfl

/-- Settles O5: the reserved majors have no decoder, bit 15 of a short word is a reserved field, and the word of a store that acquires
decodes to a store that the encoding checks refuse. -/
theorem reservedWordsAreRefused : Obligations.ReservedWordsAreRefused := by
  unfold Obligations.ReservedWordsAreRefused
  refine ⟨fun w h => ?_, fun w h => decode16_of_set h, fun c d a o s z p ho => ?_⟩
  · rw [decode32, decodeRaw_reserved h]
    rfl
  · rw [decode32, decodeRaw_encode (i := .st c d a o s z p) rfl]
    exact finish_encFault (ordStore_acq ho s)

/-- Settles O4: each is the word of its instruction, which decodes to it. -/
theorem wordsOfTheManual : Obligations.WordsOfTheManual := by
  unfold Obligations.WordsOfTheManual
  have long {i : Instr} {w : W32} (h : encode i = .w32 w) (hi : i.encFault = none) := encodeThenDecode32 i w h hi
  exact ⟨long rfl rfl, long rfl rfl, long rfl rfl, long rfl rfl, long rfl rfl, encodeThenDecode16 _ _ rfl, long rfl rfl,
    long rfl rfl, long rfl rfl, long rfl rfl, long rfl rfl, long rfl rfl, long rfl rfl, long rfl rfl⟩

end Sys2Proof
end

section
/-! SUPPORT. What an instruction with a false guard does, and what a 16-bit form does (11 R232, R235; 14 R296). -/

namespace Sys2Proof.Machine

open Sys2Proof

/-! ## A false guard -/

/-- Reads raise no stall fault where c.check is clear or none of them is too early (04 R95). -/
theorem stallOf_reads_eq_none {t : Slot} {rs : List Reg} :
    stallOf t rs [] = none ↔ (t.check.getLsbD 0 = true → ∀ x ∈ rs, ¬(!x.fixed && early t x) = true) := by
  unfold stallOf
  rw [← List.find?_eq_none]
  split
  · rename_i hcheck
    cases rs.find? fun x => !x.fixed && early t x <;> simp [hcheck]
  · rename_i hcheck
    exact iff_of_true rfl fun h => absurd h hcheck

/-- Reads raise no stall fault where the first does not and the others do not. -/
theorem stallOf_cons {t : Slot} {x : Reg} {l : List Reg} (hx : stallOf t [x] [] = none) (hl : stallOf t l [] = none) :
    stallOf t (x :: l) [] = none := by
  rw [stallOf_reads_eq_none] at *
  exact fun hcheck => List.forall_mem_cons.2 ⟨hx hcheck x List.mem_cons_self, hl hcheck⟩

section

variable {i : Instr} {c : Ctl} {len : Nat} {fb : Bool} {reads writes : Slot → List Reg} {on : Slot → Bool} {body : Body} {s : State}

/-- A false guard spends the issue cycle and the stall count and nothing else (11 R232). -/
theorem issue_off (hon : on (s.slot s.cur) = false)
    (hready : notReady (s.slot s.cur) (.p c.g :: reads (s.slot s.cur) ++ writes (s.slot s.cur)) = false)
    (hrep : inRep (s.slot s.cur) fb = false) (hguard : stallOf (s.slot s.cur) [.p c.g] [] = none) :
    issue i c len fb reads writes on body s = .next (s.setSlot s.cur (retire (s.slot s.cur) s.now c.w len)) := by
  simp only [issue, hready, hrep, hguard, hon, Bool.false_eq_true, if_false]

/-- The same of a vector instruction, whose sources are read in time too unless its guard is the never form (14 R296). -/
theorem issueLanes_off (hon : on (s.slot s.cur) = false)
    (hready : notReady (s.slot s.cur) (.p c.g :: reads (s.slot s.cur) ++ writes (s.slot s.cur)) = false)
    (hguard : stallOf (s.slot s.cur) [.p c.g] [] = none)
    (hreads : neverForm c = false → stallOf (s.slot s.cur) (reads (s.slot s.cur)) [] = none) :
    issueLanes i c len reads writes on body s = .next (s.setSlot s.cur (retire (s.slot s.cur) s.now c.w len)) := by
  have hissue := issue_off (i := i) (len := len) (body := body) hon hready (fb := false) rfl hguard
  cases hn : neverForm c with
  | false => simp only [issueLanes, hn, stallOf_cons hguard (hreads hn), ite_self, hissue]
  | true => simp only [issueLanes, hn, Bool.not_true, Bool.and_false, Bool.false_and, Bool.false_eq_true, if_false, hissue]

end

/-- The frame of a form with its guard false. -/
theorem Form.run_off {f : Form} {i : Instr} {body : Body} {s : State} (hon : f.on (s.slot s.cur) = false)
    (hready : notReady (s.slot s.cur) (f.regs (s.slot s.cur)) = false) (hrep : inRep (s.slot s.cur) f.forbidden = false)
    (hguard : stallOf (s.slot s.cur) [.p f.c.g] [] = none)
    (hreads : f.lanes = true → neverForm f.c = false → stallOf (s.slot s.cur) (f.reads (s.slot s.cur)) [] = none) :
    f.run i body s = .next (s.setSlot s.cur (retire (s.slot s.cur) s.now f.c.w f.len)) := by
  unfold Form.run
  split
  · rename_i hlanes
    exact issueLanes_off hon hready hguard (hreads hlanes)
  · exact issue_off hon hready hrep hguard

/-- With nothing in flight no register is busy (04 R96). -/
theorem notReady_of_no_flights {t : Slot} (h : t.flights = []) (rs : List Reg) : notReady t rs = false := by
  simp [notReady, busy, h]

/-- Outside a repetition every instruction may stand (12 R274). -/
theorem inRep_of_no_rep {t : Slot} (h : t.rep = none) (fb : Bool) : inRep t fb = false := by
  simp [inRep, h]

/-- Settles O18: the frame of the form comes to an end at the false guard; the eight instructions are of scalar forms. -/
theorem falseGuardSpendsTheIssue : Obligations.FalseGuardSpendsTheIssue := by
  unfold Obligations.FalseGuardSpendsTheIssue
  intro s t
  have offForm : ∀ (i : Instr) (f : Form), formOf i = some f → f.on t = false → notReady t (f.regs t) = false →
      inRep t f.forbidden = false → stallOf t [.p f.c.g] [] = none →
      (f.lanes = true → neverForm f.c = false → stallOf t (f.reads t) [] = none) →
      exec i s = .next (s.setSlot s.cur (retire t s.now f.c.w f.len)) := by
    intro i f hf hon hready hrep hguard hreads
    obtain ⟨body, hexec⟩ := exec_form hf
    rw [hexec]
    exact Form.run_off hon hready hrep hguard hreads
  refine ⟨offForm, ?_⟩
  intro c d a b skips hguard hflights hrep hstall
  have offScalar {i : Instr} {f : Form} (hf : formOf i = some f) (hon : f.on t = guardOn t c) (hc : f.c = c) (hlen : f.len = 4)
      (hlanes : f.lanes = false) : skips i := by
    have := offForm i f hf (hon.trans hguard) (notReady_of_no_flights hflights _) (inRep_of_no_rep hrep _) (hc ▸ hstall)
      (by simp [hlanes])
    rwa [hc, hlen] at this
  exact ⟨offScalar rfl rfl rfl rfl rfl, fun o sc z pi => ⟨offScalar rfl rfl rfl rfl rfl, offScalar rfl rfl rfl rfl rfl⟩,
    fun o => offScalar rfl rfl rfl rfl rfl, fun f o sc => offScalar rfl rfl rfl rfl rfl, offScalar rfl rfl rfl rfl rfl,
    offScalar rfl rfl rfl rfl rfl, offScalar rfl rfl rfl rfl rfl⟩

/-! ## Vector instructions that execute -/

/-- A vector instruction that executes answers what its body makes of the package. -/
theorem issueLanes_ok {i : Instr} {c : Ctl} {len : Nat} {reads writes : Slot → List Reg} {on : Slot → Bool}
    {f : SlotRef → Slot → State → State} {s : State} (h : Executes s c false reads writes on = true)
    (hf : (s.slot s.cur).fenced (touches i) = false) :
    issueLanes i c len reads writes on (okBody f) s =
      .next (f s.cur (s.slot s.cur) (s.issued c len (writes (s.slot s.cur)))) := by
  have hon : on (s.slot s.cur) = true := by
    simp only [Executes, Bool.and_eq_true] at h
    exact h.2
  simp only [issueLanes, hon, Bool.not_true, Bool.false_and, Bool.false_eq_true, if_false]
  exact issue_ok h hf

/-- The guard of a short form enables every lane (11 R235). -/
theorem laneMask_ctl16 (t : Slot) : laneMask t ctl16 = 0xFFFFFFFF := rfl

/-- A fold over the lanes of a full mask takes every lane. -/
theorem foldl_lanes_full {m : W32} (hm : m = 0xFFFFFFFF) (g : Nat → Flags) :
    (List.range 32).foldl (fun u j => if m.getLsbD j then u ||| g j else u) 0 = (List.range 32).foldl (fun u j => u ||| g j) 0 := by
  subst hm
  have hfull : ∀ j < 32, (0xFFFFFFFF : W32).getLsbD j = true := by decide
  refine List.foldl_rel (r := Eq) rfl ?_
  rintro j hj u _ rfl
  exact if_pos (hfull j (List.mem_range.1 hj))

/-- A short form that executes: every lane of vd takes its function of the lanes, at the latency of the counterpart and with its flags
(11 R235). -/
theorem vlanes_ctl16 {i : Instr} {d : Spec} {reads : Slot → List Reg} {lat : Nat} {f : Slot → Nat → W32 × Flags} {s : State}
    (h : Executes s ctl16 false reads (fun _ => [.v d]) (fun t => laneMask t ctl16 != 0) = true)
    (hf : (s.slot s.cur).fenced (touches i) = false) :
    vlanes i ctl16 2 d reads lat f s =
      .next (((s.issued ctl16 2 [.v d]).later s.cur lat [.v d (ofLanes fun j => (f (s.slot s.cur) j).1) 0xFFFFFFFF]).flag s.cur
        ((List.range 32).foldl (fun u j => u ||| (f (s.slot s.cur) j).2) 0)) := by
  rw [← foldl_lanes_full (laneMask_ctl16 (s.slot s.cur)) fun j => (f (s.slot s.cur) j).2]
  exact issueLanes_ok h hf

/-- Shifting a lane left is multiplying it by a power of two (14 R298). -/
theorem shiftLeft_laneSh (x y : W32) : x <<< laneSh y = BitVec.ofNat 32 (x.toNat * 2 ^ (y.toNat % 32)) := by
  apply BitVec.eq_of_toNat_eq
  simp [laneSh, Nat.shiftLeft_eq]

/-- Settles O44: each form is a vector instruction whose guard enables every lane, and its word gives its fields. -/
theorem shortFormsAreTheirCounterparts : Obligations.ShortFormsAreTheirCounterparts := by
  unfold Obligations.ShortFormsAreTheirCounterparts
  refine ⟨fun s d b => ?_, fun b d => ?_, fun w h => decode16_of_set h⟩
  · have unfenced : (s.slot s.cur).fenced (false, false, false) = false := not_fenced _
    refine ⟨fun h => ?_, fun h => vlanes_ctl16 h unfenced⟩
    simp only [← shiftLeft_laneSh]
    and_intros <;> exact vlanes_ctl16 h unfenced
  · exact ⟨decode16_enc16 b d 0, decode16_enc16 b d 1, decode16_enc16 b d 2, decode16_enc16 b d 3, decode16_enc16 b d 4,
      decode16_enc16 b d 5, decode16_enc16 b d 6, decode16_enc16 b d 7, decode16_enc16 b d 8, decode16_enc16 b d 9,
      decode16_enc16 b d 10, decode16_enc16 b d 11, decode16_enc16 b d 12, decode16_enc16 b d 13, decode16_enc16 b d 14,
      decode16_enc16 b d 15⟩

end Sys2Proof.Machine
end
